-- ==== Sys2Proof/Word.lean ====
section
/-! DEFINITION. The words of the machine, the names of the four streams and the packet of a link.
Only types live here; every bit-field helper stands in `Decode.lean` or under `Machine/`. -/

namespace Sys2Proof

/-- A byte of memory (R1). -/
abbrev Byte := BitVec 8
/-- A 32-bit instruction word or vector lane (R37, R153). -/
abbrev W32 := BitVec 32
/-- A 64-bit scalar register, address or system register (Table 1-3). -/
abbrev W64 := BitVec 64

/-- The four streams of a group, numbered S 0, V 1, M 2, C 3 (R102). -/
inductive Stream where
  | s | v | m | c
deriving DecidableEq, Repr

/-- The number of a stream (R102). -/
def Stream.num : Stream → Nat
  | .s => 0
  | .v => 1
  | .m => 2
  | .c => 3

/-- A packet of an Avdon link (R342, Tables 19-3 and 19-4). `mask` and `data` are the byte mask and the
payload data bytes in ascending address order. -/
structure Packet where
  dstm : BitVec 6
  srcm : BitVec 6
  pop : BitVec 6
  nflit : BitVec 6
  arg : BitVec 8
  rid : BitVec 16
  tag : BitVec 16
  addr : BitVec 45
  cls : BitVec 3
  mask : BitVec 128
  data : List Byte
deriving DecidableEq, Repr

end Sys2Proof
end

