-- ==== Sys2Proof/Config.lean ====
section
/-! DEFINITION. What the manual leaves to the implementation. Each constant is opaque: nothing in Lean can evaluate it
or prove a value of it, so a statement holds whatever the device does. A Nat argument that is a fresh number comes from
the counter `State.fresh`. -/

namespace Sys2Proof

/-- R31: where a window sum lies within 1/8 of a tie, whether the device delivers the upper neighbour. The argument
is fresh. -/
opaque Config.tieUp : Nat → Bool
/-- R171: which of the two FP32 values that bracket the exact result `vexp2`, `vlog2`, `vsin`, `vcos` and `vtanh`
return, by function number and operand bits: true for the one of larger magnitude. -/
opaque Config.transUp : Nat → W32 → Bool
/-- R171 where the model's interval arithmetic does not separate the bracket (log entry 8): which of the candidates. -/
opaque Config.transPick : Nat → W32 → Nat
/-- R192: the choice among the physical banks that tie. The argument is fresh. -/
opaque Config.freeBank : Nat → Nat
/-- R198, R307: the choice among free physical accumulator banks and barrier objects. The argument is fresh. -/
opaque Config.freePhys : Nat → Nat
/-- R269: the way that an L1 fill replaces. The argument is fresh. -/
opaque Config.victim : Nat → Nat
/-- R62, R120: where several cores fit, which one the C-die distributor takes. The argument is fresh. -/
opaque Config.freeCore : Nat → Nat
/-- R282: contents of a region that leaves the far-tier cache are undefined; a byte of it by address and fresh number. -/
opaque Config.freeByte : Nat → Nat → Byte
/-- R271: the line that an L2 out of room replaces. The argument is fresh. -/
opaque Config.victim2 : Nat → Nat
/-- R278, R279: the row group, within its stack, of a line of HBM4E: the mapping of addresses to rows is not architected. -/
opaque Config.rowGroup : Nat → Nat
/-- R218: NSAT, NRX and NSKEW where a command has more than 65,535 such elements: the field's value, by fresh number. -/
opaque Config.countOver : Nat → Nat
/-- R366: how many firmware images run, each of which has a digest in an attestation report. -/
opaque Config.fwImages : Nat

/-- The module whose string lights a fibre port that is IN (R205): how the fibres are laid; by module and port (log entry 26). -/
opaque Config.feeder : Nat → Nat → Nat

end Sys2Proof
end

