-- ==== Sys2Proof/Syntax.lean ====
section
/-! DEFINITION. The instruction set: one constructor for each row of spec/opcode_table.json.
A row with an encoding has one argument for each operand field of its word, in the order of the table
(`p` and `q` are the token pop and push masks of R41). A row without an encoding is one of the part's own
steps (spec/95); its arguments are what reaches the step from outside: the group or unit it concerns, and
the values that the host, a link, a comb monitor or the management controller supplies. -/

namespace Sys2Proof

/-- Every operation and event of spec/opcode_table.json. -/
inductive Instr where
  /-- ADD (R128, scalar stream). -/
  | add (d a b : BitVec 5)
  /-- SUB (R128, scalar stream). -/
  | sub (d a b : BitVec 5)
  /-- AND (R128, scalar stream). -/
  | and (d a b : BitVec 5)
  /-- OR (R128, scalar stream). -/
  | or (d a b : BitVec 5)
  /-- XOR (R128, scalar stream). -/
  | xor (d a b : BitVec 5)
  /-- ANDN (R128, scalar stream). -/
  | andn (d a b : BitVec 5)
  /-- SHL (R128, scalar stream). -/
  | shl (d a b : BitVec 5)
  /-- SHR_N (R128, scalar stream). -/
  | shrN (d a b : BitVec 5)
  /-- SHR_I (R128, scalar stream). -/
  | shrI (d a b : BitVec 5)
  /-- CMPLT_I (R128, scalar stream). -/
  | cmpltI (d a b : BitVec 5)
  /-- CMPLT_N (R128, scalar stream). -/
  | cmpltN (d a b : BitVec 5)
  /-- MIN_I (R128, scalar stream). -/
  | minI (d a b : BitVec 5)
  /-- MAX_I (R128, scalar stream). -/
  | maxI (d a b : BitVec 5)
  /-- MIN_N (R128, scalar stream). -/
  | minN (d a b : BitVec 5)
  /-- MAX_N (R128, scalar stream). -/
  | maxN (d a b : BitVec 5)
  /-- MUL (R129, scalar stream). -/
  | mul (d a b : BitVec 5)
  /-- MULHI_I (R129, scalar stream). -/
  | mulhiI (d a b : BitVec 5)
  /-- MULHI_N (R129, scalar stream). -/
  | mulhiN (d a b : BitVec 5)
  /-- QUO_I (R129, scalar stream). -/
  | quoI (d a b : BitVec 5)
  /-- QUO_N (R129, scalar stream). -/
  | quoN (d a b : BitVec 5)
  /-- RMD_I (R129, scalar stream). -/
  | rmdI (d a b : BitVec 5)
  /-- RMD_N (R129, scalar stream). -/
  | rmdN (d a b : BitVec 5)
  /-- SEL (R130, scalar stream). -/
  | sel (d a b c : BitVec 5)
  /-- CLZ (R130, scalar stream). -/
  | clz (d a : BitVec 5)
  /-- CTZ (R130, scalar stream). -/
  | ctz (d a : BitVec 5)
  /-- POPC (R130, scalar stream). -/
  | popc (d a : BitVec 5)
  /-- BSWAP (R130, scalar stream). -/
  | bswap (d a : BitVec 5)
  /-- ADDI (R131, scalar stream). -/
  | addi (d a : BitVec 5) (i : BitVec 15)
  /-- ANDI (R131, scalar stream). -/
  | andi (d a : BitVec 5) (i : BitVec 15)
  /-- ORI (R131, scalar stream). -/
  | ori (d a : BitVec 5) (i : BitVec 15)
  /-- XORI (R131, scalar stream). -/
  | xori (d a : BitVec 5) (i : BitVec 15)
  /-- CMPLTI_I (R131, scalar stream). -/
  | cmpltiI (d a : BitVec 5) (i : BitVec 15)
  /-- CMPLTI_N (R131, scalar stream). -/
  | cmpltiN (d a : BitVec 5) (i : BitVec 15)
  /-- SHLI (R132, scalar stream). -/
  | shli (d a : BitVec 5) (s : BitVec 6)
  /-- SHRI_N (R132, scalar stream). -/
  | shriN (d a : BitVec 5) (s : BitVec 6)
  /-- SHRI_I (R132, scalar stream). -/
  | shriI (d a : BitVec 5) (s : BitVec 6)
  /-- IMM_LO (R133, scalar stream). -/
  | immLo (d : BitVec 5) (i : BitVec 20)
  /-- IMM_CAT (R133, scalar stream). -/
  | immCat (d : BitVec 5) (i : BitVec 20)
  /-- PCADD (R133, scalar stream). -/
  | pcadd (d : BitVec 5) (i : BitVec 20)
  /-- NOP (R45, scalar stream). -/
  | nop
  /-- BEQ (R134, scalar stream). -/
  | beq (a b : BitVec 5) (o : BitVec 15)
  /-- BNE (R134, scalar stream). -/
  | bne (a b : BitVec 5) (o : BitVec 15)
  /-- BLT_I (R134, scalar stream). -/
  | bltI (a b : BitVec 5) (o : BitVec 15)
  /-- BGE_I (R134, scalar stream). -/
  | bgeI (a b : BitVec 5) (o : BitVec 15)
  /-- BLT_N (R134, scalar stream). -/
  | bltN (a b : BitVec 5) (o : BitVec 15)
  /-- BGE_N (R134, scalar stream). -/
  | bgeN (a b : BitVec 5) (o : BitVec 15)
  /-- JMP (R135, scalar stream). -/
  | jmp (d : BitVec 5) (o : BitVec 20)
  /-- JMPR (R135, scalar stream). -/
  | jmpr (d a : BitVec 5) (i : BitVec 15)
  /-- LD_I8 (R138, scalar stream). -/
  | ldI8 (d a : BitVec 5) (i : BitVec 12)
  /-- LD_N8 (R138, scalar stream). -/
  | ldN8 (d a : BitVec 5) (i : BitVec 12)
  /-- LD_I16 (R138, scalar stream). -/
  | ldI16 (d a : BitVec 5) (i : BitVec 12)
  /-- LD_N16 (R138, scalar stream). -/
  | ldN16 (d a : BitVec 5) (i : BitVec 12)
  /-- LD_I32 (R138, scalar stream). -/
  | ldI32 (d a : BitVec 5) (i : BitVec 12)
  /-- LD_N32 (R138, scalar stream). -/
  | ldN32 (d a : BitVec 5) (i : BitVec 12)
  /-- LD_I64 (R138, scalar stream). -/
  | ldI64 (d a : BitVec 5) (i : BitVec 12)
  /-- ST_I8 (R139, scalar stream). -/
  | stI8 (d a : BitVec 5) (i : BitVec 12)
  /-- ST_I16 (R139, scalar stream). -/
  | stI16 (d a : BitVec 5) (i : BitVec 12)
  /-- ST_I32 (R139, scalar stream). -/
  | stI32 (d a : BitVec 5) (i : BitVec 12)
  /-- ST_I64 (R139, scalar stream). -/
  | stI64 (d a : BitVec 5) (i : BitVec 12)
  /-- LDL_I32 (R143, scalar stream). -/
  | ldlI32 (d a : BitVec 5) (i : BitVec 12)
  /-- LDL_I64 (R143, scalar stream). -/
  | ldlI64 (d a : BitVec 5) (i : BitVec 12)
  /-- STL_I32 (R143, scalar stream). -/
  | stlI32 (d a : BitVec 5) (i : BitVec 12)
  /-- STL_I64 (R143, scalar stream). -/
  | stlI64 (d a : BitVec 5) (i : BitVec 12)
  /-- LD_ACQ (R294, scalar stream). -/
  | ldAcq (d a : BitVec 5) (s : BitVec 3) (i : BitVec 12)
  /-- ST_REL (R294, scalar stream). -/
  | stRel (d a : BitVec 5) (s : BitVec 3) (i : BitVec 12)
  /-- LD_ACQP (R300, scalar stream). -/
  | ldAcqp (d a : BitVec 5) (s : BitVec 3) (b : BitVec 5)
  /-- FENCE (R294, scalar stream). -/
  | fence (s : BitVec 3)
  /-- FENCE_REL (R294, scalar stream). -/
  | fenceRel (s : BitVec 3)
  /-- FENCE_ACQ (R294, scalar stream). -/
  | fenceAcq (s : BitVec 3)
  /-- ATOM (R145, scalar stream). -/
  | atom (d a : BitVec 5) (s : BitVec 3) (b : BitVec 5) (o : BitVec 4) (t : BitVec 3)
  /-- RED (R148, scalar stream). -/
  | red (a : BitVec 5) (s : BitVec 3) (b : BitVec 5) (o : BitVec 4) (t : BitVec 3)
  /-- LDFE (R195, scalar stream). -/
  | ldfe (d a : BitVec 5) (s : BitVec 3) (i : BitVec 12)
  /-- STFE (R195, scalar stream). -/
  | stfe (d a : BitVec 5) (s : BitVec 3) (i : BitVec 12)
  /-- CLINE_WB (R149, scalar stream). -/
  | clineWb (a b : BitVec 5) (l : BitVec 1)
  /-- CLINE_INV (R149, scalar stream). -/
  | clineInv (a b : BitVec 5) (l : BitVec 1)
  /-- CLINE_WBI (R149, scalar stream). -/
  | clineWbi (a b : BitVec 5) (l : BitVec 1)
  /-- CLINE_ZERO (R149, scalar stream). -/
  | clineZero (a b : BitVec 5)
  /-- FTC_WB (R151, scalar stream). -/
  | ftcWb (a b : BitVec 5)
  /-- FTC_INV (R151, scalar stream). -/
  | ftcInv (a b : BitVec 5)
  /-- FTC_WBI (R151, scalar stream). -/
  | ftcWbi (a b : BitVec 5)
  /-- FTC_PROBE (R152, scalar stream). -/
  | ftcProbe (d a : BitVec 5)
  /-- BMODE_RESET (R196, scalar stream). -/
  | bmodeReset (a : BitVec 5)
  /-- BMODE_EMPTY (R196, scalar stream). -/
  | bmodeEmpty (a b : BitVec 5)
  /-- BMODE_FULL (R196, scalar stream). -/
  | bmodeFull (a b : BitVec 5)
  /-- BMODE_QUERY (R196, scalar stream). -/
  | bmodeQuery (d a : BitVec 5)
  /-- TLB_INV (R324, scalar stream). -/
  | tlbInv (d a : BitVec 5)
  /-- TLB_INVALL (R324, scalar stream). -/
  | tlbInvall (d : BitVec 5)
  /-- TLB_SYNC (R324, scalar stream). -/
  | tlbSync
  /-- PG_PROBE (R325, scalar stream). -/
  | pgProbe (d a : BitVec 5)
  /-- PG_MIG (R326, scalar stream). -/
  | pgMig (d a : BitVec 5)
  /-- TOKSEND (R106, scalar stream). -/
  | toksend (v m c : BitVec 1) (n : BitVec 6)
  /-- TOKWAIT (R106, scalar stream). -/
  | tokwait (v m c : BitVec 1) (n : BitVec 6)
  /-- FMTQ (R107, scalar stream). -/
  | fmtq (a : BitVec 5)
  /-- END (R109, scalar stream). -/
  | endS
  /-- REND (R109, scalar stream). -/
  | rend (i : BitVec 16)
  /-- EXIT (R110, scalar stream). -/
  | exit (i : BitVec 16)
  /-- LAUNCH (R124, scalar stream). -/
  | launch (d a b : BitVec 5)
  /-- SIG_ADD (R125, scalar stream). -/
  | sigAdd (d a b : BitVec 5)
  /-- SIG_SET (R125, scalar stream). -/
  | sigSet (d a b : BitVec 5)
  /-- SIG_WAIT (R125, scalar stream). -/
  | sigWait (d a b : BitVec 5)
  /-- SIG_INT (R125, scalar stream). -/
  | sigInt (d a b : BitVec 5)
  /-- HINT_SAVE (R69, scalar stream). -/
  | hintSave (b : BitVec 5) (i : BitVec 20)
  /-- TRAP (R67, scalar stream). -/
  | trap (i : BitVec 16)
  /-- RETT (R68, scalar stream). -/
  | rett
  /-- SYSR (R70, scalar stream). -/
  | sysr (d : BitVec 5) (r : BitVec 9)
  /-- SYSW (R70, scalar stream). -/
  | sysw (a : BitVec 5) (r : BitVec 9)
  /-- BAR_INIT (R312, scalar stream). -/
  | barInit (a b : BitVec 5)
  /-- BAR_REG (R312, scalar stream). -/
  | barReg (a : BitVec 5)
  /-- BAR_ARR (R312, scalar stream). -/
  | barArr (d a : BitVec 5) (s : BitVec 3)
  /-- BAR_WAIT (R312, scalar stream). -/
  | barWait (d a b : BitVec 5) (s : BitVec 3)
  /-- BAR_ARD (R312, scalar stream). -/
  | barArd (a : BitVec 5) (s : BitVec 3)
  /-- BAR_PUB (R312, scalar stream). -/
  | barPub (a b : BitVec 5)
  /-- BAR_ATT (R312, scalar stream). -/
  | barAtt (a b : BitVec 5)
  /-- BAR_RARR (R312, scalar stream). -/
  | barRarr (d a b : BitVec 5) (s : BitVec 3)
  /-- BAR_RDLO (R312, scalar stream). -/
  | barRdlo (d a : BitVec 5)
  /-- BAR_RDHI (R312, scalar stream). -/
  | barRdhi (d a : BitVec 5)
  /-- LOOP_BEG (R86, scalar stream). -/
  | loopBeg (l : BitVec 3) (n : BitVec 8)
  /-- LOOP_FIRST (R87, scalar stream). -/
  | loopFirst (l : BitVec 3) (c : BitVec 4)
  /-- LOOP_LAST (R87, scalar stream). -/
  | loopLast (l : BitVec 3) (c : BitVec 4)
  /-- LOOP_IDX (R88, scalar stream). -/
  | loopIdx (d : BitVec 5) (l : BitVec 3)
  /-- LOOP_ITERATION_END (R86, step of the device). -/
  | loopIterationEnd
  /-- VADD (R161, vector stream). -/
  | vadd (p q : BitVec 3) (d a b : BitVec 5) (k : BitVec 3) (t : BitVec 2)
  /-- VSUB (R161, vector stream). -/
  | vsub (p q : BitVec 3) (d a b : BitVec 5) (k : BitVec 3) (t : BitVec 2)
  /-- VMUL (R161, vector stream). -/
  | vmul (p q : BitVec 3) (d a b : BitVec 5) (k : BitVec 3) (t : BitVec 2)
  /-- VFMA (R161, vector stream). -/
  | vfma (p q : BitVec 3) (d a b : BitVec 5) (k : BitVec 3) (t : BitVec 2)
  /-- VFMS (R161, vector stream). -/
  | vfms (p q : BitVec 3) (d a b : BitVec 5) (k : BitVec 3) (t : BitVec 2)
  /-- VMIN (R161, vector stream). -/
  | vmin (p q : BitVec 3) (d a b : BitVec 5) (k : BitVec 3) (t : BitVec 2)
  /-- VMAX (R161, vector stream). -/
  | vmax (p q : BitVec 3) (d a b : BitVec 5) (k : BitVec 3) (t : BitVec 2)
  /-- VADD_INTEGER (R162, vector stream). -/
  | vaddInteger (p q : BitVec 3) (d a b : BitVec 5) (k : BitVec 3) (t : BitVec 2)
  /-- VSUB_INTEGER (R162, vector stream). -/
  | vsubInteger (p q : BitVec 3) (d a b : BitVec 5) (k : BitVec 3) (t : BitVec 2)
  /-- VMUL_INTEGER (R162, vector stream). -/
  | vmulInteger (p q : BitVec 3) (d a b : BitVec 5) (k : BitVec 3) (t : BitVec 2)
  /-- VMULH (R162, vector stream). -/
  | vmulh (p q : BitVec 3) (d a b : BitVec 5) (k : BitVec 3) (t : BitVec 2)
  /-- VMIN_INTEGER (R162, vector stream). -/
  | vminInteger (p q : BitVec 3) (d a b : BitVec 5) (k : BitVec 3) (t : BitVec 2)
  /-- VMAX_INTEGER (R162, vector stream). -/
  | vmaxInteger (p q : BitVec 3) (d a b : BitVec 5) (k : BitVec 3) (t : BitVec 2)
  /-- VAND (R163, vector stream). -/
  | vand (p q : BitVec 3) (d a b : BitVec 5) (k : BitVec 3)
  /-- VOR (R163, vector stream). -/
  | vor (p q : BitVec 3) (d a b : BitVec 5) (k : BitVec 3)
  /-- VXOR (R163, vector stream). -/
  | vxor (p q : BitVec 3) (d a b : BitVec 5) (k : BitVec 3)
  /-- VSHL (R163, vector stream). -/
  | vshl (p q : BitVec 3) (d a b : BitVec 5) (k : BitVec 3)
  /-- VSHR (R163, vector stream). -/
  | vshr (p q : BitVec 3) (d a b : BitVec 5) (k : BitVec 3)
  /-- VSRA (R163, vector stream). -/
  | vsra (p q : BitVec 3) (d a b : BitVec 5) (k : BitVec 3)
  /-- VADDI (R164, vector stream). -/
  | vaddi (p q : BitVec 3) (d a : BitVec 5) (k : BitVec 3) (i : BitVec 7)
  /-- VANDI (R164, vector stream). -/
  | vandi (p q : BitVec 3) (d a : BitVec 5) (k : BitVec 3) (i : BitVec 7)
  /-- VSHLI (R164, vector stream). -/
  | vshli (p q : BitVec 3) (d a : BitVec 5) (k : BitVec 3) (i : BitVec 5)
  /-- VSHRI (R164, vector stream). -/
  | vshri (p q : BitVec 3) (d a : BitVec 5) (k : BitVec 3) (i : BitVec 5)
  /-- VCMP (R172, vector stream). -/
  | vcmp (p q x : BitVec 3) (a b : BitVec 5) (k : BitVec 3) (t c : BitVec 2)
  /-- KAND (R173, vector stream). -/
  | kand (p q x y k : BitVec 3)
  /-- KOR (R173, vector stream). -/
  | kor (p q x y k : BitVec 3)
  /-- KXOR (R173, vector stream). -/
  | kxor (p q x y k : BitVec 3)
  /-- KANDN (R173, vector stream). -/
  | kandn (p q x y k : BitVec 3)
  /-- KMOV (R173, vector stream). -/
  | kmov (p q x k : BitVec 3)
  /-- KNOT (R173, vector stream). -/
  | knot (p q x k : BitVec 3)
  /-- KPUSH (R174, vector stream). -/
  | kpush (p q x k : BitVec 3)
  /-- KPOP (R174, vector stream). -/
  | kpop (p q x : BitVec 3)
  /-- KELSE (R174, vector stream). -/
  | kelse (p q x : BitVec 3)
  /-- VBR_ANY (R175, vector stream). -/
  | vbrAny (p q k : BitVec 3) (o : BitVec 15)
  /-- VBR_ALL (R175, vector stream). -/
  | vbrAll (p q k : BitVec 3) (o : BitVec 15)
  /-- VBR_NONE (R175, vector stream). -/
  | vbrNone (p q k : BitVec 3) (o : BitVec 15)
  /-- VJ (R175, vector stream). -/
  | vj (p q : BitVec 3) (o : BitVec 15)
  /-- VCVT (R169, vector stream). -/
  | vcvt (p q : BitVec 3) (d a : BitVec 5) (k : BitVec 3) (f : BitVec 7)
  /-- VQUANT (R178, vector stream). -/
  | vquant (p q : BitVec 3) (d a : BitVec 5) (k : BitVec 3) (m : BitVec 1) (s : BitVec 3)
  /-- VEXP2 (R170, vector stream). -/
  | vexp2 (p q : BitVec 3) (d a : BitVec 5) (k : BitVec 3)
  /-- VLOG2 (R170, vector stream). -/
  | vlog2 (p q : BitVec 3) (d a : BitVec 5) (k : BitVec 3)
  /-- VRCP (R170, vector stream). -/
  | vrcp (p q : BitVec 3) (d a : BitVec 5) (k : BitVec 3)
  /-- VRSQRT (R170, vector stream). -/
  | vrsqrt (p q : BitVec 3) (d a : BitVec 5) (k : BitVec 3)
  /-- VSIN (R170, vector stream). -/
  | vsin (p q : BitVec 3) (d a : BitVec 5) (k : BitVec 3)
  /-- VCOS (R170, vector stream). -/
  | vcos (p q : BitVec 3) (d a : BitVec 5) (k : BitVec 3)
  /-- VTANH (R170, vector stream). -/
  | vtanh (p q : BitVec 3) (d a : BitVec 5) (k : BitVec 3)
  /-- VRADD (R176, vector stream). -/
  | vradd (p q : BitVec 3) (d a : BitVec 5) (k : BitVec 3) (t : BitVec 2)
  /-- VRMAX (R176, vector stream). -/
  | vrmax (p q : BitVec 3) (d a : BitVec 5) (k : BitVec 3) (t : BitVec 2)
  /-- VRMIN (R176, vector stream). -/
  | vrmin (p q : BitVec 3) (d a : BitVec 5) (k : BitVec 3) (t : BitVec 2)
  /-- VRMAXI (R177, vector stream). -/
  | vrmaxi (p q : BitVec 3) (d a : BitVec 5) (k : BitVec 3) (t : BitVec 2)
  /-- VPERM (R168, vector stream). -/
  | vperm (p q : BitVec 3) (d a b : BitVec 5) (k : BitVec 3)
  /-- VSHUF (R168, vector stream). -/
  | vshuf (p q : BitVec 3) (d a b : BitVec 5) (k : BitVec 3)
  /-- VROT (R168, vector stream). -/
  | vrot (p q : BitVec 3) (d a b : BitVec 5) (k : BitVec 3)
  /-- VZIP (R168, vector stream). -/
  | vzip (p q : BitVec 3) (d a b : BitVec 5) (k : BitVec 3)
  /-- VSEL (R167, vector stream). -/
  | vsel (p q : BitVec 3) (d a b : BitVec 5) (k : BitVec 3)
  /-- VLI (R165, vector stream). -/
  | vli (p q : BitVec 3) (d : BitVec 5) (i : BitVec 15)
  /-- VLIH (R165, vector stream). -/
  | vlih (p q : BitVec 3) (d : BitVec 5) (i : BitVec 15)
  /-- VMOV (R166, vector stream). -/
  | vmov (p q : BitVec 3) (d a : BitVec 5) (k : BitVec 3)
  /-- VLANE (R166, vector stream). -/
  | vlane (p q : BitVec 3) (d a : BitVec 5) (k : BitVec 3) (n : BitVec 6)
  /-- VLD (R185, vector stream). -/
  | vld (p q : BitVec 3) (d a : BitVec 5) (k : BitVec 3) (o : BitVec 7)
  /-- VST (R186, vector stream). -/
  | vst (p q : BitVec 3) (d a : BitVec 5) (k : BitVec 3) (o : BitVec 7)
  /-- VGATHER (R188, vector stream). -/
  | vgather (p q : BitVec 3) (d a : BitVec 5) (k : BitVec 3) (o : BitVec 7)
  /-- VSCATTER (R188, vector stream). -/
  | vscatter (p q : BitVec 3) (d a : BitVec 5) (k : BitVec 3) (o : BitVec 7)
  /-- VLUT (R183, vector stream). -/
  | vlut (p q : BitVec 3) (d a : BitVec 5) (k : BitVec 3) (o : BitVec 7)
  /-- VRESCALE (R181, vector stream). -/
  | vrescale (p q : BitVec 3) (d a : BitVec 5) (k : BitVec 3) (t : BitVec 5)
  /-- VACC_COL (R203, vector stream). -/
  | vaccCol (p q : BitVec 3) (d a : BitVec 5) (k : BitVec 3)
  /-- VACC_COLZ (R203, vector stream). -/
  | vaccColz (p q : BitVec 3) (d a : BitVec 5) (k : BitVec 3)
  /-- VACC_ROW (R203, vector stream). -/
  | vaccRow (p q : BitVec 3) (d a : BitVec 5) (k : BitVec 3)
  /-- VACC_ROWZ (R203, vector stream). -/
  | vaccRowz (p q : BitVec 3) (d a : BitVec 5) (k : BitVec 3)
  /-- VACC_WCOL (R203, vector stream). -/
  | vaccWcol (p q : BitVec 3) (d a : BitVec 5) (k : BitVec 3)
  /-- VACC_ACOL (R203, vector stream). -/
  | vaccAcol (p q : BitVec 3) (d a : BitVec 5) (k : BitVec 3)
  /-- VLDFE (R197, vector stream). -/
  | vldfe (p q : BitVec 3) (d a : BitVec 5) (k : BitVec 3) (o : BitVec 7)
  /-- VSTFE (R197, vector stream). -/
  | vstfe (p q : BitVec 3) (d a : BitVec 5) (k : BitVec 3) (o : BitVec 7)
  /-- LOOP_BEG_XN (R89, vector, matrix and copy streams). -/
  | loopBegXn (l : BitVec 3) (n : BitVec 8)
  /-- LOOP_FIRST_XN (R87, vector, matrix and copy streams). -/
  | loopFirstXn (l : BitVec 3) (c : BitVec 4)
  /-- LOOP_LAST_XN (R87, vector, matrix and copy streams). -/
  | loopLastXn (l : BitVec 3) (c : BitVec 4)
  /-- REND_XN (R109, vector, matrix and copy streams). -/
  | rendXn (p q : BitVec 3) (i : BitVec 16)
  /-- END_XN (R109, vector, matrix and copy streams). -/
  | endXn (p q : BitVec 3)
  /-- NOP_XN (R45, vector, matrix and copy streams). -/
  | nopXn (p q : BitVec 3)
  /-- MTILE (R227, matrix stream). -/
  | mtile (p q : BitVec 3) (n : BitVec 6) (m : BitVec 2) (a b c : BitVec 4)
  /-- MBCAST (R227, matrix stream). -/
  | mbcast (p q : BitVec 3) (n : BitVec 6) (a b : BitVec 4)
  /-- MTILE_T (R227, matrix stream). -/
  | mtileT (p q : BitVec 3) (n : BitVec 6) (m : BitVec 2) (a b c : BitVec 4)
  /-- MSYNC (R244, matrix stream). -/
  | msync (p q : BitVec 3)
  /-- MDSET (R234, matrix stream). -/
  | mdset (p q : BitVec 3) (d f : BitVec 4) (i : BitVec 12)
  /-- MDADD (R234, matrix stream). -/
  | mdadd (p q : BitVec 3) (d s : BitVec 4) (i : BitVec 12)
  /-- MDMOV (R234, matrix stream). -/
  | mdmov (p q : BitVec 3) (d s : BitVec 4)
  /-- MDLD (R234, matrix stream). -/
  | mdld (p q : BitVec 3) (d s : BitVec 4) (i : BitVec 12)
  /-- MJOIN (R222, matrix stream). -/
  | mjoin (p q s : BitVec 3) (r : BitVec 2) (k : BitVec 6) (v : BitVec 2)
  /-- MLEAVE (R223, matrix stream). -/
  | mleave (p q : BitVec 3)
  /-- MCAL (R224, matrix stream). -/
  | mcal (p q s : BitVec 3) (r : BitVec 2)
  /-- MOCFG (R225, matrix stream). -/
  | mocfg (p q : BitVec 3) (o : BitVec 6) (t : BitVec 2) (i : BitVec 12)
  /-- MSTAT (R226, matrix stream). -/
  | mstat (p q : BitVec 3) (o : BitVec 6) (s : BitVec 3) (m : BitVec 4)
  /-- MACC_ALLOC (R200, matrix stream). -/
  | maccAlloc (p q : BitVec 3) (b : BitVec 4)
  /-- MACC_FREE (R200, matrix stream). -/
  | maccFree (p q : BitVec 3) (b : BitVec 4)
  /-- MACC_ZERO (R200, matrix stream). -/
  | maccZero (p q : BitVec 3) (n b : BitVec 4)
  /-- MACC_SHARE (R200, matrix stream). -/
  | maccShare (p q : BitVec 3) (k : BitVec 6) (b : BitVec 4)
  /-- MACC_ATTACH (R200, matrix stream). -/
  | maccAttach (p q : BitVec 3) (n : BitVec 4) (k : BitVec 6) (b : BitVec 4)
  /-- CPY (R255, copy stream). -/
  | cpy (p q : BitVec 3) (x y z : BitVec 4) (f : BitVec 8)
  /-- CPY_S (R256, copy stream). -/
  | cpyS (p q : BitVec 3) (x y z : BitVec 4) (f : BitVec 8)
  /-- CTLD (R258, copy stream). -/
  | ctld (p q : BitVec 3) (x y z : BitVec 4) (f : BitVec 8)
  /-- CTST (R259, copy stream). -/
  | ctst (p q : BitVec 3) (x y z : BitVec 4) (f : BitVec 8)
  /-- CGATH (R260, copy stream). -/
  | cgath (p q : BitVec 3) (x y z : BitVec 4) (f : BitVec 8)
  /-- CSCAT (R260, copy stream). -/
  | cscat (p q : BitVec 3) (x y z : BitVec 4) (f : BitVec 8)
  /-- CWALK (R261, copy stream). -/
  | cwalk (p q : BitVec 3) (x y z : BitVec 4) (f : BitVec 8)
  /-- CZERO (R257, copy stream). -/
  | czero (p q : BitVec 3) (x z : BitVec 4) (f : BitVec 8)
  /-- CFILL (R257, copy stream). -/
  | cfill (p q : BitVec 3) (x y z : BitVec 4) (f : BitVec 8)
  /-- CBAR_IN (R263, copy stream). -/
  | cbarIn (p q : BitVec 3) (x : BitVec 4) (b : BitVec 8)
  /-- CBAR_OUT (R263, copy stream). -/
  | cbarOut (p q : BitVec 3) (x : BitVec 4) (b : BitVec 8)
  /-- CBAR_ARR (R263, copy stream). -/
  | cbarArr (p q : BitVec 3) (b : BitVec 8)
  /-- CSIG_ADD (R264, copy stream). -/
  | csigAdd (p q : BitVec 3) (x y : BitVec 4)
  /-- CSIG_SET (R264, copy stream). -/
  | csigSet (p q : BitVec 3) (x y : BitVec 4)
  /-- CCOLL (R266, copy stream). -/
  | ccoll (p q : BitVec 3) (x z : BitVec 4)
  /-- CPREF (R265, copy stream). -/
  | cpref (p q : BitVec 3) (x z : BitVec 4)
  /-- CA_LI (R252, copy stream). -/
  | caLi (p q : BitVec 3) (a : BitVec 4) (i : BitVec 16)
  /-- CA_LIH (R252, copy stream). -/
  | caLih (p q : BitVec 3) (a : BitVec 4) (i : BitVec 16)
  /-- CA_ADDI (R252, copy stream). -/
  | caAddi (p q : BitVec 3) (a : BitVec 4) (i : BitVec 16)
  /-- CA_ADD (R252, copy stream). -/
  | caAdd (p q : BitVec 3) (x y z : BitVec 4)
  /-- CA_MOV (R252, copy stream). -/
  | caMov (p q : BitVec 3) (x y : BitVec 4)
  /-- CH_LD (R254, copy stream). -/
  | chLd (p q : BitVec 3) (x y : BitVec 4) (i : BitVec 8)
  /-- CH_ST (R254, copy stream). -/
  | chSt (p q : BitVec 3) (x y : BitVec 4) (i : BitVec 8)
  /-- VECTOR_RESULT_WRITE (R158, step of the device). -/
  | vectorResultWrite (h : BitVec 64)
  /-- VLD_CHECKS_DECIDED (R185, step of the device). -/
  | vldChecksDecided (h : BitVec 64)
  /-- VLD_REPLAY (R185, step of the device). -/
  | vldReplay (h : BitVec 64)
  /-- LATCH_WRITE (R65, step of the device). -/
  | latchWrite (h : BitVec 64)
  /-- VECTOR_ELEMENT (R188, step of the device). -/
  | vectorElement (h : BitVec 64)
  /-- VQUANT_GROUP (R180, step of the device). -/
  | vquantGroup (h : BitVec 64)
  /-- COPY_ELEMENT (R246, step of the device). -/
  | copyElement (h : BitVec 64)
  /-- TILE_COMMAND_START (R237, step of the device). -/
  | tileCommandStart (h : BitVec 64)
  /-- FRAME_START (R213, step of the device). -/
  | frameStart (h : BitVec 64) (dark : BitVec 68) (pre : List (BitVec 64))
  /-- SESSION_TIMEOUT (R214, step of the device). -/
  | sessionTimeout (h : BitVec 64)
  /-- TILE_ELEMENT (R238, step of the device). -/
  | tileElement (h : BitVec 64) (laser : BitVec 1 × BitVec 68) (obs : List (BitVec 64 × BitVec 2 × List (BitVec 16)))
      (light : List (BitVec 16))
  /-- JOIN_ADMITTED (R211, step of the device). -/
  | joinAdmitted (str : BitVec 3)
  /-- COMB_FAILOVER_DONE (R219, step of the device). -/
  | combFailoverDone (str : BitVec 3)
  /-- CALIBRATION_DONE (R221, step of the device). -/
  | calibrationDone (str : BitVec 3) (found : BitVec 68 × List (BitVec 16))
  /-- STREAM_ENDED (R109, step of the device). -/
  | streamEnded (h : BitVec 64) (st : BitVec 2)
  /-- TRAP_DELIVERY (R64, step of the device). -/
  | trapDelivery (h : BitVec 64)
  /-- ASYNC_FAULT_DELIVERY (R331, step of the device). -/
  | asyncFaultDelivery (h : BitVec 64)
  /-- PREEMPTION_DEADLINE (R72, step of the device). -/
  | preemptionDeadline (h : BitVec 64)
  /-- GROUP_SAVE (R73, step of the device). -/
  | groupSave (h : BitVec 64)
  /-- GROUP_RETIRE (R111, step of the device). -/
  | groupRetire (h : BitVec 64)
  /-- PACKET_TAKE (R118, step of the device). -/
  | packetTake (q : BitVec 15)
  /-- PARAMETER_BLOCK_READ (R80, step of the device). -/
  | parameterBlockRead (q : BitVec 15)
  /-- GROUP_DISPATCH (R120, step of the device). -/
  | groupDispatch
  /-- SPILL_EXPIRY (R122, step of the device). -/
  | spillExpiry (q : BitVec 15)
  /-- PACKET_COMPLETE (R123, step of the device). -/
  | packetComplete (q : BitVec 15) (n : BitVec 16)
  /-- CTX_OPEN (R58, step of the device). -/
  | ctxOpen (c : BitVec 8)
  /-- CTX_SUSPEND (R58, step of the device). -/
  | ctxSuspend (c : BitVec 8)
  /-- CTX_RESUME (R58, step of the device). -/
  | ctxResume (c : BitVec 8)
  /-- CTX_CLOSE (R58, step of the device). -/
  | ctxClose (c : BitVec 8)
  /-- KERNEL_LOAD (R76, step of the device). -/
  | kernelLoad (c : BitVec 8) (kid : BitVec 12)
  /-- KERNEL_LOAD_READ_DONE (R79, step of the device). -/
  | kernelLoadReadDone
  /-- KERNEL_UNLOAD (R76, step of the device). -/
  | kernelUnload (c : BitVec 8) (kid : BitVec 12)
  /-- QUEUE_ENABLE (R115, step of the device). -/
  | queueEnable (q : BitVec 15)
  /-- QUEUE_DISABLE (R115, step of the device). -/
  | queueDisable (q : BitVec 15)
  /-- QUEUE_PAUSE (R115, step of the device). -/
  | queuePause (q : BitVec 15)
  /-- QUEUE_RESUME (R115, step of the device). -/
  | queueResume (q : BitVec 15)
  /-- QUEUE_RESET (R115, step of the device). -/
  | queueReset (q : BitVec 15)
  /-- QDB (R116, step of the device). -/
  | qdb (q : BitVec 15) (tail : BitVec 16)
  /-- GINTV (R125, step of the device). -/
  | gintv (v : BitVec 64)
  /-- PROMA (R302, step of the device). -/
  | proma (v : BitVec 64)
  /-- PROMOTE_REQUEST (R301, step of the device). -/
  | promoteRequest (h : BitVec 64) (line : BitVec 45) (c : BitVec 8) (src : BitVec 7) (tag : BitVec 16)
  /-- PROMOTION (R299, step of the device). -/
  | promotion (h : BitVec 64)
  /-- ILCMD_INVALIDATE_PAGE (R323, step of the device). -/
  | ilcmdInvalidatePage (c : BitVec 8) (va : BitVec 41) (sync : BitVec 1)
  /-- ILCMD_INVALIDATE_CONTEXT (R323, step of the device). -/
  | ilcmdInvalidateContext (c : BitVec 8) (sync : BitVec 1)
  /-- ILCMD_INVALIDATE_ALL (R323, step of the device). -/
  | ilcmdInvalidateAll (sync : BitVec 1)
  /-- ILCMD_SYNC (R323, step of the device). -/
  | ilcmdSync
  /-- INVALIDATION_APPEND (R321, step of the device). -/
  | invalidationAppend (kind : BitVec 2) (c : BitVec 8) (va : BitVec 41)
  /-- PAGE_WALK (R317, step of the device). -/
  | pageWalk (core : BitVec 7) (c : BitVec 8) (va : BitVec 64)
  /-- MIGH (R326, step of the device). -/
  | migh (v : BitVec 64)
  /-- MIGRATION_STEP (R327, step of the device). -/
  | migrationStep (e : BitVec 1) (n : BitVec 4)
  /-- FTCCFG (R282, step of the device). -/
  | ftccfg (n : BitVec 2) (v : BitVec 64)
  /-- FTC_CHANGE_DONE (R282, step of the device). -/
  | ftcChangeDone (n : BitVec 2)
  /-- ATTADDR (R366, step of the device). -/
  | attaddr (v : BitVec 64)
  /-- ATTESTATION_REPORT_DONE (R366, step of the device). -/
  | attestationReportDone (rep : List (BitVec 8))
  /-- FIBMODE_APPLY (R368, step of the device). -/
  | fibmodeApply (port : BitVec 1)
  /-- ROUTE_WRITE (R339, step of the device). -/
  | routeWrite (n : BitVec 6) (v : BitVec 64)
  /-- HOST_REGISTER_WRITE (R368, step of the device). -/
  | hostRegisterWrite (off : BitVec 12) (v : BitVec 64)
  /-- HOST_MEMORY_READ (R306, step of the device). -/
  | hostMemoryRead (pa : BitVec 52) (n : BitVec 8)
  /-- HOST_MEMORY_WRITE (R306, step of the device). -/
  | hostMemoryWrite (pa : BitVec 52) (bytes : List (BitVec 8))
  /-- WRITE_QUEUE_REQUEST (R276, step of the device). -/
  | writeQueueRequest (n : BitVec 2)
  /-- CACHE_FILL (R271, step of the device). -/
  | cacheFill (l2 : BitVec 1) (unit : BitVec 7) (line victim : BitVec 45)
  /-- REFRESH (R278, step of the device). -/
  | refresh (stack : BitVec 4) (row : BitVec 40)
  /-- BANK_FILL_DONE (R192, step of the device). -/
  | bankFillDone (core : BitVec 7) (bank : BitVec 5)
  /-- BANK_WRITEBACK_DONE (R192, step of the device). -/
  | bankWritebackDone (core : BitVec 7) (bank : BitVec 5)
  /-- PACKAGE_RESET (R363, step of the device). -/
  | packageReset (modid : BitVec 6) (cxl : BitVec 8) (fibre : BitVec 4) (sigs : BitVec 2)
  /-- FUNCTION_READY (R367, step of the device). -/
  | functionReady (f : BitVec 8)
  /-- FUNCTION_RESTORE (R367, step of the device). -/
  | functionRestore (f : BitVec 8)
  /-- MANAGEMENT_INSTALL (R363, step of the device). -/
  | managementInstall (serial : BitVec 64) (neigh : List (BitVec 7))
  /-- POWER_LIMIT_THROTTLE (R370, step of the device). -/
  | powerLimitThrottle
  /-- CORE_FAULT (R335, step of the device). -/
  | coreFault (core : BitVec 7) (unreadable : List (BitVec 64))
  /-- SPARE_TAKEOVER_DONE (R335, step of the device). -/
  | spareTakeoverDone (die : BitVec 4)
  /-- CORRECTABLE_ERROR (R334, step of the device). -/
  | correctableError (u : BitVec 8) (idx : BitVec 16) (count : BitVec 32)
  /-- STORAGE_LOST (R334, step of the device). -/
  | storageLost (far : BitVec 1) (idx : BitVec 4)
  /-- LINK_TRAINED (R340, step of the device). -/
  | linkTrained (n : BitVec 4) (waves : BitVec 5) (neighbour : BitVec 6)
  /-- LINK_TRAINING_FAILED (R340, step of the device). -/
  | linkTrainingFailed (n : BitVec 4)
  /-- WAVELENGTH_LOST (R340, step of the device). -/
  | wavelengthLost (n : BitVec 4)
  /-- LIGHT_LOST (R340, step of the device). -/
  | lightLost (n : BitVec 4)
  /-- LINK_MANAGEMENT_RESET (R340, step of the device). -/
  | linkManagementReset (n : BitVec 4)
  /-- FLIT_RECEIVE (R343, step of the device). -/
  | flitReceive (n : BitVec 4) (flit : BitVec 512)
  /-- NAK_RECEIVE (R343, step of the device). -/
  | nakReceive (n : BitVec 4) (seq : BitVec 12)
  /-- ACK_TIMEOUT (R343, step of the device). -/
  | ackTimeout (n : BitVec 4)
  /-- REROUTE_RESEND (R345, step of the device). -/
  | rerouteResend (m : BitVec 6)
  /-- REMOTE_REQUEST (R346, step of the device). -/
  | remoteRequest (p : Packet)
  /-- REMOTE_REPLY (R346, step of the device). -/
  | remoteReply (p : Packet)
  /-- COLLECTIVE_MATCH (R352, step of the device). -/
  | collectiveMatch (cg : BitVec 8) (seq : BitVec 32) (posts : List (BitVec 64 × BitVec 64))
  /-- COLLECTIVE_MATCH_TIMEOUT (R352, step of the device). -/
  | collectiveMatchTimeout (cg : BitVec 8) (seq : BitVec 32)
  /-- COLLECTIVE_BUCKET_START (R353, step of the device). -/
  | collectiveBucketStart (cg : BitVec 8) (seq b : BitVec 32)
  /-- COLLECTIVE_BUCKET_DONE (R353, step of the device). -/
  | collectiveBucketDone (cg : BitVec 8) (seq b : BitVec 32) (xs : List (List (BitVec 32)))
  /-- COLLECTIVE_FAILURE (R357, step of the device). -/
  | collectiveFailure (cg : BitVec 8) (seq : BitVec 32) (cause : BitVec 8) (m : BitVec 6)
  /-- GANG_READY_RECEIVED (R360, step of the device). -/
  | gangReadyReceived (g : BitVec 32) (m : BitVec 6)
  /-- GANG_COMMIT_RECEIVED (R360, step of the device). -/
  | gangCommitReceived (g : BitVec 32)
  /-- GANG_ABORT_RECEIVED (R362, step of the device). -/
  | gangAbortReceived (g : BitVec 32) (lacked : BitVec 6)
  /-- GANG_QUERY_RECEIVED (R360, step of the device). -/
  | gangQueryReceived (g : BitVec 32) (m : BitVec 6)
  /-- GANG_LEADER_TIMEOUT (R360, step of the device). -/
  | gangLeaderTimeout (g : BitVec 32)
  /-- GANG_QUERY_TIMEOUT (R360, step of the device). -/
  | gangQueryTimeout (g : BitVec 32)
  /-- GANG_ANSWER_TIMEOUT (R360, step of the device). -/
  | gangAnswerTimeout (g : BitVec 32)
  /-- LINK_LIGHT_DETECTED (R340, step of the device). -/
  | linkLightDetected (n : BitVec 4)
  /-- GANG_DECISION_EXPIRY (R360, step of the device). -/
  | gangDecisionExpiry (g : BitVec 32)
  /-- L2_REDUCTION_APPLIED (R148, step of the device). -/
  | l2ReductionApplied (die : BitVec 4)
  /-- INTERRUPT_PACKET (R125, step of the device). -/
  | interruptPacket (h : BitVec 64) (v : BitVec 32) (c : BitVec 8) (src : BitVec 6) (tag : BitVec 16)
  /-- SESSION_CONTROL_FLIT (R205, step of the device). -/
  | sessionControlFlit (str : BitVec 3) (kind : BitVec 2) (member : BitVec 14) (key : BitVec 6) (c : BitVec 8) (fields : BitVec 64)
  /-- FAR_WRITE_COMPLETION (R285, step of the device). -/
  | farWriteCompletion (line : BitVec 45)
deriving DecidableEq, Repr

end Sys2Proof
end

