-- ==== Sys2Proof/WellFormed.lean ====
section
/-! DEFINITION. Which field values of a word are instructions: the reserved values, forbidden destinations and
RSV fields that depend on another field (R40, R43, R46, R48 and the entries cited). The RSV fields that do not
depend on another field are no part of a constructor: `Decode.lean` refuses a word that sets one. -/

namespace Sys2Proof

/-- Scopes 0 to 4 are assigned (Table 3-2). -/
def scopeAny (s : BitVec 3) : Bool := decide (s.toNat ≤ 4)
/-- `ldfe` and `stfe` admit job and core scope (R195). -/
def scopeJobCore (s : BitVec 3) : Bool := decide (s.toNat ≤ 1)
/-- `ld.acqp` admits device and fabric scope (R300). -/
def scopeDevFab (s : BitVec 3) : Bool := decide (s.toNat = 3) || decide (s.toNat = 4)
/-- `bar.*` admits scopes 0 to 3 (R312). -/
def barScope (s : BitVec 3) : Bool := decide (s.toNat ≤ 3)
/-- Table 8-5 for `atom.*`: AOP 0-7, TYPE 0-4, no bitwise operation on `f32`. -/
def atomOk (o : BitVec 4) (t : BitVec 3) : Bool :=
  decide (o.toNat ≤ 7) && decide (t.toNat ≤ 4) &&
    !(decide (t.toNat = 4) && (decide (o.toNat = 1) || decide (o.toNat = 2) || decide (o.toNat = 3)))
/-- Table 8-5 for `red.*`: as `atom.*` without `exch` and `cas`. -/
def redOk (o : BitVec 4) (t : BitVec 3) : Bool := atomOk o t && decide (o.toNat ≤ 5)
/-- A token list names a peer and a count of at least 1 (R106). -/
def tokListOk (v m c : BitVec 1) (n : BitVec 6) : Bool :=
  (decide (v ≠ 0#1) || decide (m ≠ 0#1) || decide (c ≠ 0#1)) && decide (n ≠ 0#6)
/-- Numbers of Table 4-6. -/
def sysReadable (r : BitVec 9) : Bool :=
  let n := r.toNat
  decide (n ≤ 4) || (decide (8 ≤ n) && decide (n ≤ 0xD)) || (decide (0x10 ≤ n) && decide (n ≤ 0x15)) ||
    (decide (0x18 ≤ n) && decide (n ≤ 0x1B)) || (decide (0x20 ≤ n) && decide (n ≤ 0x22)) ||
    decide (n = 0x24) || (decide (0x28 ≤ n) && decide (n ≤ 0x2B))
/-- Numbers of Table 4-6 that `sysw` may name: those not marked R (R70; `fmtcur` is read only). -/
def sysWritable (r : BitVec 9) : Bool :=
  let n := r.toNat
  decide (n = 0x11) || decide (n = 0x12) || decide (n = 0x15) || (decide (0x18 ≤ n) && decide (n ≤ 0x1B)) ||
    (decide (0x20 ≤ n) && decide (n ≤ 0x22)) || (decide (0x28 ≤ n) && decide (n ≤ 0x2B))
/-- Loop levels 0 to 5 (R89). -/
def lvlOk (l : BitVec 3) : Bool := decide (l.toNat ≤ 5)
/-- A two-bit selector whose value 3 is reserved (R161, R176, R224). -/
def sel3Ok (t : BitVec 2) : Bool := decide (t.toNat ≠ 3)
/-- `k0` is no destination (R48). -/
def maskDst (x : BitVec 3) : Bool := decide (x ≠ 0#3)
/-- FN4 of `vcmp`: type 3 has only `uno` and `ord` (R172). -/
def vcmpOk (t c : BitVec 2) : Bool := decide (t.toNat ≠ 3) || decide (c.toNat ≤ 1)
/-- The functions of Table 9-4. -/
def cvtOk (f : BitVec 7) : Bool := decide (f.toNat ≤ 12) || (decide (16 ≤ f.toNat) && decide (f.toNat ≤ 31))
/-- An address pair starts at an even vector register (R182). -/
def evenV (a : BitVec 5) : Bool := decide (a.toNat % 2 = 0)
/-- A pair of copy address registers starts at an even register (R256, R258, R260). -/
def evenC (a : BitVec 4) : Bool := decide (a.toNat % 2 = 0)
/-- MF 3 is reserved (R43). -/
def rowsOk (m : BitVec 2) : Bool := decide (m.toNat ≠ 3)
/-- Field codes of `mdset`; `clr` has IMM12 RSV (R234). -/
def mdFieldOk (f : BitVec 4) (i : BitVec 12) : Bool :=
  decide (f.toNat ≤ 6) || (decide (f.toNat = 7) && decide (i = 0#12))
/-- RSV fields of `mjoin` by role (R222). -/
def joinOk (s : BitVec 3) (r : BitVec 2) (k : BitVec 6) (v : BitVec 2) : Bool :=
  (decide (r.toNat ≠ 2) || (decide (s = 0#3) && decide (k = 0#6))) && (decide (r.toNat ≠ 1) || decide (v = 0#2))
/-- Registers that `mocfg` may stage, and its RSV bits (R225, Table 11-1). -/
def ocfgOk (o : BitVec 6) (t : BitVec 2) (i : BitVec 12) : Bool :=
  (decide (o.toNat ≤ 3) || (decide (8 ≤ o.toNat) && decide (o.toNat ≤ 15))) &&
    (decide (t.toNat ≠ 2) || decide (i.toNat < 256))
/-- Operands of `mstat` (R226). -/
def mstatOk (o : BitVec 6) (s : BitVec 3) (m : BitVec 4) : Bool :=
  decide (8 ≤ o.toNat) && decide (o.toNat ≤ 15) && decide (m.toNat ≤ 3) && (decide (2 ≤ m.toNat) || decide (s = 0#3))
/-- BAND 0 is reserved (R200). -/
def bandOk (n : BitVec 4) : Bool := decide (n ≠ 0#4)
/-- A flags byte sets only flags that the command admits (R249, Table 13-1). -/
def flagsOk (f : BitVec 8) (admitted : BitVec 8) : Bool := decide (f &&& ~~~admitted = 0#8)

/-- A word is well formed when every field holds a value that the row's entry admits (R40, R43, R46, R48).
A step of the device (a row without a word) carries no encoded field and is always well formed. -/
def WellFormed (i : Instr) : Bool :=
  match i with
  | .add .. => true
  | .sub .. => true
  | .and .. => true
  | .or .. => true
  | .xor .. => true
  | .andn .. => true
  | .shl .. => true
  | .shrN .. => true
  | .shrI .. => true
  | .cmpltI .. => true
  | .cmpltN .. => true
  | .minI .. => true
  | .maxI .. => true
  | .minN .. => true
  | .maxN .. => true
  | .mul .. => true
  | .mulhiI .. => true
  | .mulhiN .. => true
  | .quoI .. => true
  | .quoN .. => true
  | .rmdI .. => true
  | .rmdN .. => true
  | .sel .. => true
  | .clz .. => true
  | .ctz .. => true
  | .popc .. => true
  | .bswap .. => true
  | .addi .. => true
  | .andi .. => true
  | .ori .. => true
  | .xori .. => true
  | .cmpltiI .. => true
  | .cmpltiN .. => true
  | .shli .. => true
  | .shriN .. => true
  | .shriI .. => true
  | .immLo .. => true
  | .immCat .. => true
  | .pcadd .. => true
  | .nop => true
  | .beq .. => true
  | .bne .. => true
  | .bltI .. => true
  | .bgeI .. => true
  | .bltN .. => true
  | .bgeN .. => true
  | .jmp .. => true
  | .jmpr .. => true
  | .ldI8 .. => true
  | .ldN8 .. => true
  | .ldI16 .. => true
  | .ldN16 .. => true
  | .ldI32 .. => true
  | .ldN32 .. => true
  | .ldI64 .. => true
  | .stI8 .. => true
  | .stI16 .. => true
  | .stI32 .. => true
  | .stI64 .. => true
  | .ldlI32 .. => true
  | .ldlI64 .. => true
  | .stlI32 .. => true
  | .stlI64 .. => true
  | .ldAcq _ _ s _ => scopeAny s
  | .stRel _ _ s _ => scopeAny s
  | .ldAcqp _ _ s _ => scopeDevFab s
  | .fence s => scopeAny s
  | .fenceRel s => scopeAny s
  | .fenceAcq s => scopeAny s
  | .atom _ _ s _ o t => scopeAny s && atomOk o t
  | .red _ s _ o t => scopeAny s && redOk o t
  | .ldfe _ _ s _ => scopeJobCore s
  | .stfe _ _ s _ => scopeJobCore s
  | .clineWb .. => true
  | .clineInv .. => true
  | .clineWbi .. => true
  | .clineZero .. => true
  | .ftcWb .. => true
  | .ftcInv .. => true
  | .ftcWbi .. => true
  | .ftcProbe .. => true
  | .bmodeReset .. => true
  | .bmodeEmpty .. => true
  | .bmodeFull .. => true
  | .bmodeQuery .. => true
  | .tlbInv .. => true
  | .tlbInvall .. => true
  | .tlbSync => true
  | .pgProbe .. => true
  | .pgMig .. => true
  | .toksend v m c n => tokListOk v m c n
  | .tokwait v m c n => tokListOk v m c n
  | .fmtq .. => true
  | .endS => true
  | .rend i => decide (i ≠ 0xFFFF#16)
  | .exit .. => true
  | .launch .. => true
  | .sigAdd .. => true
  | .sigSet .. => true
  | .sigWait .. => true
  | .sigInt .. => true
  | .hintSave .. => true
  | .trap .. => true
  | .rett => true
  | .sysr _ r => sysReadable r
  | .sysw _ r => sysWritable r
  | .barInit .. => true
  | .barReg .. => true
  | .barArr _ _ s => barScope s
  | .barWait _ _ _ s => barScope s
  | .barArd _ s => barScope s
  | .barPub .. => true
  | .barAtt .. => true
  | .barRarr _ _ _ s => barScope s
  | .barRdlo .. => true
  | .barRdhi .. => true
  | .loopBeg l _ => lvlOk l
  | .loopFirst l _ => lvlOk l
  | .loopLast l _ => lvlOk l
  | .loopIdx _ l => lvlOk l
  | .loopIterationEnd => true
  | .vadd _ _ _ _ _ _ t => sel3Ok t
  | .vsub _ _ _ _ _ _ t => sel3Ok t
  | .vmul _ _ _ _ _ _ t => sel3Ok t
  | .vfma _ _ _ _ _ _ t => sel3Ok t
  | .vfms _ _ _ _ _ _ t => sel3Ok t
  | .vmin _ _ _ _ _ _ t => sel3Ok t
  | .vmax _ _ _ _ _ _ t => sel3Ok t
  | .vaddInteger .. => true
  | .vsubInteger .. => true
  | .vmulInteger .. => true
  | .vmulh .. => true
  | .vminInteger .. => true
  | .vmaxInteger .. => true
  | .vand .. => true
  | .vor .. => true
  | .vxor .. => true
  | .vshl .. => true
  | .vshr .. => true
  | .vsra .. => true
  | .vaddi .. => true
  | .vandi .. => true
  | .vshli .. => true
  | .vshri .. => true
  | .vcmp _ _ x _ _ _ t c => maskDst x && vcmpOk t c
  | .kand _ _ x _ _ => maskDst x
  | .kor _ _ x _ _ => maskDst x
  | .kxor _ _ x _ _ => maskDst x
  | .kandn _ _ x _ _ => maskDst x
  | .kmov _ _ x _ => maskDst x
  | .knot _ _ x _ => maskDst x
  | .kpush _ _ x _ => maskDst x
  | .kpop _ _ x => maskDst x
  | .kelse _ _ x => maskDst x
  | .vbrAny .. => true
  | .vbrAll .. => true
  | .vbrNone .. => true
  | .vj .. => true
  | .vcvt _ _ _ _ _ f => cvtOk f
  | .vquant .. => true
  | .vexp2 .. => true
  | .vlog2 .. => true
  | .vrcp .. => true
  | .vrsqrt .. => true
  | .vsin .. => true
  | .vcos .. => true
  | .vtanh .. => true
  | .vradd _ _ _ _ _ t => sel3Ok t
  | .vrmax _ _ _ _ _ t => sel3Ok t
  | .vrmin _ _ _ _ _ t => sel3Ok t
  | .vrmaxi _ _ _ _ _ t => sel3Ok t
  | .vperm .. => true
  | .vshuf .. => true
  | .vrot .. => true
  | .vzip .. => true
  | .vsel .. => true
  | .vli .. => true
  | .vlih .. => true
  | .vmov .. => true
  | .vlane .. => true
  | .vld _ _ _ a _ _ => evenV a
  | .vst _ _ _ a _ _ => evenV a
  | .vgather _ _ _ a _ _ => evenV a
  | .vscatter _ _ _ a _ _ => evenV a
  | .vlut .. => true
  | .vrescale .. => true
  | .vaccCol .. => true
  | .vaccColz .. => true
  | .vaccRow .. => true
  | .vaccRowz .. => true
  | .vaccWcol .. => true
  | .vaccAcol .. => true
  | .vldfe .. => true
  | .vstfe .. => true
  | .loopBegXn l _ => lvlOk l
  | .loopFirstXn l _ => lvlOk l
  | .loopLastXn l _ => lvlOk l
  | .rendXn _ _ i => decide (i ≠ 0xFFFF#16)
  | .endXn .. => true
  | .nopXn .. => true
  | .mtile _ _ _ m _ _ _ => rowsOk m
  | .mbcast .. => true
  | .mtileT _ _ _ m _ _ _ => rowsOk m
  | .msync .. => true
  | .mdset _ _ _ f i => mdFieldOk f i
  | .mdadd .. => true
  | .mdmov .. => true
  | .mdld .. => true
  | .mjoin _ _ s r k v => joinOk s r k v
  | .mleave .. => true
  | .mcal _ _ _ r => sel3Ok r
  | .mocfg _ _ o t i => ocfgOk o t i
  | .mstat _ _ o s m => mstatOk o s m
  | .maccAlloc .. => true
  | .maccFree .. => true
  | .maccZero _ _ n _ => bandOk n
  | .maccShare .. => true
  | .maccAttach _ _ n _ _ => bandOk n
  | .cpy _ _ _ _ _ f => flagsOk f 0xC3
  | .cpyS _ _ x y _ f => flagsOk f 0xC3 && evenC x && evenC y
  | .ctld _ _ _ _ z f => flagsOk f 0xC0 && evenC z
  | .ctst _ _ _ _ z f => flagsOk f 0x80 && evenC z
  | .cgath _ _ x _ _ f => flagsOk f 0xE0 && evenC x
  | .cscat _ _ x _ _ f => flagsOk f 0xA0 && evenC x
  | .cwalk _ _ _ _ _ f => flagsOk f 0xC0
  | .czero _ _ _ _ f => flagsOk f 0xC1
  | .cfill _ _ _ _ _ f => flagsOk f 0xC1
  | .cbarIn .. => true
  | .cbarOut .. => true
  | .cbarArr .. => true
  | .csigAdd .. => true
  | .csigSet .. => true
  | .ccoll .. => true
  | .cpref .. => true
  | .caLi .. => true
  | .caLih .. => true
  | .caAddi .. => true
  | .caAdd .. => true
  | .caMov .. => true
  | .chLd .. => true
  | .chSt .. => true
  | .vectorResultWrite .. => true
  | .vldChecksDecided .. => true
  | .vldReplay .. => true
  | .latchWrite .. => true
  | .vectorElement .. => true
  | .vquantGroup .. => true
  | .copyElement .. => true
  | .tileCommandStart .. => true
  | .frameStart .. => true
  | .sessionTimeout .. => true
  | .tileElement .. => true
  | .joinAdmitted .. => true
  | .combFailoverDone .. => true
  | .calibrationDone .. => true
  | .streamEnded .. => true
  | .trapDelivery .. => true
  | .asyncFaultDelivery .. => true
  | .preemptionDeadline .. => true
  | .groupSave .. => true
  | .groupRetire .. => true
  | .packetTake .. => true
  | .parameterBlockRead .. => true
  | .groupDispatch => true
  | .spillExpiry .. => true
  | .packetComplete .. => true
  | .ctxOpen .. => true
  | .ctxSuspend .. => true
  | .ctxResume .. => true
  | .ctxClose .. => true
  | .kernelLoad .. => true
  | .kernelLoadReadDone => true
  | .kernelUnload .. => true
  | .queueEnable .. => true
  | .queueDisable .. => true
  | .queuePause .. => true
  | .queueResume .. => true
  | .queueReset .. => true
  | .qdb .. => true
  | .gintv .. => true
  | .proma .. => true
  | .promoteRequest .. => true
  | .promotion .. => true
  | .ilcmdInvalidatePage .. => true
  | .ilcmdInvalidateContext .. => true
  | .ilcmdInvalidateAll .. => true
  | .ilcmdSync => true
  | .invalidationAppend .. => true
  | .pageWalk .. => true
  | .migh .. => true
  | .migrationStep .. => true
  | .ftccfg .. => true
  | .ftcChangeDone .. => true
  | .attaddr .. => true
  | .attestationReportDone .. => true
  | .fibmodeApply .. => true
  | .routeWrite .. => true
  | .hostRegisterWrite .. => true
  | .hostMemoryRead .. => true
  | .hostMemoryWrite .. => true
  | .writeQueueRequest .. => true
  | .cacheFill .. => true
  | .refresh .. => true
  | .bankFillDone .. => true
  | .bankWritebackDone .. => true
  | .packageReset .. => true
  | .functionReady .. => true
  | .functionRestore .. => true
  | .managementInstall .. => true
  | .powerLimitThrottle => true
  | .coreFault .. => true
  | .spareTakeoverDone .. => true
  | .correctableError .. => true
  | .storageLost .. => true
  | .linkTrained .. => true
  | .linkTrainingFailed .. => true
  | .wavelengthLost .. => true
  | .lightLost .. => true
  | .linkManagementReset .. => true
  | .flitReceive .. => true
  | .nakReceive .. => true
  | .ackTimeout .. => true
  | .rerouteResend .. => true
  | .remoteRequest .. => true
  | .remoteReply .. => true
  | .collectiveMatch .. => true
  | .collectiveMatchTimeout .. => true
  | .collectiveBucketStart .. => true
  | .collectiveBucketDone .. => true
  | .collectiveFailure .. => true
  | .gangReadyReceived .. => true
  | .gangCommitReceived .. => true
  | .gangAbortReceived .. => true
  | .gangQueryReceived .. => true
  | .gangLeaderTimeout .. => true
  | .gangQueryTimeout .. => true
  | .gangAnswerTimeout .. => true
  | .linkLightDetected .. => true
  | .gangDecisionExpiry .. => true
  | .l2ReductionApplied .. => true
  | .interruptPacket .. => true
  | .sessionControlFlit .. => true
  | .farWriteCompletion .. => true

end Sys2Proof
end

