-- ==== Sys2Proof/Decode.lean ====
section
/-! DEFINITION. The decoder, total on every word and in every stream, and after it the encoder, both written from
the formats of Tables 3-1 to 3-9 and the owning entries. A word is refused by name: `primary` when its stream does
not assign the primary, `function` when no row has its function bits and zero RSV bits, `reserved` when a field holds
a reserved value. Each of these raises ILLEGAL when the stream would issue the word (R46). -/

namespace Sys2Proof

/-- Bits `lo + n - 1` down to `lo` of a word read as a number. -/
def bits (w lo n : Nat) : Nat := w / 2 ^ lo % 2 ^ n

/-- The same bits as a field of `n` bits. -/
def fld (w lo n : Nat) : BitVec n := BitVec.ofNat n (w / 2 ^ lo)

/-- Why a word is not an instruction of a stream (R46). -/
inductive DecodeErr where
  /-- The primary opcode is unassigned in the stream (Tables 3-6 to 3-9). -/
  | primary
  /-- An unassigned function or selector value, or a nonzero RSV bit. -/
  | function
  /-- A reserved field value or a forbidden destination that the entry names. -/
  | reserved
deriving DecidableEq, Repr

/-- Scalar words (Table 3-6): the row whose fixed bits the word has. -/
def rawS (w : Nat) : Option Instr :=
  match bits w 25 7 with
  | 1 =>
    match bits w 0 10 with
    | 0 => some (.add (fld w 20 5) (fld w 15 5) (fld w 10 5))
    | 1 => some (.sub (fld w 20 5) (fld w 15 5) (fld w 10 5))
    | 2 => some (.and (fld w 20 5) (fld w 15 5) (fld w 10 5))
    | 3 => some (.or (fld w 20 5) (fld w 15 5) (fld w 10 5))
    | 4 => some (.xor (fld w 20 5) (fld w 15 5) (fld w 10 5))
    | 5 => some (.andn (fld w 20 5) (fld w 15 5) (fld w 10 5))
    | 6 => some (.shl (fld w 20 5) (fld w 15 5) (fld w 10 5))
    | 7 => some (.shrN (fld w 20 5) (fld w 15 5) (fld w 10 5))
    | 8 => some (.shrI (fld w 20 5) (fld w 15 5) (fld w 10 5))
    | 9 => some (.cmpltI (fld w 20 5) (fld w 15 5) (fld w 10 5))
    | 10 => some (.cmpltN (fld w 20 5) (fld w 15 5) (fld w 10 5))
    | 11 => some (.minI (fld w 20 5) (fld w 15 5) (fld w 10 5))
    | 12 => some (.maxI (fld w 20 5) (fld w 15 5) (fld w 10 5))
    | 13 => some (.minN (fld w 20 5) (fld w 15 5) (fld w 10 5))
    | 14 => some (.maxN (fld w 20 5) (fld w 15 5) (fld w 10 5))
    | _ => none
  | 2 =>
    match bits w 0 10 with
    | 0 => some (.mul (fld w 20 5) (fld w 15 5) (fld w 10 5))
    | 1 => some (.mulhiI (fld w 20 5) (fld w 15 5) (fld w 10 5))
    | 2 => some (.mulhiN (fld w 20 5) (fld w 15 5) (fld w 10 5))
    | 3 => some (.quoI (fld w 20 5) (fld w 15 5) (fld w 10 5))
    | 4 => some (.quoN (fld w 20 5) (fld w 15 5) (fld w 10 5))
    | 5 => some (.rmdI (fld w 20 5) (fld w 15 5) (fld w 10 5))
    | 6 => some (.rmdN (fld w 20 5) (fld w 15 5) (fld w 10 5))
    | _ => none
  | 3 =>
    if bits w 0 5 = 0 then some (.sel (fld w 20 5) (fld w 15 5) (fld w 10 5) (fld w 5 5))
    else if bits w 0 15 = 1 then some (.clz (fld w 20 5) (fld w 15 5))
    else if bits w 0 15 = 2 then some (.ctz (fld w 20 5) (fld w 15 5))
    else if bits w 0 15 = 3 then some (.popc (fld w 20 5) (fld w 15 5))
    else if bits w 0 15 = 4 then some (.bswap (fld w 20 5) (fld w 15 5))
    else none
  | 4 => some (.addi (fld w 20 5) (fld w 15 5) (fld w 0 15))
  | 5 => some (.andi (fld w 20 5) (fld w 15 5) (fld w 0 15))
  | 6 => some (.ori (fld w 20 5) (fld w 15 5) (fld w 0 15))
  | 7 => some (.xori (fld w 20 5) (fld w 15 5) (fld w 0 15))
  | 8 =>
    match bits w 6 9 with
    | 0 => some (.shli (fld w 20 5) (fld w 15 5) (fld w 0 6))
    | 128 => some (.shriN (fld w 20 5) (fld w 15 5) (fld w 0 6))
    | 256 => some (.shriI (fld w 20 5) (fld w 15 5) (fld w 0 6))
    | _ => none
  | 9 => some (.cmpltiI (fld w 20 5) (fld w 15 5) (fld w 0 15))
  | 10 => some (.cmpltiN (fld w 20 5) (fld w 15 5) (fld w 0 15))
  | 11 => some (.immLo (fld w 20 5) (fld w 0 20))
  | 12 => some (.immCat (fld w 20 5) (fld w 0 20))
  | 13 => some (.pcadd (fld w 20 5) (fld w 0 20))
  | 14 =>
    match bits w 0 25 with
    | 0 => some (.nop)
    | _ => none
  | 16 => some (.beq (fld w 20 5) (fld w 15 5) (fld w 0 15))
  | 17 => some (.bne (fld w 20 5) (fld w 15 5) (fld w 0 15))
  | 18 => some (.bltI (fld w 20 5) (fld w 15 5) (fld w 0 15))
  | 19 => some (.bgeI (fld w 20 5) (fld w 15 5) (fld w 0 15))
  | 20 => some (.bltN (fld w 20 5) (fld w 15 5) (fld w 0 15))
  | 21 => some (.bgeN (fld w 20 5) (fld w 15 5) (fld w 0 15))
  | 22 => some (.jmp (fld w 20 5) (fld w 0 20))
  | 23 => some (.jmpr (fld w 20 5) (fld w 15 5) (fld w 0 15))
  | 24 =>
    match bits w 12 3 with
    | 0 => some (.ldI8 (fld w 20 5) (fld w 15 5) (fld w 0 12))
    | _ => none
  | 25 =>
    match bits w 12 3 with
    | 0 => some (.ldN8 (fld w 20 5) (fld w 15 5) (fld w 0 12))
    | _ => none
  | 26 =>
    match bits w 12 3 with
    | 0 => some (.ldI16 (fld w 20 5) (fld w 15 5) (fld w 0 12))
    | _ => none
  | 27 =>
    match bits w 12 3 with
    | 0 => some (.ldN16 (fld w 20 5) (fld w 15 5) (fld w 0 12))
    | _ => none
  | 28 =>
    match bits w 12 3 with
    | 0 => some (.ldI32 (fld w 20 5) (fld w 15 5) (fld w 0 12))
    | _ => none
  | 29 =>
    match bits w 12 3 with
    | 0 => some (.ldN32 (fld w 20 5) (fld w 15 5) (fld w 0 12))
    | _ => none
  | 30 =>
    match bits w 12 3 with
    | 0 => some (.ldI64 (fld w 20 5) (fld w 15 5) (fld w 0 12))
    | _ => none
  | 32 =>
    match bits w 12 3 with
    | 0 => some (.stI8 (fld w 20 5) (fld w 15 5) (fld w 0 12))
    | _ => none
  | 33 =>
    match bits w 12 3 with
    | 0 => some (.stI16 (fld w 20 5) (fld w 15 5) (fld w 0 12))
    | _ => none
  | 34 =>
    match bits w 12 3 with
    | 0 => some (.stI32 (fld w 20 5) (fld w 15 5) (fld w 0 12))
    | _ => none
  | 35 =>
    match bits w 12 3 with
    | 0 => some (.stI64 (fld w 20 5) (fld w 15 5) (fld w 0 12))
    | _ => none
  | 36 =>
    match bits w 12 3 with
    | 0 => some (.ldlI32 (fld w 20 5) (fld w 15 5) (fld w 0 12))
    | _ => none
  | 37 =>
    match bits w 12 3 with
    | 0 => some (.ldlI64 (fld w 20 5) (fld w 15 5) (fld w 0 12))
    | _ => none
  | 38 =>
    match bits w 12 3 with
    | 0 => some (.stlI32 (fld w 20 5) (fld w 15 5) (fld w 0 12))
    | _ => none
  | 39 =>
    match bits w 12 3 with
    | 0 => some (.stlI64 (fld w 20 5) (fld w 15 5) (fld w 0 12))
    | _ => none
  | 40 => some (.ldAcq (fld w 20 5) (fld w 15 5) (fld w 12 3) (fld w 0 12))
  | 41 => some (.stRel (fld w 20 5) (fld w 15 5) (fld w 12 3) (fld w 0 12))
  | 42 =>
    match bits w 0 7 with
    | 0 => some (.ldAcqp (fld w 20 5) (fld w 15 5) (fld w 12 3) (fld w 7 5))
    | _ => none
  | 43 =>
    if bits w 15 10 = 0 ∧ bits w 0 12 = 0 then some (.fence (fld w 12 3))
    else if bits w 15 10 = 0 ∧ bits w 0 12 = 1 then some (.fenceRel (fld w 12 3))
    else if bits w 15 10 = 0 ∧ bits w 0 12 = 2 then some (.fenceAcq (fld w 12 3))
    else none
  | 44 => some (.atom (fld w 20 5) (fld w 15 5) (fld w 12 3) (fld w 7 5) (fld w 3 4) (fld w 0 3))
  | 45 =>
    match bits w 20 5 with
    | 0 => some (.red (fld w 15 5) (fld w 12 3) (fld w 7 5) (fld w 3 4) (fld w 0 3))
    | _ => none
  | 46 => some (.ldfe (fld w 20 5) (fld w 15 5) (fld w 12 3) (fld w 0 12))
  | 47 => some (.stfe (fld w 20 5) (fld w 15 5) (fld w 12 3) (fld w 0 12))
  | 48 =>
    if bits w 20 5 = 0 ∧ bits w 3 7 = 0 ∧ bits w 0 2 = 0 then some (.clineWb (fld w 15 5) (fld w 10 5) (fld w 2 1))
    else if bits w 20 5 = 0 ∧ bits w 3 7 = 0 ∧ bits w 0 2 = 1 then some (.clineInv (fld w 15 5) (fld w 10 5) (fld w 2 1))
    else if bits w 20 5 = 0 ∧ bits w 3 7 = 0 ∧ bits w 0 2 = 2 then some (.clineWbi (fld w 15 5) (fld w 10 5) (fld w 2 1))
    else if bits w 20 5 = 0 ∧ bits w 0 10 = 7 then some (.clineZero (fld w 15 5) (fld w 10 5))
    else none
  | 49 =>
    if bits w 20 5 = 0 ∧ bits w 0 10 = 0 then some (.ftcWb (fld w 15 5) (fld w 10 5))
    else if bits w 20 5 = 0 ∧ bits w 0 10 = 1 then some (.ftcInv (fld w 15 5) (fld w 10 5))
    else if bits w 20 5 = 0 ∧ bits w 0 10 = 2 then some (.ftcWbi (fld w 15 5) (fld w 10 5))
    else if bits w 0 15 = 3 then some (.ftcProbe (fld w 20 5) (fld w 15 5))
    else none
  | 50 =>
    if bits w 20 5 = 0 ∧ bits w 0 15 = 0 then some (.bmodeReset (fld w 15 5))
    else if bits w 20 5 = 0 ∧ bits w 0 10 = 1 then some (.bmodeEmpty (fld w 15 5) (fld w 10 5))
    else if bits w 20 5 = 0 ∧ bits w 0 10 = 2 then some (.bmodeFull (fld w 15 5) (fld w 10 5))
    else if bits w 0 15 = 3 then some (.bmodeQuery (fld w 20 5) (fld w 15 5))
    else none
  | 51 =>
    if bits w 0 15 = 0 then some (.tlbInv (fld w 20 5) (fld w 15 5))
    else if bits w 0 20 = 1 then some (.tlbInvall (fld w 20 5))
    else if bits w 0 25 = 2 then some (.tlbSync)
    else if bits w 0 15 = 3 then some (.pgProbe (fld w 20 5) (fld w 15 5))
    else if bits w 0 15 = 4 then some (.pgMig (fld w 20 5) (fld w 15 5))
    else none
  | 52 =>
    if bits w 20 5 = 0 ∧ bits w 6 11 = 0 then some (.toksend (fld w 19 1) (fld w 18 1) (fld w 17 1) (fld w 0 6))
    else none
  | 53 =>
    if bits w 20 5 = 0 ∧ bits w 6 11 = 0 then some (.tokwait (fld w 19 1) (fld w 18 1) (fld w 17 1) (fld w 0 6))
    else none
  | 54 =>
    if bits w 20 5 = 0 ∧ bits w 0 15 = 0 then some (.fmtq (fld w 15 5))
    else none
  | 55 =>
    match bits w 0 25 with
    | 0 => some (.endS)
    | _ => none
  | 56 =>
    match bits w 16 9 with
    | 0 => some (.rend (fld w 0 16))
    | _ => none
  | 57 =>
    match bits w 16 9 with
    | 0 => some (.exit (fld w 0 16))
    | _ => none
  | 58 =>
    match bits w 0 10 with
    | 0 => some (.launch (fld w 20 5) (fld w 15 5) (fld w 10 5))
    | _ => none
  | 59 =>
    match bits w 0 10 with
    | 0 => some (.sigAdd (fld w 20 5) (fld w 15 5) (fld w 10 5))
    | 1 => some (.sigSet (fld w 20 5) (fld w 15 5) (fld w 10 5))
    | 2 => some (.sigWait (fld w 20 5) (fld w 15 5) (fld w 10 5))
    | 3 => some (.sigInt (fld w 20 5) (fld w 15 5) (fld w 10 5))
    | _ => none
  | 60 => some (.hintSave (fld w 20 5) (fld w 0 20))
  | 61 =>
    match bits w 16 9 with
    | 0 => some (.trap (fld w 0 16))
    | _ => none
  | 62 =>
    match bits w 0 25 with
    | 0 => some (.rett)
    | _ => none
  | 63 =>
    if bits w 9 11 = 0 then some (.sysr (fld w 20 5) (fld w 0 9))
    else if bits w 20 5 = 0 ∧ bits w 9 6 = 1 then some (.sysw (fld w 15 5) (fld w 0 9))
    else none
  | 64 =>
    if bits w 20 5 = 0 ∧ bits w 0 10 = 0 then some (.barInit (fld w 15 5) (fld w 10 5))
    else if bits w 20 5 = 0 ∧ bits w 0 15 = 1 then some (.barReg (fld w 15 5))
    else if bits w 10 5 = 0 ∧ bits w 0 7 = 2 then some (.barArr (fld w 20 5) (fld w 15 5) (fld w 7 3))
    else if bits w 0 7 = 3 then some (.barWait (fld w 20 5) (fld w 15 5) (fld w 10 5) (fld w 7 3))
    else if bits w 20 5 = 0 ∧ bits w 10 5 = 0 ∧ bits w 0 7 = 4 then some (.barArd (fld w 15 5) (fld w 7 3))
    else if bits w 20 5 = 0 ∧ bits w 0 10 = 5 then some (.barPub (fld w 15 5) (fld w 10 5))
    else if bits w 20 5 = 0 ∧ bits w 0 10 = 6 then some (.barAtt (fld w 15 5) (fld w 10 5))
    else if bits w 0 7 = 7 then some (.barRarr (fld w 20 5) (fld w 15 5) (fld w 10 5) (fld w 7 3))
    else if bits w 0 15 = 8 then some (.barRdlo (fld w 20 5) (fld w 15 5))
    else if bits w 0 15 = 9 then some (.barRdhi (fld w 20 5) (fld w 15 5))
    else none
  | 68 =>
    if bits w 16 9 = 0 ∧ bits w 8 5 = 0 then some (.loopBeg (fld w 13 3) (fld w 0 8))
    else if bits w 16 9 = 1 ∧ bits w 4 9 = 0 then some (.loopFirst (fld w 13 3) (fld w 0 4))
    else if bits w 16 9 = 2 ∧ bits w 4 9 = 0 then some (.loopLast (fld w 13 3) (fld w 0 4))
    else if bits w 16 4 = 3 ∧ bits w 0 13 = 0 then some (.loopIdx (fld w 20 5) (fld w 13 3))
    else none
  | _ => none

/-- Words of primaries 0x3C to 0x3F, the same in the V, M and C streams (R43, R89). -/
def rawXn (w : Nat) : Option Instr :=
  match bits w 26 6 with
  | 60 =>
    if bits w 16 10 = 0 ∧ bits w 8 5 = 0 then some (.loopBegXn (fld w 13 3) (fld w 0 8))
    else if bits w 16 10 = 1 ∧ bits w 4 9 = 0 then some (.loopFirstXn (fld w 13 3) (fld w 0 4))
    else if bits w 16 10 = 2 ∧ bits w 4 9 = 0 then some (.loopLastXn (fld w 13 3) (fld w 0 4))
    else none
  | 61 =>
    match bits w 16 4 with
    | 0 => some (.rendXn (fld w 23 3) (fld w 20 3) (fld w 0 16))
    | _ => none
  | 62 =>
    match bits w 0 20 with
    | 0 => some (.endXn (fld w 23 3) (fld w 20 3))
    | _ => none
  | 63 =>
    match bits w 0 20 with
    | 0 => some (.nopXn (fld w 23 3) (fld w 20 3))
    | _ => none
  | _ => none

/-- Vector words (Table 3-7). -/
def rawV (w : Nat) : Option Instr :=
  match bits w 26 6 with
  | 1 => some (.vadd (fld w 23 3) (fld w 20 3) (fld w 15 5) (fld w 10 5) (fld w 5 5) (fld w 2 3) (fld w 0 2))
  | 2 => some (.vsub (fld w 23 3) (fld w 20 3) (fld w 15 5) (fld w 10 5) (fld w 5 5) (fld w 2 3) (fld w 0 2))
  | 3 => some (.vmul (fld w 23 3) (fld w 20 3) (fld w 15 5) (fld w 10 5) (fld w 5 5) (fld w 2 3) (fld w 0 2))
  | 4 => some (.vfma (fld w 23 3) (fld w 20 3) (fld w 15 5) (fld w 10 5) (fld w 5 5) (fld w 2 3) (fld w 0 2))
  | 5 => some (.vfms (fld w 23 3) (fld w 20 3) (fld w 15 5) (fld w 10 5) (fld w 5 5) (fld w 2 3) (fld w 0 2))
  | 6 => some (.vmin (fld w 23 3) (fld w 20 3) (fld w 15 5) (fld w 10 5) (fld w 5 5) (fld w 2 3) (fld w 0 2))
  | 7 => some (.vmax (fld w 23 3) (fld w 20 3) (fld w 15 5) (fld w 10 5) (fld w 5 5) (fld w 2 3) (fld w 0 2))
  | 8 => some (.vaddInteger (fld w 23 3) (fld w 20 3) (fld w 15 5) (fld w 10 5) (fld w 5 5) (fld w 2 3) (fld w 0 2))
  | 9 => some (.vsubInteger (fld w 23 3) (fld w 20 3) (fld w 15 5) (fld w 10 5) (fld w 5 5) (fld w 2 3) (fld w 0 2))
  | 10 => some (.vmulInteger (fld w 23 3) (fld w 20 3) (fld w 15 5) (fld w 10 5) (fld w 5 5) (fld w 2 3) (fld w 0 2))
  | 11 => some (.vmulh (fld w 23 3) (fld w 20 3) (fld w 15 5) (fld w 10 5) (fld w 5 5) (fld w 2 3) (fld w 0 2))
  | 12 => some (.vminInteger (fld w 23 3) (fld w 20 3) (fld w 15 5) (fld w 10 5) (fld w 5 5) (fld w 2 3) (fld w 0 2))
  | 13 => some (.vmaxInteger (fld w 23 3) (fld w 20 3) (fld w 15 5) (fld w 10 5) (fld w 5 5) (fld w 2 3) (fld w 0 2))
  | 14 =>
    match bits w 0 2 with
    | 0 => some (.vand (fld w 23 3) (fld w 20 3) (fld w 15 5) (fld w 10 5) (fld w 5 5) (fld w 2 3))
    | _ => none
  | 15 =>
    match bits w 0 2 with
    | 0 => some (.vor (fld w 23 3) (fld w 20 3) (fld w 15 5) (fld w 10 5) (fld w 5 5) (fld w 2 3))
    | _ => none
  | 16 =>
    match bits w 0 2 with
    | 0 => some (.vxor (fld w 23 3) (fld w 20 3) (fld w 15 5) (fld w 10 5) (fld w 5 5) (fld w 2 3))
    | _ => none
  | 17 =>
    match bits w 0 2 with
    | 0 => some (.vshl (fld w 23 3) (fld w 20 3) (fld w 15 5) (fld w 10 5) (fld w 5 5) (fld w 2 3))
    | _ => none
  | 18 =>
    match bits w 0 2 with
    | 0 => some (.vshr (fld w 23 3) (fld w 20 3) (fld w 15 5) (fld w 10 5) (fld w 5 5) (fld w 2 3))
    | _ => none
  | 19 =>
    match bits w 0 2 with
    | 0 => some (.vsra (fld w 23 3) (fld w 20 3) (fld w 15 5) (fld w 10 5) (fld w 5 5) (fld w 2 3))
    | _ => none
  | 20 => some (.vaddi (fld w 23 3) (fld w 20 3) (fld w 15 5) (fld w 10 5) (fld w 7 3) (fld w 0 7))
  | 21 => some (.vandi (fld w 23 3) (fld w 20 3) (fld w 15 5) (fld w 10 5) (fld w 7 3) (fld w 0 7))
  | 22 =>
    match bits w 5 2 with
    | 0 => some (.vshli (fld w 23 3) (fld w 20 3) (fld w 15 5) (fld w 10 5) (fld w 7 3) (fld w 0 5))
    | _ => none
  | 23 =>
    match bits w 5 2 with
    | 0 => some (.vshri (fld w 23 3) (fld w 20 3) (fld w 15 5) (fld w 10 5) (fld w 7 3) (fld w 0 5))
    | _ => none
  | 24 => some (.vcmp (fld w 23 3) (fld w 20 3) (fld w 17 3) (fld w 12 5) (fld w 7 5) (fld w 4 3) (fld w 2 2) (fld w 0 2))
  | 25 =>
    if bits w 10 7 = 0 ∧ bits w 0 4 = 0 then some (.kand (fld w 23 3) (fld w 20 3) (fld w 17 3) (fld w 7 3) (fld w 4 3))
    else if bits w 10 7 = 0 ∧ bits w 0 4 = 1 then some (.kor (fld w 23 3) (fld w 20 3) (fld w 17 3) (fld w 7 3) (fld w 4 3))
    else if bits w 10 7 = 0 ∧ bits w 0 4 = 2 then some (.kxor (fld w 23 3) (fld w 20 3) (fld w 17 3) (fld w 7 3) (fld w 4 3))
    else if bits w 10 7 = 0 ∧ bits w 0 4 = 3 then some (.kandn (fld w 23 3) (fld w 20 3) (fld w 17 3) (fld w 7 3) (fld w 4 3))
    else if bits w 7 10 = 0 ∧ bits w 0 4 = 4 then some (.kmov (fld w 23 3) (fld w 20 3) (fld w 17 3) (fld w 4 3))
    else if bits w 7 10 = 0 ∧ bits w 0 4 = 5 then some (.knot (fld w 23 3) (fld w 20 3) (fld w 17 3) (fld w 4 3))
    else none
  | 26 =>
    if bits w 7 10 = 0 ∧ bits w 0 4 = 0 then some (.kpush (fld w 23 3) (fld w 20 3) (fld w 17 3) (fld w 4 3))
    else if bits w 0 17 = 1 then some (.kpop (fld w 23 3) (fld w 20 3) (fld w 17 3))
    else if bits w 0 17 = 2 then some (.kelse (fld w 23 3) (fld w 20 3) (fld w 17 3))
    else none
  | 27 =>
    if bits w 15 2 = 0 then some (.vbrAny (fld w 23 3) (fld w 20 3) (fld w 17 3) (fld w 0 15))
    else if bits w 15 2 = 1 then some (.vbrAll (fld w 23 3) (fld w 20 3) (fld w 17 3) (fld w 0 15))
    else if bits w 15 2 = 2 then some (.vbrNone (fld w 23 3) (fld w 20 3) (fld w 17 3) (fld w 0 15))
    else if bits w 15 5 = 3 then some (.vj (fld w 23 3) (fld w 20 3) (fld w 0 15))
    else none
  | 28 => some (.vcvt (fld w 23 3) (fld w 20 3) (fld w 15 5) (fld w 10 5) (fld w 7 3) (fld w 0 7))
  | 29 =>
    match bits w 4 3 with
    | 0 => some (.vquant (fld w 23 3) (fld w 20 3) (fld w 15 5) (fld w 10 5) (fld w 7 3) (fld w 3 1) (fld w 0 3))
    | _ => none
  | 30 =>
    match bits w 0 7 with
    | 0 => some (.vexp2 (fld w 23 3) (fld w 20 3) (fld w 15 5) (fld w 10 5) (fld w 7 3))
    | 1 => some (.vlog2 (fld w 23 3) (fld w 20 3) (fld w 15 5) (fld w 10 5) (fld w 7 3))
    | 2 => some (.vrcp (fld w 23 3) (fld w 20 3) (fld w 15 5) (fld w 10 5) (fld w 7 3))
    | 3 => some (.vrsqrt (fld w 23 3) (fld w 20 3) (fld w 15 5) (fld w 10 5) (fld w 7 3))
    | 4 => some (.vsin (fld w 23 3) (fld w 20 3) (fld w 15 5) (fld w 10 5) (fld w 7 3))
    | 5 => some (.vcos (fld w 23 3) (fld w 20 3) (fld w 15 5) (fld w 10 5) (fld w 7 3))
    | 6 => some (.vtanh (fld w 23 3) (fld w 20 3) (fld w 15 5) (fld w 10 5) (fld w 7 3))
    | _ => none
  | 31 =>
    if bits w 4 3 = 0 ∧ bits w 0 2 = 0 then some (.vradd (fld w 23 3) (fld w 20 3) (fld w 15 5) (fld w 10 5) (fld w 7 3) (fld w 2 2))
    else if bits w 4 3 = 0 ∧ bits w 0 2 = 1 then some (.vrmax (fld w 23 3) (fld w 20 3) (fld w 15 5) (fld w 10 5) (fld w 7 3) (fld w 2 2))
    else if bits w 4 3 = 0 ∧ bits w 0 2 = 2 then some (.vrmin (fld w 23 3) (fld w 20 3) (fld w 15 5) (fld w 10 5) (fld w 7 3) (fld w 2 2))
    else if bits w 4 3 = 0 ∧ bits w 0 2 = 3 then some (.vrmaxi (fld w 23 3) (fld w 20 3) (fld w 15 5) (fld w 10 5) (fld w 7 3) (fld w 2 2))
    else none
  | 32 =>
    match bits w 0 2 with
    | 0 => some (.vperm (fld w 23 3) (fld w 20 3) (fld w 15 5) (fld w 10 5) (fld w 5 5) (fld w 2 3))
    | 1 => some (.vshuf (fld w 23 3) (fld w 20 3) (fld w 15 5) (fld w 10 5) (fld w 5 5) (fld w 2 3))
    | 2 => some (.vrot (fld w 23 3) (fld w 20 3) (fld w 15 5) (fld w 10 5) (fld w 5 5) (fld w 2 3))
    | 3 => some (.vzip (fld w 23 3) (fld w 20 3) (fld w 15 5) (fld w 10 5) (fld w 5 5) (fld w 2 3))
    | _ => none
  | 33 =>
    match bits w 0 2 with
    | 0 => some (.vsel (fld w 23 3) (fld w 20 3) (fld w 15 5) (fld w 10 5) (fld w 5 5) (fld w 2 3))
    | _ => none
  | 34 => some (.vli (fld w 23 3) (fld w 20 3) (fld w 15 5) (fld w 0 15))
  | 35 => some (.vlih (fld w 23 3) (fld w 20 3) (fld w 15 5) (fld w 0 15))
  | 36 =>
    if bits w 0 7 = 0 then some (.vmov (fld w 23 3) (fld w 20 3) (fld w 15 5) (fld w 10 5) (fld w 7 3))
    else if bits w 6 1 = 1 then some (.vlane (fld w 23 3) (fld w 20 3) (fld w 15 5) (fld w 10 5) (fld w 7 3) (fld w 0 6))
    else none
  | 40 => some (.vld (fld w 23 3) (fld w 20 3) (fld w 15 5) (fld w 10 5) (fld w 7 3) (fld w 0 7))
  | 41 => some (.vst (fld w 23 3) (fld w 20 3) (fld w 15 5) (fld w 10 5) (fld w 7 3) (fld w 0 7))
  | 42 => some (.vgather (fld w 23 3) (fld w 20 3) (fld w 15 5) (fld w 10 5) (fld w 7 3) (fld w 0 7))
  | 43 => some (.vscatter (fld w 23 3) (fld w 20 3) (fld w 15 5) (fld w 10 5) (fld w 7 3) (fld w 0 7))
  | 44 => some (.vlut (fld w 23 3) (fld w 20 3) (fld w 15 5) (fld w 10 5) (fld w 7 3) (fld w 0 7))
  | 45 =>
    match bits w 5 2 with
    | 0 => some (.vrescale (fld w 23 3) (fld w 20 3) (fld w 15 5) (fld w 10 5) (fld w 7 3) (fld w 0 5))
    | _ => none
  | 48 =>
    match bits w 0 7 with
    | 0 => some (.vaccCol (fld w 23 3) (fld w 20 3) (fld w 15 5) (fld w 10 5) (fld w 7 3))
    | 1 => some (.vaccColz (fld w 23 3) (fld w 20 3) (fld w 15 5) (fld w 10 5) (fld w 7 3))
    | 2 => some (.vaccRow (fld w 23 3) (fld w 20 3) (fld w 15 5) (fld w 10 5) (fld w 7 3))
    | 3 => some (.vaccRowz (fld w 23 3) (fld w 20 3) (fld w 15 5) (fld w 10 5) (fld w 7 3))
    | 4 => some (.vaccWcol (fld w 23 3) (fld w 20 3) (fld w 15 5) (fld w 10 5) (fld w 7 3))
    | 5 => some (.vaccAcol (fld w 23 3) (fld w 20 3) (fld w 15 5) (fld w 10 5) (fld w 7 3))
    | _ => none
  | 49 => some (.vldfe (fld w 23 3) (fld w 20 3) (fld w 15 5) (fld w 10 5) (fld w 7 3) (fld w 0 7))
  | 50 => some (.vstfe (fld w 23 3) (fld w 20 3) (fld w 15 5) (fld w 10 5) (fld w 7 3) (fld w 0 7))
  | _ => none

/-- Matrix words (Table 3-8). -/
def rawM (w : Nat) : Option Instr :=
  match bits w 26 6 with
  | 1 => some (.mtile (fld w 23 3) (fld w 20 3) (fld w 14 6) (fld w 12 2) (fld w 8 4) (fld w 4 4) (fld w 0 4))
  | 2 =>
    if bits w 12 2 = 0 ∧ bits w 0 4 = 0 then some (.mbcast (fld w 23 3) (fld w 20 3) (fld w 14 6) (fld w 8 4) (fld w 4 4))
    else none
  | 3 => some (.mtileT (fld w 23 3) (fld w 20 3) (fld w 14 6) (fld w 12 2) (fld w 8 4) (fld w 4 4) (fld w 0 4))
  | 4 =>
    match bits w 0 20 with
    | 0 => some (.msync (fld w 23 3) (fld w 20 3))
    | _ => none
  | 8 => some (.mdset (fld w 23 3) (fld w 20 3) (fld w 16 4) (fld w 12 4) (fld w 0 12))
  | 9 => some (.mdadd (fld w 23 3) (fld w 20 3) (fld w 16 4) (fld w 12 4) (fld w 0 12))
  | 10 =>
    match bits w 0 12 with
    | 0 => some (.mdmov (fld w 23 3) (fld w 20 3) (fld w 16 4) (fld w 12 4))
    | _ => none
  | 11 => some (.mdld (fld w 23 3) (fld w 20 3) (fld w 16 4) (fld w 12 4) (fld w 0 12))
  | 16 =>
    match bits w 0 7 with
    | 0 => some (.mjoin (fld w 23 3) (fld w 20 3) (fld w 17 3) (fld w 15 2) (fld w 9 6) (fld w 7 2))
    | _ => none
  | 17 =>
    match bits w 0 20 with
    | 0 => some (.mleave (fld w 23 3) (fld w 20 3))
    | _ => none
  | 18 =>
    match bits w 0 15 with
    | 0 => some (.mcal (fld w 23 3) (fld w 20 3) (fld w 17 3) (fld w 15 2))
    | _ => none
  | 19 => some (.mocfg (fld w 23 3) (fld w 20 3) (fld w 14 6) (fld w 12 2) (fld w 0 12))
  | 20 =>
    match bits w 7 7 with
    | 0 => some (.mstat (fld w 23 3) (fld w 20 3) (fld w 14 6) (fld w 4 3) (fld w 0 4))
    | _ => none
  | 24 =>
    if bits w 4 16 = 0 then some (.maccAlloc (fld w 23 3) (fld w 20 3) (fld w 0 4))
    else if bits w 4 16 = 4096 then some (.maccFree (fld w 23 3) (fld w 20 3) (fld w 0 4))
    else if bits w 8 12 = 512 then some (.maccZero (fld w 23 3) (fld w 20 3) (fld w 4 4) (fld w 0 4))
    else if bits w 10 10 = 192 then some (.maccShare (fld w 23 3) (fld w 20 3) (fld w 4 6) (fld w 0 4))
    else if bits w 14 6 = 16 then some (.maccAttach (fld w 23 3) (fld w 20 3) (fld w 10 4) (fld w 4 6) (fld w 0 4))
    else none
  | _ => none

/-- Copy words (Table 3-9). -/
def rawC (w : Nat) : Option Instr :=
  match bits w 26 6 with
  | 1 => some (.cpy (fld w 23 3) (fld w 20 3) (fld w 16 4) (fld w 12 4) (fld w 8 4) (fld w 0 8))
  | 2 => some (.cpyS (fld w 23 3) (fld w 20 3) (fld w 16 4) (fld w 12 4) (fld w 8 4) (fld w 0 8))
  | 3 => some (.ctld (fld w 23 3) (fld w 20 3) (fld w 16 4) (fld w 12 4) (fld w 8 4) (fld w 0 8))
  | 4 => some (.ctst (fld w 23 3) (fld w 20 3) (fld w 16 4) (fld w 12 4) (fld w 8 4) (fld w 0 8))
  | 5 => some (.cgath (fld w 23 3) (fld w 20 3) (fld w 16 4) (fld w 12 4) (fld w 8 4) (fld w 0 8))
  | 6 => some (.cscat (fld w 23 3) (fld w 20 3) (fld w 16 4) (fld w 12 4) (fld w 8 4) (fld w 0 8))
  | 7 => some (.cwalk (fld w 23 3) (fld w 20 3) (fld w 16 4) (fld w 12 4) (fld w 8 4) (fld w 0 8))
  | 8 =>
    match bits w 12 4 with
    | 0 => some (.czero (fld w 23 3) (fld w 20 3) (fld w 16 4) (fld w 8 4) (fld w 0 8))
    | _ => none
  | 9 => some (.cfill (fld w 23 3) (fld w 20 3) (fld w 16 4) (fld w 12 4) (fld w 8 4) (fld w 0 8))
  | 10 =>
    if bits w 8 8 = 0 then some (.cbarIn (fld w 23 3) (fld w 20 3) (fld w 16 4) (fld w 0 8))
    else if bits w 8 8 = 16 then some (.cbarOut (fld w 23 3) (fld w 20 3) (fld w 16 4) (fld w 0 8))
    else if bits w 8 12 = 32 then some (.cbarArr (fld w 23 3) (fld w 20 3) (fld w 0 8))
    else none
  | 11 =>
    match bits w 0 12 with
    | 0 => some (.csigAdd (fld w 23 3) (fld w 20 3) (fld w 16 4) (fld w 12 4))
    | 1 => some (.csigSet (fld w 23 3) (fld w 20 3) (fld w 16 4) (fld w 12 4))
    | _ => none
  | 12 =>
    if bits w 12 4 = 0 ∧ bits w 0 8 = 0 then some (.ccoll (fld w 23 3) (fld w 20 3) (fld w 16 4) (fld w 8 4))
    else none
  | 13 =>
    if bits w 12 4 = 0 ∧ bits w 0 8 = 0 then some (.cpref (fld w 23 3) (fld w 20 3) (fld w 16 4) (fld w 8 4))
    else none
  | 16 => some (.caLi (fld w 23 3) (fld w 20 3) (fld w 16 4) (fld w 0 16))
  | 17 => some (.caLih (fld w 23 3) (fld w 20 3) (fld w 16 4) (fld w 0 16))
  | 18 => some (.caAddi (fld w 23 3) (fld w 20 3) (fld w 16 4) (fld w 0 16))
  | 19 =>
    if bits w 0 8 = 0 then some (.caAdd (fld w 23 3) (fld w 20 3) (fld w 16 4) (fld w 12 4) (fld w 8 4))
    else if bits w 0 12 = 1 then some (.caMov (fld w 23 3) (fld w 20 3) (fld w 16 4) (fld w 12 4))
    else none
  | 20 =>
    match bits w 8 4 with
    | 0 => some (.chLd (fld w 23 3) (fld w 20 3) (fld w 16 4) (fld w 12 4) (fld w 0 8))
    | _ => none
  | 21 =>
    match bits w 8 4 with
    | 0 => some (.chSt (fld w 23 3) (fld w 20 3) (fld w 16 4) (fld w 12 4) (fld w 0 8))
    | _ => none
  | _ => none

/-- The row that a word names in a stream, before the reserved field values are refused. -/
def rawRow (st : Stream) (w : Nat) : Option Instr :=
  match st with
  | .s => rawS w
  | .v => (rawV w).or (rawXn w)
  | .m => (rawM w).or (rawXn w)
  | .c => (rawC w).or (rawXn w)

/-- The primaries that a stream assigns (Tables 3-6 to 3-9). -/
def primaryAssigned (st : Stream) (w : Nat) : Bool :=
  let s := bits w 25 7
  let p := bits w 26 6
  match st with
  | .s => (decide (1 ≤ s) && decide (s ≤ 0x0E)) || (decide (0x10 ≤ s) && decide (s ≤ 0x1E)) ||
      (decide (0x20 ≤ s) && decide (s ≤ 0x40)) || decide (s = 0x44)
  | .v => (decide (1 ≤ p) && decide (p ≤ 0x24)) || (decide (0x28 ≤ p) && decide (p ≤ 0x2D)) ||
      (decide (0x30 ≤ p) && decide (p ≤ 0x32)) || decide (0x3C ≤ p)
  | .m => (decide (1 ≤ p) && decide (p ≤ 4)) || (decide (8 ≤ p) && decide (p ≤ 0xB)) ||
      (decide (0x10 ≤ p) && decide (p ≤ 0x14)) || decide (p = 0x18) || decide (0x3C ≤ p)
  | .c => (decide (1 ≤ p) && decide (p ≤ 0xD)) || (decide (0x10 ≤ p) && decide (p ≤ 0x15)) || decide (0x3C ≤ p)

/-- The instruction that a word is in a stream (R38, R44, R46). The check is made on the word as issued, after any
patch (R49). -/
def decode (st : Stream) (w : W32) : Except DecodeErr Instr :=
  match rawRow st w.toNat with
  | none => .error (if primaryAssigned st w.toNat then .function else .primary)
  | some i => if WellFormed i then .ok i else .error .reserved

/-- The opcode table does not say which stream a word belongs to, and the four maps overlap: the first of the
scalar, matrix, vector and copy maps that accepts the word is taken (log entry 5). -/
def decodeAny (w : W32) : Option (Stream × Instr) :=
  match decode .s w with
  | .ok i => some (.s, i)
  | .error _ =>
  match decode .m w with
  | .ok i => some (.m, i)
  | .error _ =>
  match decode .v w with
  | .ok i => some (.v, i)
  | .error _ =>
  match decode .c w with
  | .ok i => some (.c, i)
  | .error _ => none

/-- What the decoder reads from a table row's word. Every instruction has one 32-bit word (R37). -/
def decodeTableWord (nbits w : Nat) : Option Instr :=
  if nbits ≤ 32 ∧ w < 2 ^ nbits then (decodeAny (BitVec.ofNat 32 w)).map Prod.snd else none

/-- A field at its place in the word. -/
def put {n : Nat} (x : BitVec n) (lo : Nat) : Nat := x.toNat * 2 ^ lo

/-- The word of an instruction as a number: the fixed bits of its row plus each field at its place. A step of the
device has no word. -/
def encNat (i : Instr) : Option Nat :=
  match i with
  | .add d a b => some (33554432 + put d 20 + put a 15 + put b 10)
  | .sub d a b => some (33554433 + put d 20 + put a 15 + put b 10)
  | .and d a b => some (33554434 + put d 20 + put a 15 + put b 10)
  | .or d a b => some (33554435 + put d 20 + put a 15 + put b 10)
  | .xor d a b => some (33554436 + put d 20 + put a 15 + put b 10)
  | .andn d a b => some (33554437 + put d 20 + put a 15 + put b 10)
  | .shl d a b => some (33554438 + put d 20 + put a 15 + put b 10)
  | .shrN d a b => some (33554439 + put d 20 + put a 15 + put b 10)
  | .shrI d a b => some (33554440 + put d 20 + put a 15 + put b 10)
  | .cmpltI d a b => some (33554441 + put d 20 + put a 15 + put b 10)
  | .cmpltN d a b => some (33554442 + put d 20 + put a 15 + put b 10)
  | .minI d a b => some (33554443 + put d 20 + put a 15 + put b 10)
  | .maxI d a b => some (33554444 + put d 20 + put a 15 + put b 10)
  | .minN d a b => some (33554445 + put d 20 + put a 15 + put b 10)
  | .maxN d a b => some (33554446 + put d 20 + put a 15 + put b 10)
  | .mul d a b => some (67108864 + put d 20 + put a 15 + put b 10)
  | .mulhiI d a b => some (67108865 + put d 20 + put a 15 + put b 10)
  | .mulhiN d a b => some (67108866 + put d 20 + put a 15 + put b 10)
  | .quoI d a b => some (67108867 + put d 20 + put a 15 + put b 10)
  | .quoN d a b => some (67108868 + put d 20 + put a 15 + put b 10)
  | .rmdI d a b => some (67108869 + put d 20 + put a 15 + put b 10)
  | .rmdN d a b => some (67108870 + put d 20 + put a 15 + put b 10)
  | .sel d a b c => some (100663296 + put d 20 + put a 15 + put b 10 + put c 5)
  | .clz d a => some (100663297 + put d 20 + put a 15)
  | .ctz d a => some (100663298 + put d 20 + put a 15)
  | .popc d a => some (100663299 + put d 20 + put a 15)
  | .bswap d a => some (100663300 + put d 20 + put a 15)
  | .addi d a i => some (134217728 + put d 20 + put a 15 + put i 0)
  | .andi d a i => some (167772160 + put d 20 + put a 15 + put i 0)
  | .ori d a i => some (201326592 + put d 20 + put a 15 + put i 0)
  | .xori d a i => some (234881024 + put d 20 + put a 15 + put i 0)
  | .cmpltiI d a i => some (301989888 + put d 20 + put a 15 + put i 0)
  | .cmpltiN d a i => some (335544320 + put d 20 + put a 15 + put i 0)
  | .shli d a s => some (268435456 + put d 20 + put a 15 + put s 0)
  | .shriN d a s => some (268443648 + put d 20 + put a 15 + put s 0)
  | .shriI d a s => some (268451840 + put d 20 + put a 15 + put s 0)
  | .immLo d i => some (369098752 + put d 20 + put i 0)
  | .immCat d i => some (402653184 + put d 20 + put i 0)
  | .pcadd d i => some (436207616 + put d 20 + put i 0)
  | .nop => some (469762048)
  | .beq a b o => some (536870912 + put a 20 + put b 15 + put o 0)
  | .bne a b o => some (570425344 + put a 20 + put b 15 + put o 0)
  | .bltI a b o => some (603979776 + put a 20 + put b 15 + put o 0)
  | .bgeI a b o => some (637534208 + put a 20 + put b 15 + put o 0)
  | .bltN a b o => some (671088640 + put a 20 + put b 15 + put o 0)
  | .bgeN a b o => some (704643072 + put a 20 + put b 15 + put o 0)
  | .jmp d o => some (738197504 + put d 20 + put o 0)
  | .jmpr d a i => some (771751936 + put d 20 + put a 15 + put i 0)
  | .ldI8 d a i => some (805306368 + put d 20 + put a 15 + put i 0)
  | .ldN8 d a i => some (838860800 + put d 20 + put a 15 + put i 0)
  | .ldI16 d a i => some (872415232 + put d 20 + put a 15 + put i 0)
  | .ldN16 d a i => some (905969664 + put d 20 + put a 15 + put i 0)
  | .ldI32 d a i => some (939524096 + put d 20 + put a 15 + put i 0)
  | .ldN32 d a i => some (973078528 + put d 20 + put a 15 + put i 0)
  | .ldI64 d a i => some (1006632960 + put d 20 + put a 15 + put i 0)
  | .stI8 d a i => some (1073741824 + put d 20 + put a 15 + put i 0)
  | .stI16 d a i => some (1107296256 + put d 20 + put a 15 + put i 0)
  | .stI32 d a i => some (1140850688 + put d 20 + put a 15 + put i 0)
  | .stI64 d a i => some (1174405120 + put d 20 + put a 15 + put i 0)
  | .ldlI32 d a i => some (1207959552 + put d 20 + put a 15 + put i 0)
  | .ldlI64 d a i => some (1241513984 + put d 20 + put a 15 + put i 0)
  | .stlI32 d a i => some (1275068416 + put d 20 + put a 15 + put i 0)
  | .stlI64 d a i => some (1308622848 + put d 20 + put a 15 + put i 0)
  | .ldAcq d a s i => some (1342177280 + put d 20 + put a 15 + put s 12 + put i 0)
  | .stRel d a s i => some (1375731712 + put d 20 + put a 15 + put s 12 + put i 0)
  | .ldAcqp d a s b => some (1409286144 + put d 20 + put a 15 + put s 12 + put b 7)
  | .fence s => some (1442840576 + put s 12)
  | .fenceRel s => some (1442840577 + put s 12)
  | .fenceAcq s => some (1442840578 + put s 12)
  | .atom d a s b o t => some (1476395008 + put d 20 + put a 15 + put s 12 + put b 7 + put o 3 + put t 0)
  | .red a s b o t => some (1509949440 + put a 15 + put s 12 + put b 7 + put o 3 + put t 0)
  | .ldfe d a s i => some (1543503872 + put d 20 + put a 15 + put s 12 + put i 0)
  | .stfe d a s i => some (1577058304 + put d 20 + put a 15 + put s 12 + put i 0)
  | .clineWb a b l => some (1610612736 + put a 15 + put b 10 + put l 2)
  | .clineInv a b l => some (1610612737 + put a 15 + put b 10 + put l 2)
  | .clineWbi a b l => some (1610612738 + put a 15 + put b 10 + put l 2)
  | .clineZero a b => some (1610612743 + put a 15 + put b 10)
  | .ftcWb a b => some (1644167168 + put a 15 + put b 10)
  | .ftcInv a b => some (1644167169 + put a 15 + put b 10)
  | .ftcWbi a b => some (1644167170 + put a 15 + put b 10)
  | .ftcProbe d a => some (1644167171 + put d 20 + put a 15)
  | .bmodeReset a => some (1677721600 + put a 15)
  | .bmodeEmpty a b => some (1677721601 + put a 15 + put b 10)
  | .bmodeFull a b => some (1677721602 + put a 15 + put b 10)
  | .bmodeQuery d a => some (1677721603 + put d 20 + put a 15)
  | .tlbInv d a => some (1711276032 + put d 20 + put a 15)
  | .tlbInvall d => some (1711276033 + put d 20)
  | .tlbSync => some (1711276034)
  | .pgProbe d a => some (1711276035 + put d 20 + put a 15)
  | .pgMig d a => some (1711276036 + put d 20 + put a 15)
  | .toksend v m c n => some (1744830464 + put v 19 + put m 18 + put c 17 + put n 0)
  | .tokwait v m c n => some (1778384896 + put v 19 + put m 18 + put c 17 + put n 0)
  | .fmtq a => some (1811939328 + put a 15)
  | .endS => some (1845493760)
  | .rend i => some (1879048192 + put i 0)
  | .exit i => some (1912602624 + put i 0)
  | .launch d a b => some (1946157056 + put d 20 + put a 15 + put b 10)
  | .sigAdd d a b => some (1979711488 + put d 20 + put a 15 + put b 10)
  | .sigSet d a b => some (1979711489 + put d 20 + put a 15 + put b 10)
  | .sigWait d a b => some (1979711490 + put d 20 + put a 15 + put b 10)
  | .sigInt d a b => some (1979711491 + put d 20 + put a 15 + put b 10)
  | .hintSave b i => some (2013265920 + put b 20 + put i 0)
  | .trap i => some (2046820352 + put i 0)
  | .rett => some (2080374784)
  | .sysr d r => some (2113929216 + put d 20 + put r 0)
  | .sysw a r => some (2113929728 + put a 15 + put r 0)
  | .barInit a b => some (2147483648 + put a 15 + put b 10)
  | .barReg a => some (2147483649 + put a 15)
  | .barArr d a s => some (2147483650 + put d 20 + put a 15 + put s 7)
  | .barWait d a b s => some (2147483651 + put d 20 + put a 15 + put b 10 + put s 7)
  | .barArd a s => some (2147483652 + put a 15 + put s 7)
  | .barPub a b => some (2147483653 + put a 15 + put b 10)
  | .barAtt a b => some (2147483654 + put a 15 + put b 10)
  | .barRarr d a b s => some (2147483655 + put d 20 + put a 15 + put b 10 + put s 7)
  | .barRdlo d a => some (2147483656 + put d 20 + put a 15)
  | .barRdhi d a => some (2147483657 + put d 20 + put a 15)
  | .loopBeg l n => some (2281701376 + put l 13 + put n 0)
  | .loopFirst l c => some (2281766912 + put l 13 + put c 0)
  | .loopLast l c => some (2281832448 + put l 13 + put c 0)
  | .loopIdx d l => some (2281897984 + put d 20 + put l 13)
  | .loopIterationEnd => none
  | .vadd p q d a b k t => some (67108864 + put p 23 + put q 20 + put d 15 + put a 10 + put b 5 + put k 2 + put t 0)
  | .vsub p q d a b k t => some (134217728 + put p 23 + put q 20 + put d 15 + put a 10 + put b 5 + put k 2 + put t 0)
  | .vmul p q d a b k t => some (201326592 + put p 23 + put q 20 + put d 15 + put a 10 + put b 5 + put k 2 + put t 0)
  | .vfma p q d a b k t => some (268435456 + put p 23 + put q 20 + put d 15 + put a 10 + put b 5 + put k 2 + put t 0)
  | .vfms p q d a b k t => some (335544320 + put p 23 + put q 20 + put d 15 + put a 10 + put b 5 + put k 2 + put t 0)
  | .vmin p q d a b k t => some (402653184 + put p 23 + put q 20 + put d 15 + put a 10 + put b 5 + put k 2 + put t 0)
  | .vmax p q d a b k t => some (469762048 + put p 23 + put q 20 + put d 15 + put a 10 + put b 5 + put k 2 + put t 0)
  | .vaddInteger p q d a b k t => some (536870912 + put p 23 + put q 20 + put d 15 + put a 10 + put b 5 + put k 2 + put t 0)
  | .vsubInteger p q d a b k t => some (603979776 + put p 23 + put q 20 + put d 15 + put a 10 + put b 5 + put k 2 + put t 0)
  | .vmulInteger p q d a b k t => some (671088640 + put p 23 + put q 20 + put d 15 + put a 10 + put b 5 + put k 2 + put t 0)
  | .vmulh p q d a b k t => some (738197504 + put p 23 + put q 20 + put d 15 + put a 10 + put b 5 + put k 2 + put t 0)
  | .vminInteger p q d a b k t => some (805306368 + put p 23 + put q 20 + put d 15 + put a 10 + put b 5 + put k 2 + put t 0)
  | .vmaxInteger p q d a b k t => some (872415232 + put p 23 + put q 20 + put d 15 + put a 10 + put b 5 + put k 2 + put t 0)
  | .vand p q d a b k => some (939524096 + put p 23 + put q 20 + put d 15 + put a 10 + put b 5 + put k 2)
  | .vor p q d a b k => some (1006632960 + put p 23 + put q 20 + put d 15 + put a 10 + put b 5 + put k 2)
  | .vxor p q d a b k => some (1073741824 + put p 23 + put q 20 + put d 15 + put a 10 + put b 5 + put k 2)
  | .vshl p q d a b k => some (1140850688 + put p 23 + put q 20 + put d 15 + put a 10 + put b 5 + put k 2)
  | .vshr p q d a b k => some (1207959552 + put p 23 + put q 20 + put d 15 + put a 10 + put b 5 + put k 2)
  | .vsra p q d a b k => some (1275068416 + put p 23 + put q 20 + put d 15 + put a 10 + put b 5 + put k 2)
  | .vaddi p q d a k i => some (1342177280 + put p 23 + put q 20 + put d 15 + put a 10 + put k 7 + put i 0)
  | .vandi p q d a k i => some (1409286144 + put p 23 + put q 20 + put d 15 + put a 10 + put k 7 + put i 0)
  | .vshli p q d a k i => some (1476395008 + put p 23 + put q 20 + put d 15 + put a 10 + put k 7 + put i 0)
  | .vshri p q d a k i => some (1543503872 + put p 23 + put q 20 + put d 15 + put a 10 + put k 7 + put i 0)
  | .vcmp p q x a b k t c => some (1610612736 + put p 23 + put q 20 + put x 17 + put a 12 + put b 7 + put k 4 + put t 2 + put c 0)
  | .kand p q x y k => some (1677721600 + put p 23 + put q 20 + put x 17 + put y 7 + put k 4)
  | .kor p q x y k => some (1677721601 + put p 23 + put q 20 + put x 17 + put y 7 + put k 4)
  | .kxor p q x y k => some (1677721602 + put p 23 + put q 20 + put x 17 + put y 7 + put k 4)
  | .kandn p q x y k => some (1677721603 + put p 23 + put q 20 + put x 17 + put y 7 + put k 4)
  | .kmov p q x k => some (1677721604 + put p 23 + put q 20 + put x 17 + put k 4)
  | .knot p q x k => some (1677721605 + put p 23 + put q 20 + put x 17 + put k 4)
  | .kpush p q x k => some (1744830464 + put p 23 + put q 20 + put x 17 + put k 4)
  | .kpop p q x => some (1744830465 + put p 23 + put q 20 + put x 17)
  | .kelse p q x => some (1744830466 + put p 23 + put q 20 + put x 17)
  | .vbrAny p q k o => some (1811939328 + put p 23 + put q 20 + put k 17 + put o 0)
  | .vbrAll p q k o => some (1811972096 + put p 23 + put q 20 + put k 17 + put o 0)
  | .vbrNone p q k o => some (1812004864 + put p 23 + put q 20 + put k 17 + put o 0)
  | .vj p q o => some (1812037632 + put p 23 + put q 20 + put o 0)
  | .vcvt p q d a k f => some (1879048192 + put p 23 + put q 20 + put d 15 + put a 10 + put k 7 + put f 0)
  | .vquant p q d a k m s => some (1946157056 + put p 23 + put q 20 + put d 15 + put a 10 + put k 7 + put m 3 + put s 0)
  | .vexp2 p q d a k => some (2013265920 + put p 23 + put q 20 + put d 15 + put a 10 + put k 7)
  | .vlog2 p q d a k => some (2013265921 + put p 23 + put q 20 + put d 15 + put a 10 + put k 7)
  | .vrcp p q d a k => some (2013265922 + put p 23 + put q 20 + put d 15 + put a 10 + put k 7)
  | .vrsqrt p q d a k => some (2013265923 + put p 23 + put q 20 + put d 15 + put a 10 + put k 7)
  | .vsin p q d a k => some (2013265924 + put p 23 + put q 20 + put d 15 + put a 10 + put k 7)
  | .vcos p q d a k => some (2013265925 + put p 23 + put q 20 + put d 15 + put a 10 + put k 7)
  | .vtanh p q d a k => some (2013265926 + put p 23 + put q 20 + put d 15 + put a 10 + put k 7)
  | .vradd p q d a k t => some (2080374784 + put p 23 + put q 20 + put d 15 + put a 10 + put k 7 + put t 2)
  | .vrmax p q d a k t => some (2080374785 + put p 23 + put q 20 + put d 15 + put a 10 + put k 7 + put t 2)
  | .vrmin p q d a k t => some (2080374786 + put p 23 + put q 20 + put d 15 + put a 10 + put k 7 + put t 2)
  | .vrmaxi p q d a k t => some (2080374787 + put p 23 + put q 20 + put d 15 + put a 10 + put k 7 + put t 2)
  | .vperm p q d a b k => some (2147483648 + put p 23 + put q 20 + put d 15 + put a 10 + put b 5 + put k 2)
  | .vshuf p q d a b k => some (2147483649 + put p 23 + put q 20 + put d 15 + put a 10 + put b 5 + put k 2)
  | .vrot p q d a b k => some (2147483650 + put p 23 + put q 20 + put d 15 + put a 10 + put b 5 + put k 2)
  | .vzip p q d a b k => some (2147483651 + put p 23 + put q 20 + put d 15 + put a 10 + put b 5 + put k 2)
  | .vsel p q d a b k => some (2214592512 + put p 23 + put q 20 + put d 15 + put a 10 + put b 5 + put k 2)
  | .vli p q d i => some (2281701376 + put p 23 + put q 20 + put d 15 + put i 0)
  | .vlih p q d i => some (2348810240 + put p 23 + put q 20 + put d 15 + put i 0)
  | .vmov p q d a k => some (2415919104 + put p 23 + put q 20 + put d 15 + put a 10 + put k 7)
  | .vlane p q d a k n => some (2415919168 + put p 23 + put q 20 + put d 15 + put a 10 + put k 7 + put n 0)
  | .vld p q d a k o => some (2684354560 + put p 23 + put q 20 + put d 15 + put a 10 + put k 7 + put o 0)
  | .vst p q d a k o => some (2751463424 + put p 23 + put q 20 + put d 15 + put a 10 + put k 7 + put o 0)
  | .vgather p q d a k o => some (2818572288 + put p 23 + put q 20 + put d 15 + put a 10 + put k 7 + put o 0)
  | .vscatter p q d a k o => some (2885681152 + put p 23 + put q 20 + put d 15 + put a 10 + put k 7 + put o 0)
  | .vlut p q d a k o => some (2952790016 + put p 23 + put q 20 + put d 15 + put a 10 + put k 7 + put o 0)
  | .vrescale p q d a k t => some (3019898880 + put p 23 + put q 20 + put d 15 + put a 10 + put k 7 + put t 0)
  | .vaccCol p q d a k => some (3221225472 + put p 23 + put q 20 + put d 15 + put a 10 + put k 7)
  | .vaccColz p q d a k => some (3221225473 + put p 23 + put q 20 + put d 15 + put a 10 + put k 7)
  | .vaccRow p q d a k => some (3221225474 + put p 23 + put q 20 + put d 15 + put a 10 + put k 7)
  | .vaccRowz p q d a k => some (3221225475 + put p 23 + put q 20 + put d 15 + put a 10 + put k 7)
  | .vaccWcol p q d a k => some (3221225476 + put p 23 + put q 20 + put d 15 + put a 10 + put k 7)
  | .vaccAcol p q d a k => some (3221225477 + put p 23 + put q 20 + put d 15 + put a 10 + put k 7)
  | .vldfe p q d a k o => some (3288334336 + put p 23 + put q 20 + put d 15 + put a 10 + put k 7 + put o 0)
  | .vstfe p q d a k o => some (3355443200 + put p 23 + put q 20 + put d 15 + put a 10 + put k 7 + put o 0)
  | .loopBegXn l n => some (4026531840 + put l 13 + put n 0)
  | .loopFirstXn l c => some (4026597376 + put l 13 + put c 0)
  | .loopLastXn l c => some (4026662912 + put l 13 + put c 0)
  | .rendXn p q i => some (4093640704 + put p 23 + put q 20 + put i 0)
  | .endXn p q => some (4160749568 + put p 23 + put q 20)
  | .nopXn p q => some (4227858432 + put p 23 + put q 20)
  | .mtile p q n m a b c => some (67108864 + put p 23 + put q 20 + put n 14 + put m 12 + put a 8 + put b 4 + put c 0)
  | .mbcast p q n a b => some (134217728 + put p 23 + put q 20 + put n 14 + put a 8 + put b 4)
  | .mtileT p q n m a b c => some (201326592 + put p 23 + put q 20 + put n 14 + put m 12 + put a 8 + put b 4 + put c 0)
  | .msync p q => some (268435456 + put p 23 + put q 20)
  | .mdset p q d f i => some (536870912 + put p 23 + put q 20 + put d 16 + put f 12 + put i 0)
  | .mdadd p q d s i => some (603979776 + put p 23 + put q 20 + put d 16 + put s 12 + put i 0)
  | .mdmov p q d s => some (671088640 + put p 23 + put q 20 + put d 16 + put s 12)
  | .mdld p q d s i => some (738197504 + put p 23 + put q 20 + put d 16 + put s 12 + put i 0)
  | .mjoin p q s r k v => some (1073741824 + put p 23 + put q 20 + put s 17 + put r 15 + put k 9 + put v 7)
  | .mleave p q => some (1140850688 + put p 23 + put q 20)
  | .mcal p q s r => some (1207959552 + put p 23 + put q 20 + put s 17 + put r 15)
  | .mocfg p q o t i => some (1275068416 + put p 23 + put q 20 + put o 14 + put t 12 + put i 0)
  | .mstat p q o s m => some (1342177280 + put p 23 + put q 20 + put o 14 + put s 4 + put m 0)
  | .maccAlloc p q b => some (1610612736 + put p 23 + put q 20 + put b 0)
  | .maccFree p q b => some (1610678272 + put p 23 + put q 20 + put b 0)
  | .maccZero p q n b => some (1610743808 + put p 23 + put q 20 + put n 4 + put b 0)
  | .maccShare p q k b => some (1610809344 + put p 23 + put q 20 + put k 4 + put b 0)
  | .maccAttach p q n k b => some (1610874880 + put p 23 + put q 20 + put n 10 + put k 4 + put b 0)
  | .cpy p q x y z f => some (67108864 + put p 23 + put q 20 + put x 16 + put y 12 + put z 8 + put f 0)
  | .cpyS p q x y z f => some (134217728 + put p 23 + put q 20 + put x 16 + put y 12 + put z 8 + put f 0)
  | .ctld p q x y z f => some (201326592 + put p 23 + put q 20 + put x 16 + put y 12 + put z 8 + put f 0)
  | .ctst p q x y z f => some (268435456 + put p 23 + put q 20 + put x 16 + put y 12 + put z 8 + put f 0)
  | .cgath p q x y z f => some (335544320 + put p 23 + put q 20 + put x 16 + put y 12 + put z 8 + put f 0)
  | .cscat p q x y z f => some (402653184 + put p 23 + put q 20 + put x 16 + put y 12 + put z 8 + put f 0)
  | .cwalk p q x y z f => some (469762048 + put p 23 + put q 20 + put x 16 + put y 12 + put z 8 + put f 0)
  | .czero p q x z f => some (536870912 + put p 23 + put q 20 + put x 16 + put z 8 + put f 0)
  | .cfill p q x y z f => some (603979776 + put p 23 + put q 20 + put x 16 + put y 12 + put z 8 + put f 0)
  | .cbarIn p q x b => some (671088640 + put p 23 + put q 20 + put x 16 + put b 0)
  | .cbarOut p q x b => some (671092736 + put p 23 + put q 20 + put x 16 + put b 0)
  | .cbarArr p q b => some (671096832 + put p 23 + put q 20 + put b 0)
  | .csigAdd p q x y => some (738197504 + put p 23 + put q 20 + put x 16 + put y 12)
  | .csigSet p q x y => some (738197505 + put p 23 + put q 20 + put x 16 + put y 12)
  | .ccoll p q x z => some (805306368 + put p 23 + put q 20 + put x 16 + put z 8)
  | .cpref p q x z => some (872415232 + put p 23 + put q 20 + put x 16 + put z 8)
  | .caLi p q a i => some (1073741824 + put p 23 + put q 20 + put a 16 + put i 0)
  | .caLih p q a i => some (1140850688 + put p 23 + put q 20 + put a 16 + put i 0)
  | .caAddi p q a i => some (1207959552 + put p 23 + put q 20 + put a 16 + put i 0)
  | .caAdd p q x y z => some (1275068416 + put p 23 + put q 20 + put x 16 + put y 12 + put z 8)
  | .caMov p q x y => some (1275068417 + put p 23 + put q 20 + put x 16 + put y 12)
  | .chLd p q x y i => some (1342177280 + put p 23 + put q 20 + put x 16 + put y 12 + put i 0)
  | .chSt p q x y i => some (1409286144 + put p 23 + put q 20 + put x 16 + put y 12 + put i 0)
  | .vectorResultWrite .. => none
  | .vldChecksDecided .. => none
  | .vldReplay .. => none
  | .latchWrite .. => none
  | .vectorElement .. => none
  | .vquantGroup .. => none
  | .copyElement .. => none
  | .tileCommandStart .. => none
  | .frameStart .. => none
  | .sessionTimeout .. => none
  | .tileElement .. => none
  | .joinAdmitted .. => none
  | .combFailoverDone .. => none
  | .calibrationDone .. => none
  | .streamEnded .. => none
  | .trapDelivery .. => none
  | .asyncFaultDelivery .. => none
  | .preemptionDeadline .. => none
  | .groupSave .. => none
  | .groupRetire .. => none
  | .packetTake .. => none
  | .parameterBlockRead .. => none
  | .groupDispatch => none
  | .spillExpiry .. => none
  | .packetComplete .. => none
  | .ctxOpen .. => none
  | .ctxSuspend .. => none
  | .ctxResume .. => none
  | .ctxClose .. => none
  | .kernelLoad .. => none
  | .kernelLoadReadDone => none
  | .kernelUnload .. => none
  | .queueEnable .. => none
  | .queueDisable .. => none
  | .queuePause .. => none
  | .queueResume .. => none
  | .queueReset .. => none
  | .qdb .. => none
  | .gintv .. => none
  | .proma .. => none
  | .promoteRequest .. => none
  | .promotion .. => none
  | .ilcmdInvalidatePage .. => none
  | .ilcmdInvalidateContext .. => none
  | .ilcmdInvalidateAll .. => none
  | .ilcmdSync => none
  | .invalidationAppend .. => none
  | .pageWalk .. => none
  | .migh .. => none
  | .migrationStep .. => none
  | .ftccfg .. => none
  | .ftcChangeDone .. => none
  | .attaddr .. => none
  | .attestationReportDone .. => none
  | .fibmodeApply .. => none
  | .routeWrite .. => none
  | .hostRegisterWrite .. => none
  | .hostMemoryRead .. => none
  | .hostMemoryWrite .. => none
  | .writeQueueRequest .. => none
  | .cacheFill .. => none
  | .refresh .. => none
  | .bankFillDone .. => none
  | .bankWritebackDone .. => none
  | .packageReset .. => none
  | .functionReady .. => none
  | .functionRestore .. => none
  | .managementInstall .. => none
  | .powerLimitThrottle => none
  | .coreFault .. => none
  | .spareTakeoverDone .. => none
  | .correctableError .. => none
  | .storageLost .. => none
  | .linkTrained .. => none
  | .linkTrainingFailed .. => none
  | .wavelengthLost .. => none
  | .lightLost .. => none
  | .linkManagementReset .. => none
  | .flitReceive .. => none
  | .nakReceive .. => none
  | .ackTimeout .. => none
  | .rerouteResend .. => none
  | .remoteRequest .. => none
  | .remoteReply .. => none
  | .collectiveMatch .. => none
  | .collectiveMatchTimeout .. => none
  | .collectiveBucketStart .. => none
  | .collectiveBucketDone .. => none
  | .collectiveFailure .. => none
  | .gangReadyReceived .. => none
  | .gangCommitReceived .. => none
  | .gangAbortReceived .. => none
  | .gangQueryReceived .. => none
  | .gangLeaderTimeout .. => none
  | .gangQueryTimeout .. => none
  | .gangAnswerTimeout .. => none
  | .linkLightDetected .. => none
  | .gangDecisionExpiry .. => none
  | .l2ReductionApplied .. => none
  | .interruptPacket .. => none
  | .sessionControlFlit .. => none
  | .farWriteCompletion .. => none

/-- The streams in whose opcode map the instruction stands (R44). A step of the device stands in none. -/
def Instr.inStream (i : Instr) (st : Stream) : Bool :=
  match i with
  | .add .. => st == .s
  | .sub .. => st == .s
  | .and .. => st == .s
  | .or .. => st == .s
  | .xor .. => st == .s
  | .andn .. => st == .s
  | .shl .. => st == .s
  | .shrN .. => st == .s
  | .shrI .. => st == .s
  | .cmpltI .. => st == .s
  | .cmpltN .. => st == .s
  | .minI .. => st == .s
  | .maxI .. => st == .s
  | .minN .. => st == .s
  | .maxN .. => st == .s
  | .mul .. => st == .s
  | .mulhiI .. => st == .s
  | .mulhiN .. => st == .s
  | .quoI .. => st == .s
  | .quoN .. => st == .s
  | .rmdI .. => st == .s
  | .rmdN .. => st == .s
  | .sel .. => st == .s
  | .clz .. => st == .s
  | .ctz .. => st == .s
  | .popc .. => st == .s
  | .bswap .. => st == .s
  | .addi .. => st == .s
  | .andi .. => st == .s
  | .ori .. => st == .s
  | .xori .. => st == .s
  | .cmpltiI .. => st == .s
  | .cmpltiN .. => st == .s
  | .shli .. => st == .s
  | .shriN .. => st == .s
  | .shriI .. => st == .s
  | .immLo .. => st == .s
  | .immCat .. => st == .s
  | .pcadd .. => st == .s
  | .nop => st == .s
  | .beq .. => st == .s
  | .bne .. => st == .s
  | .bltI .. => st == .s
  | .bgeI .. => st == .s
  | .bltN .. => st == .s
  | .bgeN .. => st == .s
  | .jmp .. => st == .s
  | .jmpr .. => st == .s
  | .ldI8 .. => st == .s
  | .ldN8 .. => st == .s
  | .ldI16 .. => st == .s
  | .ldN16 .. => st == .s
  | .ldI32 .. => st == .s
  | .ldN32 .. => st == .s
  | .ldI64 .. => st == .s
  | .stI8 .. => st == .s
  | .stI16 .. => st == .s
  | .stI32 .. => st == .s
  | .stI64 .. => st == .s
  | .ldlI32 .. => st == .s
  | .ldlI64 .. => st == .s
  | .stlI32 .. => st == .s
  | .stlI64 .. => st == .s
  | .ldAcq .. => st == .s
  | .stRel .. => st == .s
  | .ldAcqp .. => st == .s
  | .fence .. => st == .s
  | .fenceRel .. => st == .s
  | .fenceAcq .. => st == .s
  | .atom .. => st == .s
  | .red .. => st == .s
  | .ldfe .. => st == .s
  | .stfe .. => st == .s
  | .clineWb .. => st == .s
  | .clineInv .. => st == .s
  | .clineWbi .. => st == .s
  | .clineZero .. => st == .s
  | .ftcWb .. => st == .s
  | .ftcInv .. => st == .s
  | .ftcWbi .. => st == .s
  | .ftcProbe .. => st == .s
  | .bmodeReset .. => st == .s
  | .bmodeEmpty .. => st == .s
  | .bmodeFull .. => st == .s
  | .bmodeQuery .. => st == .s
  | .tlbInv .. => st == .s
  | .tlbInvall .. => st == .s
  | .tlbSync => st == .s
  | .pgProbe .. => st == .s
  | .pgMig .. => st == .s
  | .toksend .. => st == .s
  | .tokwait .. => st == .s
  | .fmtq .. => st == .s
  | .endS => st == .s
  | .rend .. => st == .s
  | .exit .. => st == .s
  | .launch .. => st == .s
  | .sigAdd .. => st == .s
  | .sigSet .. => st == .s
  | .sigWait .. => st == .s
  | .sigInt .. => st == .s
  | .hintSave .. => st == .s
  | .trap .. => st == .s
  | .rett => st == .s
  | .sysr .. => st == .s
  | .sysw .. => st == .s
  | .barInit .. => st == .s
  | .barReg .. => st == .s
  | .barArr .. => st == .s
  | .barWait .. => st == .s
  | .barArd .. => st == .s
  | .barPub .. => st == .s
  | .barAtt .. => st == .s
  | .barRarr .. => st == .s
  | .barRdlo .. => st == .s
  | .barRdhi .. => st == .s
  | .loopBeg .. => st == .s
  | .loopFirst .. => st == .s
  | .loopLast .. => st == .s
  | .loopIdx .. => st == .s
  | .loopIterationEnd => false
  | .vadd .. => st == .v
  | .vsub .. => st == .v
  | .vmul .. => st == .v
  | .vfma .. => st == .v
  | .vfms .. => st == .v
  | .vmin .. => st == .v
  | .vmax .. => st == .v
  | .vaddInteger .. => st == .v
  | .vsubInteger .. => st == .v
  | .vmulInteger .. => st == .v
  | .vmulh .. => st == .v
  | .vminInteger .. => st == .v
  | .vmaxInteger .. => st == .v
  | .vand .. => st == .v
  | .vor .. => st == .v
  | .vxor .. => st == .v
  | .vshl .. => st == .v
  | .vshr .. => st == .v
  | .vsra .. => st == .v
  | .vaddi .. => st == .v
  | .vandi .. => st == .v
  | .vshli .. => st == .v
  | .vshri .. => st == .v
  | .vcmp .. => st == .v
  | .kand .. => st == .v
  | .kor .. => st == .v
  | .kxor .. => st == .v
  | .kandn .. => st == .v
  | .kmov .. => st == .v
  | .knot .. => st == .v
  | .kpush .. => st == .v
  | .kpop .. => st == .v
  | .kelse .. => st == .v
  | .vbrAny .. => st == .v
  | .vbrAll .. => st == .v
  | .vbrNone .. => st == .v
  | .vj .. => st == .v
  | .vcvt .. => st == .v
  | .vquant .. => st == .v
  | .vexp2 .. => st == .v
  | .vlog2 .. => st == .v
  | .vrcp .. => st == .v
  | .vrsqrt .. => st == .v
  | .vsin .. => st == .v
  | .vcos .. => st == .v
  | .vtanh .. => st == .v
  | .vradd .. => st == .v
  | .vrmax .. => st == .v
  | .vrmin .. => st == .v
  | .vrmaxi .. => st == .v
  | .vperm .. => st == .v
  | .vshuf .. => st == .v
  | .vrot .. => st == .v
  | .vzip .. => st == .v
  | .vsel .. => st == .v
  | .vli .. => st == .v
  | .vlih .. => st == .v
  | .vmov .. => st == .v
  | .vlane .. => st == .v
  | .vld .. => st == .v
  | .vst .. => st == .v
  | .vgather .. => st == .v
  | .vscatter .. => st == .v
  | .vlut .. => st == .v
  | .vrescale .. => st == .v
  | .vaccCol .. => st == .v
  | .vaccColz .. => st == .v
  | .vaccRow .. => st == .v
  | .vaccRowz .. => st == .v
  | .vaccWcol .. => st == .v
  | .vaccAcol .. => st == .v
  | .vldfe .. => st == .v
  | .vstfe .. => st == .v
  | .loopBegXn .. => st != .s
  | .loopFirstXn .. => st != .s
  | .loopLastXn .. => st != .s
  | .rendXn .. => st != .s
  | .endXn .. => st != .s
  | .nopXn .. => st != .s
  | .mtile .. => st == .m
  | .mbcast .. => st == .m
  | .mtileT .. => st == .m
  | .msync .. => st == .m
  | .mdset .. => st == .m
  | .mdadd .. => st == .m
  | .mdmov .. => st == .m
  | .mdld .. => st == .m
  | .mjoin .. => st == .m
  | .mleave .. => st == .m
  | .mcal .. => st == .m
  | .mocfg .. => st == .m
  | .mstat .. => st == .m
  | .maccAlloc .. => st == .m
  | .maccFree .. => st == .m
  | .maccZero .. => st == .m
  | .maccShare .. => st == .m
  | .maccAttach .. => st == .m
  | .cpy .. => st == .c
  | .cpyS .. => st == .c
  | .ctld .. => st == .c
  | .ctst .. => st == .c
  | .cgath .. => st == .c
  | .cscat .. => st == .c
  | .cwalk .. => st == .c
  | .czero .. => st == .c
  | .cfill .. => st == .c
  | .cbarIn .. => st == .c
  | .cbarOut .. => st == .c
  | .cbarArr .. => st == .c
  | .csigAdd .. => st == .c
  | .csigSet .. => st == .c
  | .ccoll .. => st == .c
  | .cpref .. => st == .c
  | .caLi .. => st == .c
  | .caLih .. => st == .c
  | .caAddi .. => st == .c
  | .caAdd .. => st == .c
  | .caMov .. => st == .c
  | .chLd .. => st == .c
  | .chSt .. => st == .c
  | .vectorResultWrite .. => false
  | .vldChecksDecided .. => false
  | .vldReplay .. => false
  | .latchWrite .. => false
  | .vectorElement .. => false
  | .vquantGroup .. => false
  | .copyElement .. => false
  | .tileCommandStart .. => false
  | .frameStart .. => false
  | .sessionTimeout .. => false
  | .tileElement .. => false
  | .joinAdmitted .. => false
  | .combFailoverDone .. => false
  | .calibrationDone .. => false
  | .streamEnded .. => false
  | .trapDelivery .. => false
  | .asyncFaultDelivery .. => false
  | .preemptionDeadline .. => false
  | .groupSave .. => false
  | .groupRetire .. => false
  | .packetTake .. => false
  | .parameterBlockRead .. => false
  | .groupDispatch => false
  | .spillExpiry .. => false
  | .packetComplete .. => false
  | .ctxOpen .. => false
  | .ctxSuspend .. => false
  | .ctxResume .. => false
  | .ctxClose .. => false
  | .kernelLoad .. => false
  | .kernelLoadReadDone => false
  | .kernelUnload .. => false
  | .queueEnable .. => false
  | .queueDisable .. => false
  | .queuePause .. => false
  | .queueResume .. => false
  | .queueReset .. => false
  | .qdb .. => false
  | .gintv .. => false
  | .proma .. => false
  | .promoteRequest .. => false
  | .promotion .. => false
  | .ilcmdInvalidatePage .. => false
  | .ilcmdInvalidateContext .. => false
  | .ilcmdInvalidateAll .. => false
  | .ilcmdSync => false
  | .invalidationAppend .. => false
  | .pageWalk .. => false
  | .migh .. => false
  | .migrationStep .. => false
  | .ftccfg .. => false
  | .ftcChangeDone .. => false
  | .attaddr .. => false
  | .attestationReportDone .. => false
  | .fibmodeApply .. => false
  | .routeWrite .. => false
  | .hostRegisterWrite .. => false
  | .hostMemoryRead .. => false
  | .hostMemoryWrite .. => false
  | .writeQueueRequest .. => false
  | .cacheFill .. => false
  | .refresh .. => false
  | .bankFillDone .. => false
  | .bankWritebackDone .. => false
  | .packageReset .. => false
  | .functionReady .. => false
  | .functionRestore .. => false
  | .managementInstall .. => false
  | .powerLimitThrottle => false
  | .coreFault .. => false
  | .spareTakeoverDone .. => false
  | .correctableError .. => false
  | .storageLost .. => false
  | .linkTrained .. => false
  | .linkTrainingFailed .. => false
  | .wavelengthLost .. => false
  | .lightLost .. => false
  | .linkManagementReset .. => false
  | .flitReceive .. => false
  | .nakReceive .. => false
  | .ackTimeout .. => false
  | .rerouteResend .. => false
  | .remoteRequest .. => false
  | .remoteReply .. => false
  | .collectiveMatch .. => false
  | .collectiveMatchTimeout .. => false
  | .collectiveBucketStart .. => false
  | .collectiveBucketDone .. => false
  | .collectiveFailure .. => false
  | .gangReadyReceived .. => false
  | .gangCommitReceived .. => false
  | .gangAbortReceived .. => false
  | .gangQueryReceived .. => false
  | .gangLeaderTimeout .. => false
  | .gangQueryTimeout .. => false
  | .gangAnswerTimeout .. => false
  | .linkLightDetected .. => false
  | .gangDecisionExpiry .. => false
  | .l2ReductionApplied .. => false
  | .interruptPacket .. => false
  | .sessionControlFlit .. => false
  | .farWriteCompletion .. => false

/-- The word of an instruction (R37 to R43), none for a step of the device. -/
def encode (i : Instr) : Option W32 := (encNat i).map (BitVec.ofNat 32)

/-- Sign extension of the low `n` bits of `x` (R127). -/
def sext64 {n : Nat} (x : BitVec n) : W64 := x.signExtend 64

/-- Byte `k` of a value, little-endian (R1). -/
def byteOf {n : Nat} (x : BitVec n) (k : Nat) : Byte := (x >>> (8 * k)).setWidth 8

/-- The `n` low bytes of a value in ascending address order (R1). -/
def toBytes {k : Nat} (x : BitVec k) (n : Nat) : List Byte := (List.range n).map (byteOf x)

/-- The number that bytes in ascending address order hold (R1). -/
def leNat : List Byte → Nat
  | [] => 0
  | b :: bs => b.toNat + 256 * leNat bs

/-- A field hi:lo of a value, as a number (R5). -/
def fieldOf {n : Nat} (x : BitVec n) (hi lo : Nat) : Nat := x.toNat / 2 ^ lo % 2 ^ (hi + 1 - lo)

end Sys2Proof
end

