-- ==== Sys2Proof/Machine/Num.lean ====
section
/-! DEFINITION. The numbers of chapter 2: exact dyadic arithmetic, the floating formats of Table 2-1, the FP32
operations of R16, conversions (R19), the block quantiser (R24, R25) and the delivered window code (R30, R31).
Every operation converts to exact integers, computes, and rounds once at the end. -/

namespace Sys2Proof.Machine

/-- R16 `saturate`. -/
def saturate (x lo hi : Int) : Int := if x < lo then lo else if x > hi then hi else x

/-- R16 `round_half_even` of `m / 2 ^ k` for a natural `m`. -/
def rneShift (m k : Nat) : Nat :=
  let q := m / 2 ^ k
  let r := m % 2 ^ k * 2
  if r > 2 ^ k || (r == 2 ^ k && q % 2 == 1) then q + 1 else q

/-- R16 `round_half_even` of `m * 2 ^ e`. -/
def rneInt (m e : Int) : Int :=
  if e ≥ 0 then m * 2 ^ e.toNat
  else if m ≥ 0 then rneShift m.toNat (-e).toNat else - rneShift (-m).toNat (-e).toNat

/-- A floating value: NaN, a signed infinity, or (-1)^neg * m * 2^e (a zero keeps its sign). -/
inductive Fp where
  | nan
  | inf (neg : Bool)
  | fin (neg : Bool) (m : Nat) (e : Int)
deriving DecidableEq, Repr

/-- A floating format of Table 2-1: exponent bits, fraction bits, bias, and whether the all-ones exponent encodes
infinities and NaNs. -/
structure Fmt where
  eb : Nat
  fb : Nat
  bias : Nat
  ieee : Bool
deriving DecidableEq, Repr

/-- The formats of Table 2-1. -/
def fmtF32 : Fmt := { eb := 8, fb := 23, bias := 127, ieee := true }
/-- `bf16` of Table 2-1. -/
def fmtBf16 : Fmt := { eb := 8, fb := 7, bias := 127, ieee := true }
/-- `h16` of Table 2-1. -/
def fmtH16 : Fmt := { eb := 5, fb := 10, bias := 15, ieee := true }
/-- `e4m3` of Table 2-1. -/
def fmtE4m3 : Fmt := { eb := 4, fb := 3, bias := 7, ieee := false }
/-- `e5m2` of Table 2-1. -/
def fmtE5m2 : Fmt := { eb := 5, fb := 2, bias := 15, ieee := false }
/-- `e2m1` of Table 2-1; its code 0b1000 is the block's special value and is handled before this format is read. -/
def fmtE2m1 : Fmt := { eb := 2, fb := 1, bias := 1, ieee := false }

/-- R18: the value of a code. -/
def fpDecode (f : Fmt) (code : Nat) : Fp :=
  let frac := code % 2 ^ f.fb
  let ex := code / 2 ^ f.fb % 2 ^ f.eb
  let neg := code / 2 ^ (f.fb + f.eb) % 2 == 1
  if f.ieee && ex == 2 ^ f.eb - 1 then (if frac == 0 then .inf neg else .nan)
  else if ex == 0 then .fin neg frac (1 - f.bias - f.fb)
  else .fin neg (2 ^ f.fb + frac) (ex - f.bias - f.fb)

/-- The code of the default NaN (R16, R19): +0 where the format has none. -/
def fpNan (f : Fmt) : Nat := if f.ieee then (2 ^ f.eb - 1) * 2 ^ f.fb + 2 ^ (f.fb - 1) else 0

/-- The code of a magnitude beyond the largest finite value, of the given sign (R19). -/
def fpOver (f : Fmt) (neg : Bool) : Nat :=
  (if f.ieee then (2 ^ f.eb - 1) * 2 ^ f.fb else 2 ^ (f.eb + f.fb) - 1) + if neg then 2 ^ (f.eb + f.fb) else 0

/-- Magnitude code of `m * 2 ^ e` rounded to nearest even with an unbounded exponent range upward (R16, R19). -/
def fpMag (f : Fmt) (m : Nat) (e : Int) : Nat :=
  if m == 0 then 0
  else
    let x : Int := max ((m.log2 : Int) + e) (1 - f.bias)
    let r := (rneInt m (e - (x - f.fb))).toNat
    (x + f.bias - 1).toNat * 2 ^ f.fb + r

/-- R16 `fp32` and R19: the code of the format nearest to (-1)^neg * m * 2^e, with overflow as R19 gives. -/
def fpRound (f : Fmt) (neg : Bool) (m : Nat) (e : Int) : Nat :=
  let c := fpMag f m e
  let lim := if f.ieee then (2 ^ f.eb - 1) * 2 ^ f.fb else 2 ^ (f.eb + f.fb)
  if c ≥ lim then fpOver f neg else c + if neg then 2 ^ (f.eb + f.fb) else 0

/-- R19: conversion of a floating value to a format. -/
def fpEncode (f : Fmt) : Fp → Nat
  | .nan => fpNan f
  | .inf neg => fpOver f neg
  | .fin neg m e => fpRound f neg m e

/-- The value of an FP32 word. -/
def f32 (w : W32) : Fp := fpDecode fmtF32 w.toNat

/-- The default NaN 0x7FC0_0000 (R16). -/
def nan32 : W32 := 0x7FC00000

/-- The FP32 word of a floating value (R16). -/
def toF32 (x : Fp) : W32 := BitVec.ofNat 32 (fpEncode fmtF32 x)

/-- R16 `fp32` of `m * 2 ^ e`; fp32(0) is +0.0. DESIGN CHOICE: a negative value that rounds to zero gives -0.0 (log entry 161). -/
def fp32 (m e : Int) : W32 := BitVec.ofNat 32 (fpRound fmtF32 (m < 0) m.natAbs e)

/-- Signed numerator of a finite value at the exponent `e0`, which is at most its own. -/
def atExp (neg : Bool) (m : Nat) (e e0 : Int) : Int :=
  let v : Int := m * 2 ^ (e - e0).toNat
  if neg then -v else v

/-- The exact sum of two values; a zero sum is +0 unless both are negative zeros (IEEE 754 round to nearest). -/
def fpSum : Fp → Fp → Fp
  | .nan, _ => .nan
  | _, .nan => .nan
  | .inf s, .inf t => if s == t then .inf s else .nan
  | .inf s, _ => .inf s
  | _, .inf t => .inf t
  | .fin s m e, .fin t n g =>
    let e0 := min e g
    let v := atExp s m e e0 + atExp t n g e0
    if v == 0 then .fin (s && t) 0 0 else .fin (v < 0) v.natAbs e0

/-- The exact product of two values. -/
def fpProd : Fp → Fp → Fp
  | .nan, _ => .nan
  | _, .nan => .nan
  | .inf s, .inf t => .inf (s != t)
  | .inf s, .fin t n _ => if n == 0 then .nan else .inf (s != t)
  | .fin s m _, .inf t => if m == 0 then .nan else .inf (s != t)
  | .fin s m e, .fin t n g => .fin (s != t) (m * n) (e + g)

/-- The value with its sign changed. -/
def fpNeg : Fp → Fp
  | .nan => .nan
  | .inf s => .inf (!s)
  | .fin s m e => .fin (!s) m e

/-- R16 `fp32_add`. -/
def fp32Add (a b : W32) : W32 := toF32 (fpSum (f32 a) (f32 b))
/-- R16 `fp32_sub`. -/
def fp32Sub (a b : W32) : W32 := toF32 (fpSum (f32 a) (fpNeg (f32 b)))
/-- R16 `fp32_mul`. -/
def fp32Mul (a b : W32) : W32 := toF32 (fpProd (f32 a) (f32 b))
/-- The fused product and sum a * b + c with one rounding. -/
def fp32Fma (a b c : W32) : W32 := toF32 (fpSum (fpProd (f32 a) (f32 b)) (f32 c))

/-- Whether an FP32 word is a NaN. -/
def isNan (w : W32) : Bool :=
  match f32 w with
  | .nan => true
  | _ => false

/-- Whether an FP32 word is an infinity. -/
def isInf (w : W32) : Bool :=
  match f32 w with
  | .inf _ => true
  | _ => false

/-- A total order on FP32 words that are not NaNs, as an integer; -0 and +0 map to 0. -/
def fpKey (w : W32) : Int :=
  let m : Int := w.toNat % 0x80000000
  if w.toNat ≥ 0x80000000 then -m else m

/-- An FP32 word as an integer number of units 2^-149; infinities and NaNs count as magnitude 2^128 (R24). -/
def fpUnits (w : W32) : Int :=
  match f32 w with
  | .fin neg m e => atExp neg m e (-149)
  | .inf neg => if neg then -(2 ^ 277 : Int) else 2 ^ 277
  | .nan => 2 ^ 277

/-- R24 `ge` of a list of magnitudes in units of 2^-149: none where all are zero. -/
def floorLog2Units (us : List Int) : Option Int :=
  let m := us.foldl (fun acc u => max acc u.natAbs) 0
  if m == 0 then none else some ((m.log2 : Int) - 149)

/-- The quotient `n / d * 2 ^ e` as a value that rounds as the exact quotient does: one sticky bit below at least
40 significant bits. -/
def fpQuot (neg : Bool) (n d : Nat) (e : Int) : Fp :=
  let s := 40 + d.log2
  let q := n * 2 ^ s / d
  let sticky := if n * 2 ^ s % d == 0 then 0 else 1
  .fin neg (2 * q + sticky) (e - s - 1)

/-- Integer square root, one result bit per unit of fuel, from the top bit down. -/
def isqrtFrom : Nat → Nat → Nat → Nat
  | 0, _, r => r
  | k + 1, n, r =>
    let t := r + 2 ^ k
    isqrtFrom k n (if t * t ≤ n then t else r)

/-- Integer square root of a number below 2^256. -/
def isqrt (n : Nat) : Nat := isqrtFrom 128 n 0

/-- R171 `vrcp`: 1/x rounded once. -/
def fp32Rcp (x : W32) : W32 :=
  match f32 x with
  | .nan => nan32
  | .inf neg => toF32 (.fin neg 0 0)
  | .fin neg m e => if m == 0 then toF32 (.inf neg) else toF32 (fpQuot neg 1 m (-e))

/-- R171 `vrsqrt`: 1/sqrt(x) rounded once. -/
def fp32Rsqrt (x : W32) : W32 :=
  match f32 x with
  | .nan => nan32
  | .inf neg => if neg then nan32 else 0
  | .fin neg m e =>
    if m == 0 then toF32 (.inf neg)
    else if neg then nan32
    else
      -- x = m' * 4^h with h = floor(e / 2); 1/sqrt(x) = sqrt(2^160 / m') * 2^(-80 - h)
      let m' := if e % 2 == 0 then m else 2 * m
      let h := e / 2
      let q := isqrt (2 ^ 160 / m')
      let sticky := if q * q * m' == 2 ^ 160 then 0 else 1
      toF32 (.fin false (2 * q + sticky) (-81 - h))

/-- An FP32 value rounded to an integer, ties to even; none for NaN; infinities as a magnitude beyond every format. -/
def fpToInt (w : W32) : Option Int :=
  match f32 w with
  | .nan => none
  | .inf neg => some (if neg then -(2 ^ 200 : Int) else 2 ^ 200)
  | .fin neg m e => some (rneInt (if neg then -(m : Int) else m) e)

-- The quantiser (R24, R25) ------------------------------------------------------------------------------------------

/-- R24: whether group exponent `ge` starts a new block after `len` groups with base magnitude `bm`. -/
def quantNew (step len : Nat) (bm ge : Option Int) (first : Bool) : Bool :=
  first || len == 64 ||
  match bm, ge with
  | some b, some x => x > b + step || x < b - step
  | _, _ => false

/-- The largest of two optional exponents. -/
def maxOpt : Option Int → Option Int → Option Int
  | some a, some b => some (max a b)
  | none, x => x
  | x, none => x

/-- R25: the smallest X with A ≤ lim * 2^X, for A > 0 in units of 2^-149. -/
def quantExp (a lim : Nat) : Int :=
  -- X is log2 a - 149 - 2 or one or two above
  let x0 : Int := (a.log2 : Int) - 152
  let fits (x : Int) : Bool :=
    if x + 149 ≥ 0 then a ≤ lim * 2 ^ (x + 149).toNat else a * 2 ^ (-(x + 149)).toNat ≤ lim
  if fits x0 then x0 else if fits (x0 + 1) then x0 + 1 else if fits (x0 + 2) then x0 + 2 else x0 + 3

/-- R25: the mapping of `x` to the nearest of `cands` (pairs of value and code, both in the same units); ties go to the
smaller magnitude, then to the earlier candidate. -/
def nearest (x : Int) (cands : List (Int × Nat)) : Int × Nat :=
  cands.foldl (fun best c =>
    let d := (x - c.1).natAbs
    let db := (x - best.1).natAbs
    if d < db || (d == db && c.1.natAbs < best.1.natAbs) then c else best) (cands.headD (0, 0))

/-- R25: the mapping to the grid or the special value `sp`; at equal distance the grid value is chosen. -/
def nearestSp (x : Int) (grid : List (Int × Nat)) (sp : Int) : Int × Nat :=
  let g := nearest x grid
  if (x - sp).natAbs < (x - g.1).natAbs then (sp, 8) else g

/-- The E2M1 grid in halves of the scale, with codes (R18). Magnitude code 0 stands for zero. -/
def gridE2m1 : List (Int × Nat) :=
  [(0, 0), (1, 1), (2, 2), (3, 3), (4, 4), (6, 5), (8, 6), (12, 7), (-1, 9), (-2, 10), (-3, 11), (-4, 12), (-6, 13),
   (-8, 14), (-12, 15)]

/-- The S4 set, with codes, in halves of the scale. -/
def gridS4 : List (Int × Nat) :=
  [(0, 0), (2, 1), (4, 2), (6, 3), (8, 4), (10, 5), (12, 6), (14, 7), (-2, 15), (-4, 14), (-6, 13), (-8, 12), (-10, 11),
   (-12, 10), (-14, 9), (-16, 8)]

/-- R25: candidate special values in halves, in the order in which ties are decided. -/
def specials : List Int := [5, -5, 7, -7, 9, -9, 10, -10, 11, -11, 13, -13, 14, -14, 15, -15]

/-- R25: header and element codes of a block of FP32 lanes (masked lanes have been replaced by +0), tag `tag`. -/
def quantBlock (s4 : Bool) (tag : Nat) (xs : List W32) : Nat × List Nat :=
  let us := xs.map fpUnits
  let a := us.foldl (fun acc u => max acc u.natAbs) 0
  if xs.any (fun w => isNan w || isInf w) then (0xFF00 + tag, xs.map (fun _ => 0))
  else if a == 0 then (tag, xs.map (fun _ => 0))
  else
    let x := quantExp a (if s4 then 7 else 6)
    let scale := (saturate (x + 127) 0 254).toNat
    -- half a unit of the block scale in units of 2^-149
    let h : Int := 2 ^ (scale - 127 - 1 + 149 : Int).toNat
    let cands (g : List (Int × Nat)) : List (Int × Nat) := g.map (fun c => (c.1 * h, c.2))
    if s4 then (scale * 256 + tag, us.map (fun u => (nearest u (cands gridS4)).2))
    else
      let base := cands gridE2m1
      let cost (f : Int → Int × Nat) : Nat := us.foldl (fun acc u => acc + (u - (f u).1).natAbs) 0
      let best := specials.foldl (fun (b : Nat × Option Int) sp =>
        let c := cost (fun u => nearestSp u base (sp * h))
        if c < b.1 then (c, some sp) else b) (cost (fun u => nearest u base), none)
      match best.2 with
      | none => (scale * 256 + tag, us.map (fun u => (nearest u base).2))
      | some sp =>
        (scale * 256 + (if sp < 0 then 128 else 0) + sp.natAbs * 8 + tag, us.map (fun u => (nearestSp u base (sp * h)).2))

-- The window code (R30, R31) ----------------------------------------------------------------------------------------

/-- R31: the value delivered before saturation for a sum `s` at RSH `r`. Within 1/8 of a tie the device chooses one of
the two neighbours: `up` is its choice. Scaled by 8: |8s - 2^r (8k + 4)| ≤ 2^r. -/
def delivered (s : Int) (r : Nat) (up : Bool) : Int :=
  let k := s / 2 ^ r
  let d := (8 * s - 2 ^ r * (8 * k + 4)).natAbs
  if r > 0 && d ≤ 2 ^ r then (if up then k + 1 else k) else rneInt s (-r)

/-- R31: the delivered code and its SAT flag. -/
def deliverCode (s : Int) (r : Nat) (up : Bool) : Int × Bool :=
  let v := delivered s r up
  (saturate v (-2048) 2047, v < -2048 || v > 2047)

/-- R32: the FP32 value of a code. -/
def codeValue (code : Int) (e : Int) : W32 := if code == 0 then 0 else fp32 code e

-- Atomics ------------------------------------------------------------------------------------------------------------

/-- Width in bytes of an atomic TYPE (R144). -/
def atomWidth (t : Nat) : Nat := if t == 2 || t == 3 then 8 else 4

/-- R155 order of `f32` for minimum and maximum: -0 below +0, a NaN operand gives the default NaN. -/
def f32Less (a b : W32) : Bool :=
  fpKey a < fpKey b || (fpKey a == fpKey b && a.getLsbD 31 && !b.getLsbD 31)
/-- The smaller by R155. -/
def f32Min (a b : W32) : W32 := if isNan a || isNan b then nan32 else if f32Less b a then b else a
/-- The larger by R155. -/
def f32Max (a b : W32) : W32 := if isNan a || isNan b then nan32 else if f32Less a b then b else a

/-- Two's-complement value of a number of `w` bits. -/
def toS (w v : Nat) : Int := if v ≥ 2 ^ (w - 1) then (v : Int) - 2 ^ w else v

/-- R145: the new value of a location of `w` bits. -/
def atomNew (o t w old op cmp : Nat) : Nat :=
  let less (a b : Nat) : Bool := if t == 0 || t == 2 then toS w a < toS w b else a < b
  match o with
  | 0 => if t == 4 then (fp32Add (BitVec.ofNat 32 old) (BitVec.ofNat 32 op)).toNat else (old + op) % 2 ^ w
  | 1 => old &&& op
  | 2 => old ||| op
  | 3 => old ^^^ op
  | 4 => if t == 4 then (f32Min (BitVec.ofNat 32 old) (BitVec.ofNat 32 op)).toNat else if less op old then op else old
  | 5 => if t == 4 then (f32Max (BitVec.ofNat 32 old) (BitVec.ofNat 32 op)).toNat else if less old op then op else old
  | 6 => op
  | _ => if old == cmp then op else old

end Sys2Proof.Machine
end

