-- ==== Sys2Proof/Machine/State.lean ====
section
/-! DEFINITION. The state of one module: everything the manual gives the machine, as plain data, and the machine right
after reset. A list with a fixed length holds an array of the manual; a list of numbered pairs holds a sparse one, with
an unlisted number standing for the initial value. One group is held in focus (`State.grp`), the others in
`State.others`; which agent moves next is the data of `State.agenda`. -/

namespace Sys2Proof.Machine

/-- Who stops the model. Every fault of the manual is a next state (a trap or an abort); this reason is left for a
use of the model that the machine cannot meet. -/
inductive Fault where
  /-- `exec` was asked to run an instruction of a stream although no placed group is in focus. Raised by every meaning
  of an encoded instruction; safe, because the machine never issues without a group. -/
  | noGroup
deriving DecidableEq, Repr

/-- Why the model gives no meaning. -/
inductive Refusal where
  /-- The instruction of this mnemonic has no meaning yet. Safe. -/
  | notModelled (mnemonic : String)
deriving DecidableEq, Repr

/-- Stream states of Table 6-2. -/
inductive RunState where
  | ready | blocked | draining | ended | stopped
deriving DecidableEq, Repr

/-- Group states of Table 6-1; `none` is a job slot's worth of no group. -/
inductive GroupState where
  | none | running | handler | stopping | saved | retiring
deriving DecidableEq, Repr

/-- Why a group stopped: the STATUS of its completion record (Table 6-3). -/
inductive EndStatus where
  | done | exited | aborted | trap | closed | gangAborted
deriving DecidableEq, Repr

/-- An open loop level of a sequencer (R86, R92). -/
structure OpenLevel where
  lvl : Nat
  start : Nat
  stop : Nat
  idx : Nat
deriving DecidableEq, Repr

/-- One stream of a group: PC, run state, sequencer and result (Table 4-3, R92, R97, R109). -/
structure StreamSt where
  pc : W64
  run : RunState
  /-- open levels, innermost first -/
  levels : List OpenLevel
  /-- words the sequencer replays, by address (R92) -/
  replay : List (Nat × W32)
  /-- 0xFFFF until the stream is ENDED (R109) -/
  result : BitVec 16
  /-- the value that `end` or `rend` will record -/
  pendResult : BitVec 16
  /-- pushes that `end` or `rend` makes when it completes -/
  pendPush : BitVec 3
  /-- run state kept at a trap (R64) -/
  kept : RunState
  /-- consecutive cycles for which the stream was READY and not chosen (R100) -/
  starved : Nat
deriving DecidableEq, Repr

/-- A stream that has no code: ENDED with result 0 (R98). -/
def StreamSt.off : StreamSt :=
  { pc := 0, run := .ended, levels := [], replay := [], result := 0, pendResult := 0, pendPush := 0, kept := .ended,
    starved := 0 }

/-- A captured loop-table level (Table 5-3, R80): KIND, the captured count, strides and selectors in the order S, V, M, C. -/
structure LoopEnt where
  kind : Nat
  pcount : Bool
  count : Nat
  strides : List W32
  sels : List (BitVec 8)
deriving DecidableEq, Repr

/-- A patch entry (R84). -/
structure Patch where
  poff : Nat
  stream : Nat
  hi : Nat
  lo : Nat
  word : Nat
deriving DecidableEq, Repr

/-- A vector result in flight or injected from a latch (R158, R65). -/
structure Flight where
  isMask : Bool
  num : Nat
  vals : List W32
  kval : BitVec 128
  lanes : BitVec 128
  part : Nat
  due : Nat
  push : BitVec 3
deriving DecidableEq, Repr

/-- A `vld` whose checks are undecided, or one captured for replay (R185). -/
structure VldOp where
  pc : W64
  word : W32
  num : Nat
  addr : W64
  mask : BitVec 128
  push : BitVec 3
deriving DecidableEq, Repr

/-- The sources of a `vst` or `vrescale` that has issued and whose accesses wait, as it read them at issue (R158, R186): the address or the
scratch offset, the zero point, the mask and the lanes. -/
structure VSrc where
  addr : W64
  zero : W32
  mask : BitVec 128
  vals : List W32
deriving DecidableEq, Repr

/-- Multi-step vector instructions (R188). -/
inductive VKind where
  | gather | scatter | lut | quant
deriving DecidableEq, Repr

/-- A multi-step vector instruction in execution, with the operands it read at issue (R158, R178, R188). -/
structure VCmd where
  kind : VKind
  pc : W64
  word : W32
  vd : Nat
  addrs : List W64
  vals : List W32
  mask : BitVec 128
  pops : BitVec 3
  push : BitVec 3
  elem : Nat
  /-- the pops were made by an earlier issue (R61) -/
  resumed : Bool
  /-- `vquant`: FMT, STEP, first group of the open block, its base magnitude exponent, its length, its number -/
  s4 : Bool
  step : Nat
  bstart : Nat
  bm : Option Int
  blen : Nat
  bnum : Nat
deriving DecidableEq, Repr

/-- A tile command that has started (R236 to R241): captured word, descriptors and optical configuration. -/
structure TileCmd where
  pc : W64
  word : W32
  /-- 1 `mtile`, 2 `mbcast`, 3 `mtile.t` -/
  op : Nat
  nf : Nat
  mf : Nat
  fw : W64
  da : BitVec 128
  db : BitVec 128
  dc : BitVec 128
  stbase : W32
  stctl : W32
  frtmo : W32
  rerun : W32
  pops : BitVec 3
  push : BitVec 3
  elem : Nat
  /-- the command was re-issued from `fmtcur` -/
  resumed : Bool
  /-- true from the frame's start until the element loop ends or the frame pauses -/
  inFrame : Bool
  /-- true once this issue of the command has taken part in a frame (R214, R236) -/
  begun : Bool
  /-- core cycle from which the frame wait counts (R214) -/
  since : Nat
  /-- activation boundaries: the own ones, or those taken from the preamble, K/16 bits (R213) -/
  abnd : Nat
  /-- weight boundaries read at the start (R243), K/16 bits -/
  bbnd : Nat
  /-- the window whose headers and weights were read last (R238): its number, the activation headers of the columns, header and codes
  of each active weight row -/
  stWin : Option Nat
  stHdr : List Nat
  stRows : List (Nat × List Nat)
  /-- the next element is the first since the frame started or resumed (R238) -/
  entry : Bool
  attempt : Nat
  /-- flags gathered over the attempts of the element: LASER, SKEW, RXFAIL, FAILOVER -/
  seen : BitVec 4
  /-- the matrix stream as it stood at this command, where it has gone on to later instructions (R236) -/
  passed : Option StreamSt := none
deriving DecidableEq, Repr

/-- A session membership (R210, R222): `state` is STATE of `sess`; `parked` while the session is SAVED (Table 11-2). -/
structure Memb where
  str : Nat
  role : Nat
  key : Nat
  div : Nat
  state : Nat
  parked : Bool
deriving DecidableEq, Repr

/-- A tile command that the matrix stream has reached and that has not started (R236): 1 `mtile`, 2 `mbcast`, 3
`mtile.t`, with its operands. -/
structure MReq where
  word : W32
  op : Nat
  nf : Nat
  mf : Nat
  a : Nat
  b : Nat
  c : Nat
  pops : BitVec 3
  push : BitVec 3
deriving DecidableEq, Repr

/-- Copy commands (R245). -/
inductive CKind where
  | cpy | cpys | ctld | ctst | cgath | cscat | cwalk | czero | cfill | ccoll
deriving DecidableEq, Repr

/-- A copy command in execution, with the register values it read at issue (R245). -/
structure CopyCmd where
  kind : CKind
  pc : W64
  word : W32
  x0 : W64
  x1 : W64
  y0 : W64
  y1 : W64
  z0 : W64
  z1 : W64
  hnd : BitVec 256
  flags : BitVec 8
  pops : BitVec 3
  push : BitVec 3
  elem : Nat
  /-- the pops were made by an earlier issue (R61) -/
  resumed : Bool
  count : Nat
  /-- `cwalk`: the walk descriptor read at issue (Table 13-4) -/
  desc : List W64
deriving DecidableEq, Repr

/-- A part of a copy write whose checks have passed and whose element is committing (R246): virtual address, bytes, value, bits left as they are,
translation. -/
structure CopyPart where
  va : Nat
  n : Nat
  v : Nat
  keep : Nat
  pa : Nat
  leaf : W64
deriving DecidableEq, Repr

/-- An accumulator map entry (R198, R200), with the keys published for it. -/
structure AEntry where
  phys : Nat
  owned : Bool
  band : BitVec 4
  keys : List Nat
deriving DecidableEq, Repr

/-- What a barrier map entry names (R308, R313). -/
inductive BKind where
  | owned | attached | unmapped
deriving DecidableEq, Repr

/-- A barrier map entry (R308): the object it names, the group's own object, registration, and PHASES at the last
registered arrival. -/
structure BEntry where
  kind : BKind
  obj : Nat
  own : Nat
  reg : Bool
  last : Option W32
deriving DecidableEq, Repr

/-- A FIFO bank's ring (R194), and the places of it that hold an uncorrectable error (R332). -/
structure Fifo where
  head : Nat
  tail : Nat
  data : List (Nat × BitVec 128)
  bad : List Nat
deriving DecidableEq, Repr

/-- A fault as its record describes it (Table 18-2), without the fields the group supplies. -/
structure FaultInfo where
  code : Nat
  stream : Nat
  async : Bool
  imprecise : Bool
  elvalid : Bool
  element : Nat
  pc : W64
  addr : W64
  ipc : W64
  word : W32
  detail : W32
  opa : W64
  opb : W64
  opc : W64
  /-- `cycle` when the fault was detected -/
  cycle : Nat
  /-- an uncorrectable error of the barrier store, which is not among those that R335 counts -/
  bar : Bool := false
deriving DecidableEq, Repr

/-- A trap that waits for the group to stop: the instructions in flight complete first (R64 step 1, R126). CODE, STREAM and INFO of
`tcause`, the fault record, none for `trap`, and for a failed `vld` the load (R185). -/
structure PendTrap where
  code : Nat
  stream : Nat
  info : W32
  fault : Option FaultInfo
  vld : Option VldOp
deriving DecidableEq, Repr

/-- A posted reduction that has not been applied (R148). -/
structure RedReq where
  handle : W64
  va : W64
  pa : Nat
  aop : Nat
  ty : Nat
  opnd : W64
  scope : Nat
  die : Nat
  leaf : W64
  pc : W64
  word : W32
deriving DecidableEq, Repr

/-- An access of another module that waits for its answer (R305, R346): the stream, the physical address, the length in
bytes, the packet operation, the tag and, once it has come, the answer and its status (Table 19-3, ARG). -/
structure RemoteWait where
  stream : Nat
  pa : Nat
  len : Nat
  pop : Nat
  tag : BitVec 16
  got : Option (List Byte)
  status : Nat
deriving DecidableEq, Repr

/-- A scalar wait that an event ends for good (R125, R312): the object or counter, the tested value, the value found. -/
structure Wait where
  loc : Nat
  tested : W32
  got : Option W32
deriving DecidableEq, Repr

/-- A promotion of a group (R298, R299), as its snapshot found them: the log entries it removes, the lines it writes home, and the tags of
the unanswered remote requests of the core, for which it waits; and whether its lines have been written home. -/
structure Snap where
  entries : List Nat
  lines : List Nat
  begun : Bool
  tags : List (BitVec 16)
deriving DecidableEq, Repr

/-- A group: its architected state (Table 4-3) and what the device keeps for it. -/
structure Group where
  st : GroupState
  handle : W64
  core : Nat
  slot : Nat
  prio : Nat
  age : Nat
  queue : Nat
  pkt : Nat
  pos : Nat
  /-- half of a pair (R96, R242) -/
  half : Nat
  /-- handle of the other half of a pair, 0 for none (R96) -/
  partner : W64
  /-- stopped because the other half traps (R96) -/
  pairHold : Bool
  -- launch resources and tables (R77, R80, R81, R84)
  scrb : Nat
  fifob : Nat
  accb : Nat
  barn : Nat
  talk : Bool
  listen : Bool
  loops : List LoopEnt
  patches : List (Patch × W32)
  codeBase : W64
  paramptr : W64
  sidx : List W32
  -- streams
  ss : StreamSt
  vs : StreamSt
  ms : StreamSt
  cs : StreamSt
  -- register files
  gregs : List W64
  vregs : List (List W32)
  kregs : List (BitVec 128)
  mstack : List (BitVec 128)
  dregs : List (BitVec 128)
  ocs : List W32
  staged : List (Option W32)
  hregs : List (BitVec 256)
  aregs : List W64
  prgv : W64
  prgm : W64
  prgc : W64
  fmtcur : W64
  -- tokens and format queue
  toks : List Nat
  resv : List Nat
  fmtq : List W64
  -- system registers
  hmode : Bool
  ien : Bool
  ipend : Bool
  ipval : W32
  preq : Bool
  predl : Nat
  /-- the queue whose waiting group asked for the pre-emption (R121), none for SUSPEND -/
  preqFor : Option Nat
  /-- SUSPEND of the context has asked for the pre-emption (R58) -/
  preqSusp : Bool
  /-- the streams are stopped for a save whose release has not completed (R73) -/
  saving : Bool
  pendld : Bool
  nlatch : Nat
  /-- push masks kept with the latches of the last trap (R65) -/
  lpush : List (BitVec 3)
  tvec : W64
  tframe : W64
  framePa : Nat
  imgSize : Nat
  tcause : W64
  sstat : W64
  epcs : W64
  epcv : W64
  epcm : W64
  epcc : W64
  hsv : List W64
  -- local memory, accumulators, barriers
  lmap : List Nat
  scratch : List Host.Cell
  /-- full granules, ascending (R193) -/
  full : List Nat
  badScr : List Nat
  fifos : List Fifo
  amap : List (Option AEntry)
  bmap : List BEntry
  -- vector engine
  vcyc : Nat
  flight : List Flight
  vld : Option VldOp
  vreplay : Option VldOp
  /-- the `vld` whose failure is pended (R64, R185) -/
  vpend : Option VldOp
  /-- the failed `vld` that the trap in progress is about (R185) -/
  vtrap : Option VldOp
  /-- traps that wait for the group to stop, in the order S, V, M, C -/
  pendTraps : List PendTrap
  vsrc : Option VSrc
  vcmd : Option VCmd
  -- matrix engine
  memb : Option Memb
  seq : BitVec 16
  stwr : W32
  mreq : Option MReq
  mcmd : Option TileCmd
  /-- the masks of an `msync` that has issued and waits for the tile command before it (R244) -/
  msync : Option (BitVec 3 × BitVec 3)
  /-- the activation boundaries of the last frame that a listener took part in (R213), for a command that re-issues with
  no element left (R61) -/
  lastAbnd : Nat
  /-- attempts made, and flags gathered over them, at the element at which the last frame paused (R220) -/
  again : Nat × BitVec 4
  /-- the last frame has ended although the command that took part in it has not: `seq` has yet to advance for it (R213, R240) -/
  owed : Bool
  -- copy engine
  ccmd : Option CopyCmd
  /-- the parts of a copy write that has been sent to another module and is not acknowledged yet -/
  cput : Option (List CopyPart)
  -- work that outlives its instruction
  redFaults : List (FaultInfo × Nat)
  asyncs : List FaultInfo
  plog : List Nat
  snap : Option Snap
  /-- the snapshot of an eager promotion that comes after the promotion in progress (R298) -/
  eager : Option Snap
  /-- R111 is done but for the promotion of what the log holds: the handle is still known (Table 15-2) -/
  retired : Bool
  rwait : List RemoteWait
  swait : Option Wait
  bwait : Option Wait
  /-- the phase at which the copy stream's `cbar.arr` waits (R310, R312) -/
  cbwait : Option Wait
  /-- owned barrier objects and accumulator cells of a saved group (R73, R313): by logical id, and by logical cell -/
  barSaved : List (Nat × BitVec 128)
  accSaved : List (Nat × W32)
  -- completion record (Table 6-3)
  status : EndStatus
  info : W32
  faultRec : List Byte
  toksat : Bool
  faultsupp : Bool
  fmtres : Nat
  /-- the pre-emption of this group is a hinted save with this descriptor (R69) -/
  hint : Option (List W64)
deriving DecidableEq, Repr

/-- No group: what the focus holds when no group is placed. Register files have their length and hold 0. -/
def Group.empty : Group :=
  { st := .none, handle := 0, core := 0, slot := 0, prio := 0, age := 0, queue := 0, pkt := 0, pos := 0, half := 0, partner := 0,
    pairHold := false, scrb := 0, fifob := 0, accb := 0, barn := 0, talk := false, listen := false, loops := [],
    patches := [], codeBase := 0, paramptr := 0, sidx := [0, 0, 0, 0, 0, 0], ss := .off, vs := .off, ms := .off,
    cs := .off, gregs := List.replicate 32 0, vregs := List.replicate 32 (List.replicate 128 0),
    kregs := List.replicate 8 0, mstack := [], dregs := List.replicate 16 0,
    ocs := [0, 0, 64, 3] ++ List.replicate 58 0 ++ [0xFFFFFFFF, 0], staged := List.replicate 64 none,
    hregs := List.replicate 16 0, aregs := List.replicate 16 0, prgv := 0, prgm := 0, prgc := 0, fmtcur := 0,
    toks := List.replicate 12 0, resv := List.replicate 12 0, fmtq := [], hmode := false, ien := true, ipend := false,
    ipval := 0, preq := false, predl := 0, preqFor := none, preqSusp := false, saving := false, pendld := false, nlatch := 0, lpush := [], tvec := 0, tframe := 0,
    framePa := 0, imgSize := 0, tcause := 0, sstat := 0, epcs := 0, epcv := 0, epcm := 0, epcc := 0,
    hsv := [0, 0, 0, 0], lmap := [], scratch := [], full := [], badScr := [], fifos := [],
    amap := List.replicate 16 none, bmap := [], vcyc := 0, flight := [], vld := none, vreplay := none, vpend := none, vtrap := none, pendTraps := [], vsrc := none, vcmd := none,
    memb := none, seq := 0, stwr := 0, mreq := none, mcmd := none, msync := none, lastAbnd := 0, again := (0, 0), owed := false, ccmd := none, cput := none, redFaults := [], asyncs := [], plog := [],
    snap := none, eager := none, retired := false, rwait := [], swait := none, bwait := none, cbwait := none,
    barSaved := [], accSaved := [], status := .done, info := 0, faultRec := [],
    toksat := false, faultsupp := false, fmtres := 0, hint := none }

/-- Modes and conversion states of a physical local bank (Table 10-1). -/
inductive BankMode where
  | cache | drainF | drainW | scratch | fifo
deriving DecidableEq, Repr

/-- A physical local bank (R189, R192): its state, the target of a conversion, the owner's handle (0 for none), and
the misses allocated into it. -/
structure Bank where
  mode : BankMode
  target : BankMode
  owner : W64
  misses : Nat
deriving DecidableEq, Repr

/-- A line of L1 or L2 (R269 to R274): line number, data, sectors present, dirty bytes, blocks marked bad, those of them that a
far-tier cache slot gave (R332), zero flag, volatile generation, for L1 the bank that holds it, the N-die that is the line's home (R268), and
whether its page is VOLATILE (R318). -/
structure CLine where
  line : Nat
  data : BitVec 1024
  present : BitVec 4
  dirty : BitVec 128
  bad : BitVec 2
  slot : BitVec 2
  zero : Bool
  gen : Nat
  bank : Nat
  home : Nat
  vol : Bool
deriving DecidableEq, Repr

/-- A cached translation (R319): context, level of the leaf, virtual page number at that level, the leaf, and the
physical address the leaf was read from. -/
structure TlbEnt where
  ctx : Nat
  lvl : Nat
  vpn : Nat
  leaf : W64
  leafPa : Nat
deriving DecidableEq, Repr

/-- A visible core (Table 1-3): what does not belong to one group. -/
structure Core where
  banks : List Bank
  l1 : List CLine
  acc : List (Nat × W32)
  badAcc : List Nat
  bars : List (BitVec 128)
  badBar : List Nat
  tlb : List TlbEnt
  journal : List Nat
  lastCtx : Option Nat
  /-- delay trims of the receiver channels that are set, in 1/64 symbol, by 64 × string + program channel (R207, R221) -/
  trims : List (Nat × Int)
  /-- delay trims of the modulator channels that are set (R207, R221) -/
  modTrims : List (Nat × Int)
  /-- drive levels that are set (R221); the unit is the part's own -/
  drives : List (Nat × BitVec 16)
  rxTimes : List Nat
  errTimes : List Nat
  onSpare : Bool
  /-- the core has failed and its groups still have to stop (R335 step 1): the groups that the device is known not to be able to read -/
  failing : Option (List W64)
  /-- for each engine, the core cycle of its last issue plus one, 0 for none (R100) -/
  slots : List Nat
deriving DecidableEq, Repr

/-- A core with every bank in CACHE and nothing cached. -/
def Core.reset : Core :=
  { banks := List.replicate 32 { mode := .cache, target := .cache, owner := 0, misses := 0 }, l1 := [], acc := [],
    badAcc := [], bars := List.replicate 256 0, badBar := [], tlb := [], journal := [], lastCtx := none,
    trims := [], modTrims := [], drives := [], rxTimes := [], errTimes := [], onSpare := false, failing := none, slots := [0, 0, 0, 0] }

/-- An invalidation-log entry that a die has not applied (R320, R322). -/
structure ILogEnt where
  seq : W32
  kind : Nat
  ctx : Nat
  va : W64
deriving DecidableEq, Repr

/-- A C-die (R7, R271 to R274, R319 to R322, R335). -/
structure Die where
  l2 : List CLine
  tlb : List TlbEnt
  gen : Nat
  ilog : List ILogEnt
  reds : List RedReq
  spareUsed : Bool
  /-- the core whose takeover by the spare is in progress -/
  moving : Option Nat
deriving DecidableEq, Repr

/-- A C-die with nothing cached and its spare idle. -/
def Die.reset : Die :=
  { l2 := [], tlb := [], gen := 0, ilog := [], reds := [], spareUsed := false, moving := none }

/-- An N-die (R276, R282): FTCCFG, the change in progress, requests not performed, far writes not completed. -/
structure NDie where
  ftcSize : Nat
  ftcBase : Nat
  epoch : Nat
  ftcBusy : Bool
  ftcResult : Bool
  newSize : Nat
  newBase : Nat
  queue : List RedReq
  farWrites : List Nat
deriving DecidableEq, Repr

/-- An N-die with its far-tier cache disabled. -/
def NDie.reset : NDie :=
  { ftcSize := 0, ftcBase := 0, epoch := 0, ftcBusy := false, ftcResult := false, newSize := 0, newBase := 0,
    queue := [], farWrites := [] }

/-- Session states of Table 11-2. -/
inductive SessState where
  | free | opened | frame | paused | saved
deriving DecidableEq, Repr

/-- Comb states (R219). -/
inductive Comb where
  | primary | standby | dark
deriving DecidableEq, Repr

/-- A member of a session (R210): 256 × module + core, its group (0 for a remote member), ROLE, and for a remote
member whether it is ready for the frame. -/
structure SMember where
  id : Nat
  handle : W64
  role : Nat
  ready : Bool
deriving DecidableEq, Repr

/-- A join or calibration waiting at a string's arbiter (R211, R224): kind 0 is a join, 1 a calibration (KEY then holds the
core), 2 a SAVED session whose members are placed again (Table 11-2; ROLE holds its context, DIV its talker), 3 a listener
of another module (ROLE holds its context, DIV its member id). The token masks are those of the waiting instruction; `ok` says that the
feeding module has admitted a listener of an IN string (R205). -/
structure SWait where
  handle : W64
  kind : Nat
  role : Nat
  key : Nat
  div : Nat
  pops : BitVec 3
  push : BitVec 3
  ok : Bool := false
deriving DecidableEq, Repr

/-- A SAVED session, which holds no string (Table 11-2): what identifies it, its remote listeners, its state before. -/
structure Park where
  talker : Nat
  key : Nat
  ctx : Nat
  div : Nat
  members : List SMember
  nextSeq : BitVec 16
  before : SessState
deriving DecidableEq, Repr

/-- A notice to another module about a session (R205): 0 readiness, 1 join, 2 pause, 3 session; the member (256 × module
+ core), KEY, context and frame fields. -/
structure SNote where
  kind : Nat
  member : Nat
  key : Nat
  ctx : Nat
  fields : W64
deriving DecidableEq, Repr

/-- A string (R204, R205, R211, R212, R219, R221). -/
structure Str where
  sess : SessState
  /-- 256 × module + core of the talker -/
  talker : Nat
  key : Nat
  ctx : Nat
  div : Nat
  /-- remote listeners -/
  members : List SMember
  /-- the talker's `seq` as a new listener takes it, where the talker is on another module -/
  nextSeq : BitVec 16
  saved : List Park
  notes : List SNote
  waiting : List SWait
  comb : Comb
  failovers : Nat
  failing : Bool
  cal : Option SWait
  chmap : List Nat
  failed : BitVec 68
  mode : Nat
  /-- the state and the failovers of the string's own comb, which is idle while the mode is IN (R205) -/
  idle : Comb × Nat := (.primary, 0)
deriving DecidableEq, Repr

/-- A string at reset: no session, comb PRIMARY, identity channel map. -/
def Str.reset : Str :=
  { sess := .free, talker := 0, key := 0, ctx := 0, div := 0, members := [], nextSeq := 0, saved := [], notes := [], waiting := [],
    comb := .primary, failovers := 0, failing := false, cal := none, chmap := List.range 64, failed := 0, mode := 0 }

/-- Context states of Table 4-2. -/
inductive CtxState where
  | free | opened | suspending | suspended | closing
deriving DecidableEq, Repr

/-- A context: its state and the descriptor fields the device read (Table 4-1), and the images reserved in its save
area as (offset, size) (R71). -/
structure Ctx where
  st : CtxState
  root : Nat
  htab : W64
  hcount : Nat
  savebase : Nat
  savesize : Nat
  saveva : W64
  policy : W64
  tvec : W64
  images : List (Nat × Nat)
deriving DecidableEq, Repr

/-- A context that is FREE. -/
def Ctx.free : Ctx :=
  { st := .free, root := 0, htab := 0, hcount := 0, savebase := 0, savesize := 0, saveva := 0, policy := 0, tvec := 0,
    images := [] }

/-- Kernel states of Table 5-1. -/
inductive KernState where
  | free | loading | ready | unloading
deriving DecidableEq, Repr

/-- A kernel id: its state and what LOAD copied into the device (R77, Tables 5-2 and 5-3, R83, R84). -/
structure Kern where
  st : KernState
  ctx : Nat
  base : W64
  paired : Bool
  ents : List Nat
  codeOff : Nat
  codeSize : Nat
  paramSize : Nat
  nloop : Nat
  talk : Bool
  listen : Bool
  barn : Nat
  accb : Nat
  fifob : Nat
  scrb : Nat
  loops : List LoopEnt
  patches : List Patch
  rast : List W64
deriving DecidableEq, Repr

/-- A kernel id that is FREE. -/
def Kern.free : Kern :=
  { st := .free, ctx := 0, base := 0, paired := false, ents := [], codeOff := 0, codeSize := 0, paramSize := 0, nloop := 0,
    talk := false, listen := false, barn := 0, accb := 0, fifob := 0, scrb := 0, loops := [], patches := [], rast := [] }

/-- A packet that has been taken and has not completed (R117 to R123). -/
structure Pkt where
  seq : Nat
  typ : Nat
  order : Bool
  cint : Bool
  kid : Nat
  param : W64
  recaddr : W64
  sumaddr : W64
  compctr : W64
  place : W64
  /-- trigger counters: virtual address, physical address, threshold, fired -/
  trigs : List (W64 × Nat × W32 × Bool)
  gangId : W32
  gangMask : W64
  gtmo : Nat
  /-- the parameter block has been read (R80) -/
  captured : Bool
  params : List Byte
  loops : List LoopEnt
  /-- rasterised spatial points in range, without repeats (R83) -/
  points : List (List Nat)
  /-- cores on which groups of the packet were placed -/
  cores : List Nat
  /-- spatial points of the launch, points dispatched so far, the next point in lexicographic order, groups of a point -/
  total : Nat
  next : Nat
  lex : Nat
  halves : Nat
  /-- the TABLE entry read for the next group (R122) -/
  entry : Option Nat
  /-- core cycle from which SPILL counts, and whether it has expired -/
  spillFrom : Option Nat
  spilled : Bool
  retired : Nat
  counts : List Nat
  first : W64
  faultva : W64
  /-- no further group will be dispatched -/
  dispatched : Bool
  /-- STATUS of the summary once the packet failed (Table 7-6), 0 while it has not -/
  status : Nat
  /-- its summary has been written or skipped (R123 step 2) -/
  summed : Bool
deriving DecidableEq, Repr

/-- Queue states of Table 7-2. -/
inductive QState where
  | off | ready | paused | error | draining
deriving DecidableEq, Repr

/-- A work queue (R113 to R116, R120). `tail` and `head` count modulo 2^16. -/
structure Queue where
  st : QState
  ring : W64
  ctx : Nat
  log2n : Nat
  prio : Nat
  devok : Bool
  quant : Nat
  deadline : Nat
  head : Nat
  tail : Nat
  deficit : Int
  pkts : List Pkt
  /-- the untaken packet that DISABLE is completing FLUSHED (R115) -/
  flushing : Option Pkt
deriving DecidableEq, Repr

/-- A queue that is OFF. -/
def Queue.off : Queue :=
  { st := .off, ring := 0, ctx := 0, log2n := 4, prio := 0, devok := false, quant := 0, deadline := 0, head := 0, tail := 0,
    deficit := 0, pkts := [], flushing := none }

/-- The host registers that hold what the host wrote, and the results of commands (Table 20-1). -/
structure HostRegs where
  ctxbase : W64
  ctxcmd : W64
  kaddr : W64
  kcmd : W64
  qtbase : W64
  qcmd : W64
  qdb : W64
  ginth : W64
  gintv : W64
  promh : W64
  proma : W64
  proms : W64
  ilbase : W64
  ilcmd : W64
  migh : W64
  evbase : W64
  evctl : W64
  evtail : W64
  evhead : W64
  cgbase : W64
  lwgt : W64
  fibmode : W64
  attaddr : W64
  routes : List W64
deriving DecidableEq, Repr

/-- Host registers at reset: LWGT 0x2448 (R358), the others 0 (log entry 1). -/
def HostRegs.reset : HostRegs :=
  { ctxbase := 0, ctxcmd := 0, kaddr := 0, kcmd := 0, qtbase := 0, qcmd := 0, qdb := 0, ginth := 0, gintv := 0,
    promh := 0, proma := 0, proms := 0, ilbase := 0, ilcmd := 0, migh := 0, evbase := 0, evctl := 0, evtail := 0,
    evhead := 0, cgbase := 0, lwgt := 0x2448, fibmode := 0, attaddr := 0, routes := List.replicate 64 0 }

/-- A migration in progress or queued (R326, R327). -/
structure Migr where
  ctx : Nat
  va : W64
  dst : Nat
  ctr : W64
  stat : W64
  step : Nat
  status : Nat
  level : Nat
  src : Nat
  leafPa : Nat
  leaf : W64
  /-- bytes copied so far from another module -/
  done : Nat
deriving DecidableEq, Repr

/-- What another member of a collective has sent (R352, R353, R356): collective group, sequence number, the member's module, what it is (0 its
post, 1 its contribution to a bucket), the bucket, the offset in elements and the words. -/
structure CollMsg where
  cg : Nat
  seq : Nat
  m : Nat
  kind : Nat
  bucket : Nat
  off : Nat
  words : List W64
deriving DecidableEq, Repr

/-- A posted collective (R350 to R357). -/
structure Coll where
  handle : W64
  pc : W64
  word : W32
  elem : Nat
  cnt : W64
  blockVa : W64
  ctx : Nat
  words : List W64
  since : Nat
  /-- module ids by rank, and this module's rank, as the group's entry gave them at the post (R349) -/
  mods : List Nat
  rank : Nat
  matched : Bool
  /-- the translations made at the posting (R350): virtual page of 64 KiB, physical page, leaf -/
  pages : List (Nat × Nat × W64)
  /-- buckets whose trigger has fired (R353, R119) -/
  fired : List Nat
  /-- buckets that have begun, and those counted on DONECTR (R353) -/
  started : List Nat
  ended : List Nat
  /-- buckets whose DST elements are written (R353) -/
  written : List Nat
deriving DecidableEq, Repr

/-- Gang states of Table 19-9; `waiting` is a leader whose own packet has not started. -/
inductive GangState where
  | waiting | tentative | confirmed | aborted
deriving DecidableEq, Repr

/-- A gang at this member (R359, R360). -/
structure Gang where
  id : W32
  st : GangState
  queue : Nat
  pkt : Nat
  mask : W64
  gtmo : Nat
  readyFrom : W64
  since : Nat
  asked : Option Nat
  queries : List Nat
  decided : Option Bool
  decidedAt : Nat
  lacked : Nat
deriving DecidableEq, Repr

/-- States of an Avdon link (Table 19-1). -/
inductive LinkState where
  | down | training | up | degraded | fenced
deriving DecidableEq, Repr

/-- An Avdon link of this module (R340, R341, R343): working wavelengths, training failures, sequence numbers, the
replay buffer of sent flits, the resends of each of them, consecutive ack timeouts, the packet being received, and
the NAK flit that has been sent since the last accepted flit, and what is left of each weighted class's share of slots (R358). -/
structure Link where
  st : LinkState
  waves : Nat
  replays : Nat
  failed : Nat
  neighbour : Nat
  nextSeq : Nat
  expSeq : Nat
  unacked : List (BitVec 512)
  tries : List Nat
  timeouts : Nat
  /-- core cycle of the last ACK progress, resend or first unacknowledged flit (R343) -/
  since : Nat
  partialPkt : List (BitVec 512)
  nak : Option (BitVec 512)
  credits : List Int
deriving DecidableEq, Repr

/-- A link at reset: DOWN. -/
def Link.reset : Link :=
  { st := .down, waves := 0, replays := 0, failed := 0, neighbour := 0, nextSeq := 0, expSeq := 0, unacked := [],
    tries := [], timeouts := 0, since := 0, partialPkt := [], nak := none, credits := [0, 0, 0, 0] }

/-- Traffic to one destination module (R345, R347): requests without an answer in order of sending, requests held by a
reroute, the next RID, the core cycle in which a reroute in progress began, and the reply cache kept for that module as a
source. -/
structure Dest where
  unans : List Packet
  held : List Packet
  rid : Nat
  reroute : Option Nat
  cache : List (Nat × Packet)
deriving DecidableEq, Repr

/-- No traffic. -/
def Dest.reset : Dest := { unans := [], held := [], rid := 0, reroute := none, cache := [] }

/-- Who asked for a promotion (R300, R302, R346): the host, another module with its tag, a group of this module, or a group that has
stopped waiting. -/
inductive PromSrc where
  | host
  | remote (m : Nat) (tag : BitVec 16)
  | own (h : BitVec 64)
  | gone
  /-- no request: the group's eager promotion (R298) -/
  | eager
deriving DecidableEq, Repr

/-- A promotion request at its target (Table 15-2): the flag line, the context of the issuer where it has one, whether its lookup has
found the line, whether its promotion is in progress, and, for a group of this module, the answer and the module that a promotion
went on without (R348). -/
structure Prom where
  target : W64
  src : PromSrc
  line : Nat
  ctx : Option Nat
  hit : Bool
  run : Bool
  ans : Option (Nat × Nat)
deriving DecidableEq, Repr

/-- A completion that a host port returned (R332, R368): data, or the error completion. -/
inductive HostReply where
  | data (pa : Nat) (bytes : List Byte)
  | error (pa : Nat)
deriving DecidableEq, Repr

/-- The events of the table of operations that have no instruction word, with what they carry, as the agenda holds them;
each stands for the constructor of `Instr` of the same name. -/
inductive Event where
  | vectorResultWrite (h : BitVec 64)
  | vldChecksDecided (h : BitVec 64)
  | vldReplay (h : BitVec 64)
  | latchWrite (h : BitVec 64)
  | vectorElement (h : BitVec 64)
  | vquantGroup (h : BitVec 64)
  | copyElement (h : BitVec 64)
  | tileCommandStart (h : BitVec 64)
  | frameStart (h : BitVec 64) (dark : BitVec 68) (pre : List (BitVec 64))
  | sessionTimeout (h : BitVec 64)
  | tileElement (h : BitVec 64) (laser : BitVec 1 × BitVec 68) (obs : List (BitVec 64 × BitVec 2 × List (BitVec 16)))
      (light : List (BitVec 16))
  | joinAdmitted (str : BitVec 3)
  | combFailoverDone (str : BitVec 3)
  | calibrationDone (str : BitVec 3) (found : BitVec 68 × List (BitVec 16))
  | streamEnded (h : BitVec 64) (st : BitVec 2)
  | trapDelivery (h : BitVec 64)
  | asyncFaultDelivery (h : BitVec 64)
  | preemptionDeadline (h : BitVec 64)
  | groupSave (h : BitVec 64)
  | groupRetire (h : BitVec 64)
  | packetTake (q : BitVec 15)
  | parameterBlockRead (q : BitVec 15)
  | groupDispatch
  | spillExpiry (q : BitVec 15)
  | packetComplete (q : BitVec 15) (n : BitVec 16)
  | ctxOpen (c : BitVec 8)
  | ctxSuspend (c : BitVec 8)
  | ctxResume (c : BitVec 8)
  | ctxClose (c : BitVec 8)
  | kernelLoad (c : BitVec 8) (kid : BitVec 12)
  | kernelLoadReadDone
  | kernelUnload (c : BitVec 8) (kid : BitVec 12)
  | queueEnable (q : BitVec 15)
  | queueDisable (q : BitVec 15)
  | queuePause (q : BitVec 15)
  | queueResume (q : BitVec 15)
  | queueReset (q : BitVec 15)
  | qdb (q : BitVec 15) (tail : BitVec 16)
  | gintv (v : BitVec 64)
  | proma (v : BitVec 64)
  | promoteRequest (h : BitVec 64) (line : BitVec 45) (c : BitVec 8) (src : BitVec 7) (tag : BitVec 16)
  | promotion (h : BitVec 64)
  | ilcmdInvalidatePage (c : BitVec 8) (va : BitVec 41) (sync : BitVec 1)
  | ilcmdInvalidateContext (c : BitVec 8) (sync : BitVec 1)
  | ilcmdInvalidateAll (sync : BitVec 1)
  | ilcmdSync
  | invalidationAppend (kind : BitVec 2) (c : BitVec 8) (va : BitVec 41)
  | pageWalk (core : BitVec 7) (c : BitVec 8) (va : BitVec 64)
  | migh (v : BitVec 64)
  | migrationStep (e : BitVec 1) (n : BitVec 4)
  | ftccfg (n : BitVec 2) (v : BitVec 64)
  | ftcChangeDone (n : BitVec 2)
  | attaddr (v : BitVec 64)
  | attestationReportDone (rep : List (BitVec 8))
  | fibmodeApply (port : BitVec 1)
  | routeWrite (n : BitVec 6) (v : BitVec 64)
  | hostRegisterWrite (off : BitVec 12) (v : BitVec 64)
  | hostMemoryRead (pa : BitVec 52) (n : BitVec 8)
  | hostMemoryWrite (pa : BitVec 52) (bytes : List (BitVec 8))
  | writeQueueRequest (n : BitVec 2)
  | cacheFill (l2 : BitVec 1) (unit : BitVec 7) (line victim : BitVec 45)
  | refresh (stack : BitVec 4) (row : BitVec 40)
  | bankFillDone (core : BitVec 7) (bank : BitVec 5)
  | bankWritebackDone (core : BitVec 7) (bank : BitVec 5)
  | packageReset (modid : BitVec 6) (cxl : BitVec 8) (fibre : BitVec 4) (sigs : BitVec 2)
  | functionReady (f : BitVec 8)
  | functionRestore (f : BitVec 8)
  | managementInstall (serial : BitVec 64) (neigh : List (BitVec 7))
  | powerLimitThrottle
  | coreFault (core : BitVec 7) (unreadable : List (BitVec 64))
  | spareTakeoverDone (die : BitVec 4)
  | correctableError (u : BitVec 8) (idx : BitVec 16) (count : BitVec 32)
  | storageLost (far : BitVec 1) (idx : BitVec 4)
  | linkTrained (n : BitVec 4) (waves : BitVec 5) (neighbour : BitVec 6)
  | linkTrainingFailed (n : BitVec 4)
  | wavelengthLost (n : BitVec 4)
  | lightLost (n : BitVec 4)
  | linkManagementReset (n : BitVec 4)
  | flitReceive (n : BitVec 4) (flit : BitVec 512)
  | nakReceive (n : BitVec 4) (seq : BitVec 12)
  | ackTimeout (n : BitVec 4)
  | rerouteResend (m : BitVec 6)
  | remoteRequest (p : Packet)
  | remoteReply (p : Packet)
  | collectiveMatch (cg : BitVec 8) (seq : BitVec 32) (posts : List (BitVec 64 × BitVec 64))
  | collectiveMatchTimeout (cg : BitVec 8) (seq : BitVec 32)
  | collectiveBucketStart (cg : BitVec 8) (seq b : BitVec 32)
  | collectiveBucketDone (cg : BitVec 8) (seq b : BitVec 32) (xs : List (List (BitVec 32)))
  | collectiveFailure (cg : BitVec 8) (seq : BitVec 32) (cause : BitVec 8) (m : BitVec 6)
  | gangReadyReceived (g : BitVec 32) (m : BitVec 6)
  | gangCommitReceived (g : BitVec 32)
  | gangAbortReceived (g : BitVec 32) (lacked : BitVec 6)
  | gangQueryReceived (g : BitVec 32) (m : BitVec 6)
  | gangLeaderTimeout (g : BitVec 32)
  | gangQueryTimeout (g : BitVec 32)
  | gangAnswerTimeout (g : BitVec 32)
  | linkLightDetected (n : BitVec 4)
  | gangDecisionExpiry (g : BitVec 32)
  | l2ReductionApplied (die : BitVec 4)
  | interruptPacket (h : BitVec 64) (v : BitVec 32) (c : BitVec 8) (src : BitVec 6) (tag : BitVec 16)
  | sessionControlFlit (str : BitVec 3) (kind : BitVec 2) (member : BitVec 14) (key : BitVec 6) (c : BitVec 8) (fields : BitVec 64)
  | farWriteCompletion (line : BitVec 45)
deriving DecidableEq, Repr

/-- What moves next: one stream of a group, or an event. -/
inductive Act where
  | issue (h : W64) (st : Stream)
  | event (e : Event)
  /-- an access of the host to `n` bytes at an offset of BAR0, a write where it has a value (R368) -/
  | access (off n : Nat) (w : Option W64)
  /-- the host masks or unmasks an entry of a port's MSI-X table (R369) -/
  | msiEntry (port : BitVec 2) (v : BitVec 11) (masked : Bool)
deriving DecidableEq, Repr

/-- The module. -/
structure State where
  cycle : Nat
  clockMHz : Nat
  modid : Nat
  cxlMask : BitVec 8
  fibStrap : BitVec 4
  /-- trained topology: module id, CXL mask, fibre modes, serial, neighbours of links 0 to 15, 64 for none (R363) -/
  topo : Nat × BitVec 8 × BitVec 4 × W64 × List Nat
  /-- the device's public keys, in the identity record (R365) -/
  keys : List Byte
  phase : Nat
  reason : Nat
  safe : Bool
  ready : List Nat
  farCap : List Nat
  host : HostRegs
  msiMask : List (List Nat)
  msiPend : List Nat
  msiSent : List (Nat × Nat)
  replies : List HostReply
  loading : Option (Nat × Nat)
  -- contexts, kernels, queues
  ctxs : List (Nat × Ctx)
  kerns : List (Nat × Kern)
  queues : List (Nat × Queue)
  serial : W32
  /-- for each priority, the queue whose turn it is (its id + 1, 0 for none), and whether the turn has passed (R120) -/
  turns : List (Nat × Bool)
  -- groups
  grp : Group
  others : List Group
  strm : Stream
  iw : W32
  ipc : W64
  agenda : List Act
  fresh : Nat
  -- cores, dies, memory
  cores : List Core
  dies : List Die
  ndies : List NDie
  mem : List Host.Cell
  spareEcc : List (Nat × BitVec 16)
  badBlocks : List Nat
  /-- lines whose contents are undefined (R282): from a line up to another, and the number that tells their values apart -/
  freed : List (Nat × Nat × Nat)
  lost : List Nat
  rowTimes : List (Nat × Nat)
  ilSeq : W32
  /-- a submission to MIGH that waits for another module (R346) -/
  mighWait : Option W64
  migActive : List (List Migr)
  migQueued : List (List Migr)
  -- strings
  strs : List Str
  -- fabric
  links : List Link
  dests : List Dest
  nextTag : BitVec 16
  /-- who sent each unanswered request: tag, destination, core, group handle -/
  tagOwner : List (BitVec 16 × Nat × Nat × W64)
  outbox : List Packet
  /-- reductions posted to other modules and not acknowledged, by tag (R148) -/
  remReds : List (BitVec 16 × RedReq)
  /-- corrected errors: unit and index, cycle of the last record, errors not yet recorded (R337) -/
  corrected : List ((Nat × Nat) × (Nat × Nat))
  colls : List Coll
  /-- the posts and contributions of other members, in the reduction slots (R356) -/
  slots : List CollMsg
  /-- accesses of other modules that the device makes for itself (R346), by the virtual address at which each begins -/
  devw : List RemoteWait
  /-- writes of the device itself to lines of other modules that have not been sent (R346): the line's address, byte mask, data -/
  devOut : List (Nat × BitVec 128 × BitVec 1024)
  /-- requests of other modules for storage that is NOT_READY, in order of arrival (R367) -/
  remWait : List Packet
  /-- whether the attestation report has been written and its bytes are on their way (R366) -/
  attSent : Bool
  gangs : List Gang
  proms : List Prom
deriving DecidableEq, Repr

/-- The module right after package reset (R363): no group, nothing cached, memory unwritten, every function not ready. -/
def State.reset : State :=
  { cycle := 0, clockMHz := 2000, modid := 0, cxlMask := 0xFF, fibStrap := 0,
    topo := (0, 0xFF, 0, 0, List.replicate 16 64), keys := [], phase := 0, reason := 0, safe := false,
    ready := List.replicate 161 0, farCap := List.replicate 8 0x10000000000, host := .reset,
    msiMask := [[], [], [], []], msiPend := [], msiSent := [], replies := [], loading := none, ctxs := [], kerns := [],
    queues := [], serial := 0, turns := List.replicate 8 (0, false), grp := .empty, others := [], strm := .s, iw := 0, ipc := 0, agenda := [],
    fresh := 0, cores := List.replicate 96 .reset, dies := List.replicate 12 .reset, ndies := List.replicate 4 .reset,
    mem := [], spareEcc := [], badBlocks := [], freed := [], lost := [], rowTimes := [], ilSeq := 0, mighWait := none, migActive := [[], []],
    migQueued := [[], []], strs := List.replicate 8 .reset, links := List.replicate 16 .reset,
    dests := List.replicate 64 .reset, nextTag := 0, tagOwner := [], outbox := [], remReds := [], corrected := [], colls := [], slots := [], devw := [], devOut := [],
    remWait := [], attSent := false, gangs := [], proms := [] }

end Sys2Proof.Machine
end

