-- ==== Sys2Proof/Machine/Base.lean ====
section
/-! DEFINITION. Lists as arrays and as sparse arrays, lines of 128 bytes, and the ways to read and to change one part of
the state: a core, a die, a group by its handle, a context, a queue. -/

namespace Sys2Proof.Machine

/-- A list with its element `i` changed by `f`. -/
def updAt {α : Type} : List α → Nat → (α → α) → List α
  | [], _, _ => []
  | x :: xs, 0, f => f x :: xs
  | x :: xs, i + 1, f => x :: updAt xs i f

/-- The value of key `k`, or `d` where it is unlisted. -/
def getA {α : Type} (l : List (Nat × α)) (k : Nat) (d : α) : α :=
  match l with
  | [] => d
  | p :: ps => if p.1 == k then p.2 else getA ps k d

/-- The list with key `k` holding `v`. -/
def setA {α : Type} (l : List (Nat × α)) (k : Nat) (v : α) : List (Nat × α) :=
  match l with
  | [] => [(k, v)]
  | p :: ps => if p.1 == k then (k, v) :: ps else p :: setA ps k v

/-- The list without key `k`. -/
def delA {α : Type} (l : List (Nat × α)) (k : Nat) : List (Nat × α) := l.filter (fun p => p.1 != k)

/-- Insertion of a number into an ascending list without repeats. -/
def insSorted (x : Nat) : List Nat → List Nat
  | [] => [x]
  | y :: ys => if x < y then x :: y :: ys else if x == y then y :: ys else y :: insSorted x ys

/-- A table of `n` entries. -/
def tab {α : Type} (n : Nat) (f : Nat → α) : List α := (List.range n).map f

/-- The lowest `i < n` with `f i`, or `n`. -/
def lowest (n : Nat) (f : Nat → Bool) : Nat := ((List.range n).find? f).getD n

/-- Bit `i` of a bit vector. -/
def bitAt {n : Nat} (x : BitVec n) (i : Nat) : Bool := x.toNat.testBit i

/-- The number whose bit `i < n` is `f i`. -/
def maskOf (n : Nat) (f : Nat → Bool) : Nat := (List.range n).foldl (fun acc i => if f i then acc + 2 ^ i else acc) 0

/-- Whether an address has bits 63:57 not all zero (R137). -/
def highVa (va : Nat) : Bool := va ≥ 2 ^ 57

-- Byte ranges held as cells ------------------------------------------------------------------------------------------

/-- The canonical form of memory: addresses strictly rising, no entry 0 (the value an unlisted byte reads as, log
entry 2). -/
def Memory.wf : List Host.Cell → Bool
  | [] => true
  | [c] => c.2 != 0
  | c :: d :: r => c.2 != 0 && c.1 < d.1 && Memory.wf (d :: r)

/-- The byte at an address; an unlisted byte reads 0 (log entry 2). -/
def Memory.byte (m : List Host.Cell) (a : Nat) : Byte :=
  match m with
  | [] => 0
  | c :: r => if c.1 == a then c.2 else Memory.byte r a

/-- The `n` bytes from `a` as a little-endian number. -/
def Memory.read (m : List Host.Cell) (a n : Nat) : Nat :=
  m.foldl (fun acc c => if a ≤ c.1 && c.1 < a + n then acc + c.2.toNat * 2 ^ (8 * (c.1 - a)) else acc) 0

/-- The cells of the `n` low bytes of `v` at `a`, zeros left out. -/
def cellsOf (a : Nat) : Nat → Nat → List Host.Cell
  | 0, _ => []
  | n + 1, v =>
    let b : Byte := BitVec.ofNat 8 v
    if b == 0 then cellsOf (a + 1) n (v / 256) else (a, b) :: cellsOf (a + 1) n (v / 256)

/-- Memory with the `n` bytes from `a` replaced by those of `v`, in canonical form. -/
def Memory.write (m : List Host.Cell) (a n v : Nat) : List Host.Cell :=
  m.filter (fun c => c.1 < a) ++ cellsOf a n v ++ m.filter (fun c => a + n ≤ c.1)

/-- A byte mask of 128 bits widened to the 1,024 bits of a line. -/
def spread (m : BitVec 128) : BitVec 1024 :=
  BitVec.ofNat 1024 ((List.range 128).foldl (fun acc i => if bitAt m i then acc + 255 * 2 ^ (8 * i) else acc) 0)

/-- The mask of bytes `off` to `off + n - 1` of a line. -/
def byteMask (off n : Nat) : BitVec 128 := BitVec.ofNat 128 ((2 ^ n - 1) * 2 ^ off)

/-- A line with the masked bytes of `new` in place of those of `old`. -/
def mergeLine (old new : BitVec 1024) (m : BitVec 128) : BitVec 1024 :=
  if m == BitVec.allOnes 128 then new
  else
    let s := spread m
    (old &&& ~~~s) ||| (new &&& s)

/-- The four 32-byte sectors as a byte mask (R271). -/
def sectorMask (p : BitVec 4) : BitVec 128 :=
  BitVec.ofNat 128 ((List.range 4).foldl (fun acc i => if bitAt p i then acc + (2 ^ 32 - 1) * 2 ^ (32 * i) else acc) 0)

/-- The sectors touched by bytes `off` to `off + n - 1` of a line. -/
def sectorsOf (off n : Nat) : BitVec 4 :=
  BitVec.ofNat 4 (maskOf 4 (fun i => off < 32 * i + 32 && 32 * i < off + n))

/-- The 64-byte blocks touched by bytes `off` to `off + n - 1` of a line. -/
def blocksOf (off n : Nat) : BitVec 2 :=
  BitVec.ofNat 2 (maskOf 2 (fun i => off < 64 * i + 64 && 64 * i < off + n))

/-- Bytes `off` to `off + n - 1` of a line, as a number. -/
def lineRead (d : BitVec 1024) (off n : Nat) : Nat := d.toNat / 2 ^ (8 * off) % 2 ^ (8 * n)

/-- A line holding the number `v` from byte `off` on. -/
def lineAt (off v : Nat) : BitVec 1024 := BitVec.ofNat 1024 (v * 2 ^ (8 * off))

/-- The byte list of a number. -/
def bytesOf (n v : Nat) : List Byte := (List.range n).map (fun i => BitVec.ofNat 8 (v / 2 ^ (8 * i)))

-- Parts of the state -------------------------------------------------------------------------------------------------

/-- Core `c`. -/
def State.core (s : State) (c : Nat) : Core := s.cores.getD c .reset
/-- The state with core `c` changed. -/
def State.updCore (s : State) (c : Nat) (f : Core → Core) : State := { s with cores := updAt s.cores c f }
/-- C-die `d`. -/
def State.die (s : State) (d : Nat) : Die := s.dies.getD d .reset
/-- The state with C-die `d` changed. -/
def State.updDie (s : State) (d : Nat) (f : Die → Die) : State := { s with dies := updAt s.dies d f }
/-- N-die `n`. -/
def State.ndie (s : State) (n : Nat) : NDie := s.ndies.getD n .reset
/-- The state with N-die `n` changed. -/
def State.updNDie (s : State) (n : Nat) (f : NDie → NDie) : State := { s with ndies := updAt s.ndies n f }
/-- The C-die of a core (R10). -/
def dieOf (core : Nat) : Nat := core / 8
/-- String `n`. -/
def State.str (s : State) (n : Nat) : Str := s.strs.getD n .reset
/-- The state with string `n` changed. -/
def State.updStr (s : State) (n : Nat) (f : Str → Str) : State := { s with strs := updAt s.strs n f }
/-- Context `c` (R56). -/
def State.ctx (s : State) (c : Nat) : Ctx := getA s.ctxs c .free
/-- The state with context `c` changed. -/
def State.updCtx (s : State) (c : Nat) (f : Ctx → Ctx) : State := { s with ctxs := setA s.ctxs c (f (s.ctx c)) }
/-- Kernel id `k` (R76). -/
def State.kern (s : State) (k : Nat) : Kern := getA s.kerns k .free
/-- The state with kernel id `k` changed. -/
def State.updKern (s : State) (k : Nat) (f : Kern → Kern) : State := { s with kerns := setA s.kerns k (f (s.kern k)) }
/-- Queue `q` (R113). -/
def State.queue (s : State) (q : Nat) : Queue := getA s.queues q .off
/-- The state with queue `q` changed. -/
def State.updQueue (s : State) (q : Nat) (f : Queue → Queue) : State :=
  { s with queues := setA s.queues q (f (s.queue q)) }
/-- Avdon link `n`. -/
def State.link (s : State) (n : Nat) : Link := s.links.getD n .reset
/-- The state with link `n` changed. -/
def State.updLink (s : State) (n : Nat) (f : Link → Link) : State := { s with links := updAt s.links n f }
/-- Traffic to module `m`. -/
def State.dest (s : State) (m : Nat) : Dest := s.dests.getD m .reset
/-- The state with the traffic to module `m` changed. -/
def State.updDest (s : State) (m : Nat) (f : Dest → Dest) : State := { s with dests := updAt s.dests m f }
/-- The group in focus changed. -/
def State.updGrp (s : State) (f : Group → Group) : State := { s with grp := f s.grp }

/-- Every group the device holds: the one in focus and the others. -/
def State.groups (s : State) : List Group := (s.grp :: s.others).filter (fun g => g.st != .none)

/-- The group of a handle. -/
def State.groupOf (s : State) (h : W64) : Option Group := s.groups.find? (fun g => g.handle == h)

/-- Every group for which `p` holds, changed by `f`. -/
def State.updGroups (s : State) (p : Group → Bool) (f : Group → Group) : State :=
  { s with grp := if s.grp.st != .none && p s.grp then f s.grp else s.grp,
           others := s.others.map (fun g => if p g then f g else g) }

/-- The group of a handle changed. -/
def State.updGroup (s : State) (h : W64) (f : Group → Group) : State := s.updGroups (fun g => g.handle == h) f

/-- The state with the group of handle `h` in focus; unchanged where there is none. -/
def State.focus (s : State) (h : W64) : State :=
  if s.grp.st != .none && s.grp.handle == h then s
  else
    match s.others.find? (fun g => g.handle == h) with
    | none => s
    | some g =>
      { s with grp := g, others := (if s.grp.st == .none then [] else [s.grp]) ++ s.others.filter (fun x => x.handle != h) }

/-- Whether the group of handle `h` is in focus. -/
def State.focused (s : State) (h : W64) : Bool := s.grp.st != .none && s.grp.handle == h

/-- The state with the fresh counter advanced: the number before is the argument of a free value (log entry 7). -/
def State.tick1 (s : State) : State := { s with fresh := s.fresh + 1 }

/-- The state with acts appended to the agenda. -/
def State.post (s : State) (as : List Act) : State := { s with agenda := s.agenda ++ as }

/-- The state with an event appended to the agenda. -/
def State.postE (s : State) (e : Event) : State := s.post [.event e]

/-- The module's own id (R338). -/
def State.mod (s : State) : Nat := s.modid

-- Results of an access -----------------------------------------------------------------------------------------------

/-- A fault as an access finds it: code, ADDR and DETAIL of Table 18-1, and whether it is an error of the barrier store (R335). -/
structure Exc where
  code : Nat
  addr : W64
  detail : W32
  bar : Bool := false
deriving DecidableEq, Repr

/-- How an access or an instruction body ends: with a value, with a fault, or waiting (the stream is BLOCKED and the
instruction re-issues whole). The state of a fault or a wait differs from the one before only where no architected
effect lies (caches, translations, requests sent). -/
inductive Acc (α : Type) where
  | ok (a : α) (s : State)
  | fault (e : Exc) (s : State)
  | wait (s : State)

/-- One access after another. -/
def Acc.bind {α β : Type} (x : Acc α) (f : α → State → Acc β) : Acc β :=
  match x with
  | .ok a s => f a s
  | .fault e s => .fault e s
  | .wait s => .wait s

/-- A check: the fault where `p` holds. -/
def Acc.guard (p : Bool) (e : Exc) (s : State) : Acc Unit := if p then .fault e s else .ok () s

/-- The fault of a code with an address. -/
def exc (code addr : Nat) (detail : Nat := 0) : Exc :=
  { code := code, addr := BitVec.ofNat 64 addr, detail := BitVec.ofNat 32 detail }

/-- Code 1 (Table 18-1). -/
abbrev cILLEGAL : Nat := 1
/-- Code 2. -/
abbrev cFETCH : Nat := 2
/-- Code 3. -/
abbrev cPAGE : Nat := 3
/-- Code 4. -/
abbrev cACCESS : Nat := 4
/-- Code 5. -/
abbrev cALIGN : Nat := 5
/-- Code 6. -/
abbrev cBANKCONF : Nat := 6
/-- Code 7. -/
abbrev cBANKMODE : Nat := 7
/-- Code 8. -/
abbrev cFMTUNDER : Nat := 8
/-- Code 9. -/
abbrev cFMTINV : Nat := 9
/-- Code 10. -/
abbrev cORPHAN : Nat := 10
/-- Code 11. -/
abbrev cSKEW : Nat := 11
/-- Code 12. -/
abbrev cACCUN : Nat := 12
/-- Code 13. -/
abbrev cACCBAND : Nat := 13
/-- Code 14. -/
abbrev cMASKSTK : Nat := 14
/-- Code 15. -/
abbrev cSESSMM : Nat := 15
/-- Code 16. -/
abbrev cSESSTO : Nat := 16
/-- Code 17. -/
abbrev cWINFAIL : Nat := 17
/-- Code 18. -/
abbrev cSAT : Nat := 18
/-- Code 19. -/
abbrev cMEMUNC : Nat := 19
/-- Code 20. -/
abbrev cLINKDOWN : Nat := 20
/-- Code 21. -/
abbrev cGANGAB : Nat := 21
/-- Code 22. -/
abbrev cBARRANGE : Nat := 22

end Sys2Proof.Machine
end

