-- ==== Sys2Proof/Machine/Home.lean ====
section
/-! DEFINITION. The homes of chapter 14: the physical address map (R267, R268), the arrays of HBM4E and far memory with
their uncorrectable blocks (R277, R332), the far-tier caches (R282 to R287, R380, R381), the event ring (R337), the
interrupts to the host (R369), and what a write performed at a home wakes (R119, R125). A line number is a physical
address divided by 128. -/

namespace Sys2Proof.Machine

-- The physical address map -------------------------------------------------------------------------------------------

/-- Start of the far tier (Table 14-1). -/
abbrev farBase : Nat := 0x100000000000
/-- Start of the remote aperture (Table 14-1). -/
abbrev remoteBase : Nat := 0x8000000000000

/-- Whether an address lies in the populated part of a near-tier stack (Table 14-1). -/
def nearPop (pa : Nat) : Bool := pa < 0xC000000000 && pa % 0x1000000000 < 64000000000
/-- Whether an address lies in the far-tier range. -/
def farRange (pa : Nat) : Bool := farBase ≤ pa && pa < 0x180000000000
/-- The CXL link of a far address. -/
def farLink (pa : Nat) : Nat := (pa - farBase) / 0x10000000000
/-- Whether a far address lies within the capacity of its expander (R267, R281). -/
def farPop (s : State) (pa : Nat) : Bool :=
  farRange pa && bitAt s.cxlMask (farLink pa) && (pa - farBase) % 0x10000000000 < s.farCap.getD (farLink pa) 0
/-- Whether an address lies in the collective aperture. -/
def inCollective (pa : Nat) : Bool := 0x400000000000 ≤ pa && pa < 0x800000000000
/-- Whether an address lies in the remote aperture. -/
def inRemote (pa : Nat) : Bool := remoteBase ≤ pa && pa < 0x10000000000000
/-- The module that a remote-aperture address names (bits 50:45). -/
def remoteMod (pa : Nat) : Nat := pa / 2 ^ 45 % 64
/-- The size in bytes of the far-tier cache region of SIZE `z` (R282). -/
def ftcBytes (z : Nat) : Nat := if z == 0 then 0 else 2 ^ (z - 1) * 0x10000000
/-- Whether a near-tier address lies inside an enabled far-tier cache region (R282). -/
def inFtc (s : State) (pa : Nat) : Bool :=
  s.ndies.any (fun n => n.ftcSize != 0 && n.ftcBase ≤ pa && pa < n.ftcBase + ftcBytes n.ftcSize)
/-- Whether module `m` is assigned in the fabric: it is this module, a trained neighbour, or has a valid route
(R267, R339; DEDUCED, log entry 19). -/
def modAssigned (s : State) (m : Nat) : Bool :=
  (s.host.routes.getD m 0).toNat / 256 % 4 != 0 || s.links.any (fun l => (l.st == .up || l.st == .degraded) && l.neighbour == m)
/-- Whether an address is populated near-tier or far-tier memory of this module. -/
def ownMem (s : State) (pa : Nat) : Bool := (nearPop pa && !inFtc s pa) || farPop s pa
/-- R267, R317 step 4, R356: whether a translated access may go to a physical address. -/
def populated (s : State) (pa : Nat) : Bool :=
  ownMem s pa || (inRemote pa && remoteMod pa != s.modid && modAssigned s (remoteMod pa))

/-- R268: the N-die that is the home of an address; `hq` is the home quadrant of its page, none for a physical access. -/
def homeOf (pa : Nat) (hq : Option Nat) : Nat :=
  if farRange pa then hq.getD (farLink pa / 2) else pa / 0x1000000000 / 3

-- The arrays ---------------------------------------------------------------------------------------------------------

/-- Whether the stack or the expander of an address is lost (R334). Stacks are numbered 0 to 11, expanders 16 to 23. -/
def lostAt (s : State) (pa : Nat) : Bool :=
  s.lost.contains (if farRange pa then 16 + farLink pa else pa / 0x1000000000)

/-- The uncorrectable blocks of a line. -/
def rawBad (s : State) (line : Nat) : BitVec 2 :=
  if lostAt s (128 * line) then 3
  else BitVec.ofNat 2 ((if s.badBlocks.contains (2 * line) then 1 else 0) + if s.badBlocks.contains (2 * line + 1) then 2 else 0)

/-- The number that tells the undefined contents of a line apart, where they are undefined (R282). -/
def freedAt (s : State) (line : Nat) : Option Nat := (s.freed.find? (fun r => r.1 ≤ line && line < r.2.1)).map (fun r => r.2.2)

/-- Undefined contents of a line: free values (R282). -/
def freeLine (k line : Nat) : BitVec 1024 :=
  BitVec.ofNat 1024 ((List.range 128).foldl (fun acc i => acc + (Config.freeByte (128 * line + i) k).toNat * 2 ^ (8 * i)) 0)

/-- The data of a line in the arrays. -/
def rawRead (s : State) (line : Nat) : BitVec 1024 :=
  match freedAt s line with
  | some k => freeLine k line
  | none => BitVec.ofNat 1024 (Memory.read s.mem (128 * line) 128)

/-- The state in which the contents of a line are no longer undefined. -/
def defLine (s : State) (line : Nat) : State :=
  if (freedAt s line).isNone then s
  else { s with freed := s.freed.flatMap (fun r =>
    if r.1 ≤ line && line < r.2.1 then [(r.1, line, r.2.2), (line + 1, r.2.1, r.2.2)].filter (fun x => x.1 < x.2.1) else [r]) }

/-- R278: the activation of the row group of a line of HBM4E records the time. -/
def touchRow (s : State) (line : Nat) : State :=
  if farRange (128 * line) then s
  else { s with rowTimes := setA s.rowTimes (128 * line / 0x1000000000 * 2 ^ 40 + Config.rowGroup line % 2 ^ 40) s.cycle }

/-- The part of a byte mask that block `i` of a line covers. -/
def blockPart (mask : BitVec 128) (i : Nat) : Nat := mask.toNat / 2 ^ (64 * i) % 2 ^ 64

/-- R277: the bytes of a write that reach the array: none on lost storage, none in a block that is uncorrectable and not
covered whole. -/
def rawMask (s : State) (line : Nat) (mask : BitVec 128) : BitVec 128 :=
  let bad := rawBad s line
  let keep (i : Nat) : Nat :=
    let m := blockPart mask i
    if bitAt bad i && (m != 2 ^ 64 - 1 || lostAt s (128 * line)) then 0 else m * 2 ^ (64 * i)
  BitVec.ofNat 128 (keep 0 + keep 1)

/-- R277: a write of the masked bytes of a line to the arrays; a block covered whole loses its uncorrectable error. -/
def rawWrite (s : State) (line : Nat) (mask : BitVec 128) (data : BitVec 1024) : State :=
  let m := rawMask s line mask
  if m == 0 then (if mask == 0 then s else touchRow s line)
  else
    { defLine (touchRow s line) line with
      mem := Memory.write s.mem (128 * line) 128 (mergeLine (rawRead s line) data m).toNat,
      badBlocks := s.badBlocks.filter (fun b =>
        !((b == 2 * line && blockPart m 0 == 2 ^ 64 - 1) || (b == 2 * line + 1 && blockPart m 1 == 2 ^ 64 - 1))) }

/-- A far line marked poisoned in its expander (R277, R380). -/
def poison (s : State) (line : Nat) : State :=
  { s with badBlocks := insSorted (2 * line) (insSorted (2 * line + 1) s.badBlocks) }

-- Host registers ------------------------------------------------------------------------------------------------------

/-- Whether a function has not reported READY yet: what needs it waits (R367). -/
def notReady (s : State) (f : Nat) : Bool := s.ready.getD f 0 == 0

/-- Whether a string has not started yet, or the fibre port that it sends or takes its frames by (R205, R367). -/
def strDown (s : State) (n : Nat) : Bool := notReady s (144 + n) || (6 ≤ n && (s.str n).mode != 0 && notReady s (148 + n))

/-- The function that the storage of a physical address of the module belongs to: its HBM4E stack or its CXL link (R367). -/
def unitOf (pa : Nat) : Nat := if farRange pa then 120 + farLink pa else 108 + pa / 0x1000000000

/-- R363, R367: whether the host registers other than MODID, BOOTSTAT, READY and ATTADDR take writes: not in safe mode, and the
distributor has started. -/
def regOpen (s : State) : Bool := !s.safe && s.ready.getD 152 0 != 0

-- Interrupts to the host -----------------------------------------------------------------------------

/-- The lowest port that is READY and whose entry for the vector is unmasked (R369). -/
def msiPort (s : State) (v : Nat) : Option Nat :=
  (List.range 4).find? (fun p => s.ready.getD (156 + p) 0 == 1 && !(s.msiMask.getD p []).contains v)

/-- R369: an MSI-X message is sent, or waits for a port. -/
def raiseMsi (s : State) (v : Nat) : State :=
  match msiPort s v with
  | some p => { s with msiSent := s.msiSent ++ [(p, v)] }
  | none => { s with msiPend := s.msiPend ++ [v] }

/-- Interrupts that waited for a port are sent (R369). -/
def flushMsi (s : State) : State := s.msiPend.foldl raiseMsi { s with msiPend := [] }

-- The far-tier caches ------------------------------------------------------------------------------------------------

/-- Whether the far-tier cache of an N-die serves requests: enabled and no change in progress (R282). -/
def ftcOn (n : NDie) : Bool := n.ftcSize != 0 && !n.ftcBusy
/-- Number of slots for SIZE `z` (R283). -/
def ftcSlots (z : Nat) : Nat := 2 ^ (16 + z)
/-- R283: slot, tag and line index of a far line number (128-byte lines from the start of the far tier). -/
def ftcWhere (n : NDie) (line : Nat) : Nat × Nat × Nat :=
  let f := line - farBase / 128
  (f / 16 % ftcSlots n.ftcSize, f / 16 / ftcSlots n.ftcSize, f % 16)
/-- The near-tier line that holds line `i` of slot `sl` (R283). -/
def ftcLine (n : NDie) (sl i : Nat) : Nat := n.ftcBase / 128 + 16 * sl + i
/-- The far line number of line `i` of slot `sl` under a tag. -/
def ftcFar (n : NDie) (sl tag i : Nat) : Nat := farBase / 128 + (tag * ftcSlots n.ftcSize + sl) * 16 + i

/-- Table of R284: the two 16-bit metadata fields of a slot line. -/
def ftcMeta (s : State) (l : Nat) : Nat × Nat := ((getA s.spareEcc (2 * l) 0).toNat, (getA s.spareEcc (2 * l + 1) 0).toNat)
/-- R284: metadata with SSTATE 1 and the current epoch. -/
def ftcCurrent (n : NDie) (m : Nat × Nat) : Bool := m.2 / 2 ^ 13 % 4 == 1 && m.2 % 2 ^ 13 == n.epoch
/-- R380: whether a slot line is unreadable. -/
def ftcUnreadable (s : State) (l : Nat) : Bool := rawBad s l != 0
/-- R380: the tag that a slot holds, from its lowest readable line with current metadata. -/
def ftcTag (s : State) (n : NDie) (sl : Nat) : Option Nat :=
  let i := lowest 16 (fun i => !ftcUnreadable s (ftcLine n sl i) && ftcCurrent n (ftcMeta s (ftcLine n sl i)))
  if i < 16 then some ((ftcMeta s (ftcLine n sl i)).1 / 2) else none
/-- R284: whether slot line `i` hits for a tag. -/
def ftcHit (s : State) (n : NDie) (sl tag i : Nat) : Bool :=
  let l := ftcLine n sl i
  let m := ftcMeta s l
  !ftcUnreadable s l && ftcCurrent n m && m.1 % 2 == 1 && m.1 / 2 == tag
/-- D of a slot line. -/
def ftcDirty (s : State) (l : Nat) : Bool := (ftcMeta s l).2 / 2 ^ 15 == 1
/-- Metadata written to a slot line (R284), which activates its row group (R278). -/
def ftcSetMeta (s : State) (l tag v d sst epoch : Nat) : State :=
  { touchRow s l with
    spareEcc := setA (setA s.spareEcc (2 * l) (BitVec.ofNat 16 (tag * 2 + v))) (2 * l + 1)
      (BitVec.ofNat 16 (d * 2 ^ 15 + sst * 2 ^ 13 + epoch)) }
/-- A rewrite of both blocks of a slot line clears its error (R380). -/
def ftcClear (s : State) (l : Nat) : State :=
  { s with badBlocks := s.badBlocks.filter (fun b => b != 2 * l && b != 2 * l + 1) }

/-- R380: the metadata that a rewritten unreadable line receives. -/
def ftcRewrite (s : State) (n : NDie) (sl i : Nat) : State :=
  let l := ftcLine n sl i
  match ftcTag s n sl with
  | some t => ftcClear (ftcSetMeta s l t 0 0 1 n.epoch) l
  | none => ftcClear (ftcSetMeta s l 0 0 0 0 n.epoch) l

/-- A write of the masked bytes of a line by its home N-die; a far write is outstanding until its completion, and the write queue
entry serves the line with it meanwhile (R276, R285). -/
def lineWrite (s : State) (hn line : Nat) (mask : BitVec 128) (data : BitVec 1024) : State :=
  let s1 := rawWrite s line mask data
  if mask == 0 || !farRange (128 * line) then s1
  else s1.updNDie hn (fun n => { n with farWrites := insSorted line n.farWrites })

/-- R278: a look at the metadata of one slot line activates its row group. -/
def touchSlotLine (s : State) (hn line : Nat) : State :=
  let w := ftcWhere (s.ndie hn) line
  touchRow s (ftcLine (s.ndie hn) w.1 w.2.2)

/-- R278: a look for the tag that a slot holds reads the metadata of its 16 lines. -/
def touchSlot (s : State) (ni sl : Nat) : State := (List.range 16).foldl (fun s i => touchRow s (ftcLine (s.ndie ni) sl i)) s

/-- A readable slot line that is dirty is written to far memory and marked clean (R285, R286). -/
def ftcWriteGood (s : State) (ni sl i : Nat) : State :=
  let n := s.ndie ni
  let l := ftcLine n sl i
  if ftcCurrent n (ftcMeta s l) && (ftcMeta s l).1 % 2 == 1 && ftcDirty s l then
    let t := (ftcMeta s l).1 / 2
    ftcSetMeta (lineWrite s ni (ftcFar n sl t i) (BitVec.allOnes 128) (rawRead s l)) l t 1 0 1 n.epoch
  else s

/-- A valid slot line marked invalid, its metadata otherwise kept. -/
def ftcInvalidate (s : State) (ni sl i : Nat) : State :=
  let n := s.ndie ni
  let l := ftcLine n sl i
  ftcSetMeta s l ((ftcMeta s l).1 / 2) 0 0 1 n.epoch

/-- A complete line installed in a slot line (R286). -/
def ftcInstall (s : State) (ni sl tag i : Nat) (d : Bool) (data : BitVec 1024) : State :=
  let n := s.ndie ni
  let l := ftcLine n sl i
  rawWrite (ftcSetMeta (ftcClear s l) l tag 1 (if d then 1 else 0) 1 n.epoch) l (BitVec.allOnes 128) data

/-- What a home returns for a line: data, uncorrectable blocks, and the state after. -/
structure LineRead where
  data : BitVec 1024
  bad : BitVec 2
  st : State

/-- R380: whether the slot line of a far-tier cache that a line belongs to is unreadable: it never hits, and no block of it is served
from far memory. -/
def slotBad (s : State) (hn line : Nat) : Bool :=
  let n := s.ndie hn
  let w := ftcWhere n line
  farRange (128 * line) && ftcOn n && ftcUnreadable s (ftcLine n w.1 w.2.2)

/-- R285: a read of a line at its home, by the entry of its write queue. -/
def homeRead0 (s : State) (hn line : Nat) : LineRead :=
  if farRange (128 * line) && ftcOn (s.ndie hn) then
    let n := s.ndie hn
    let w := ftcWhere n line
    let l := ftcLine n w.1 w.2.2
    if ftcUnreadable s l then { data := 0, bad := 3, st := touchRow s l }
    else if ftcHit s n w.1 w.2.1 w.2.2 then
      { data := rawRead s l, bad := 0, st := ftcInvalidate (ftcWriteGood (touchRow s l) hn w.1 w.2.2) hn w.1 w.2.2 }
    else { data := rawRead s line, bad := rawBad s line, st := touchRow s l }
  else { data := rawRead s line, bad := rawBad s line, st := touchRow s line }

-- What a write at a home wakes ---------------------------------------------------------------------------------------

/-- (int32)(c − θ) ≥ 0 (R119). -/
def reached (c t : W32) : Bool := !bitAt (c - t) 31

/-- The `n32` counter at a physical address as its home holds it: in a far-tier cache that holds its line, else in the
arrays. -/
def counterAt (s : State) (pa : Nat) : W32 :=
  let line := pa / 128
  let hn := ((List.range 4).find? (fun k =>
    farRange pa && ftcOn (s.ndie k) &&
      ftcHit s (s.ndie k) (ftcWhere (s.ndie k) line).1 (ftcWhere (s.ndie k) line).2.1 (ftcWhere (s.ndie k) line).2.2)).getD
      (homeOf pa none)
  BitVec.ofNat 32 (lineRead (homeRead0 s hn line).data (pa % 128) 4)

/-- R119: the armed triggers of a packet re-evaluated after a write to a line. -/
def fireTrigs (s : State) (line : Nat) (p : Pkt) : Pkt :=
  { p with trigs := p.trigs.map (fun t =>
      if t.2.1 / 128 == line && !t.2.2.2 && reached (counterAt s t.2.1) t.2.2.1 then (t.1, t.2.1, t.2.2.1, true) else t) }

/-- R125: a `sig.wait` whose counter lies on a written line keeps the first value that satisfies its test. -/
def wakeSig (s : State) (line : Nat) (g : Group) : Group :=
  match g.swait with
  | some w =>
    if w.loc / 128 == line && w.got.isNone && reached (counterAt s w.loc) w.tested then
      { g with swait := some { w with got := some (counterAt s w.loc) } }
    else g
  | none => g

/-- The physical address of the trigger counter of a posted collective, none where it names none (R350). -/
def Coll.trigPa (c : Coll) : Option Nat :=
  let va := fieldOf (c.words.getD 4 0) 56 0
  if va == 0 then none else (c.pages.find? (fun p => p.1 == va / 65536)).map (fun p => p.2.1 * 65536 + va % 65536)

/-- R353: the buckets of a collective whose trigger has fired once its counter holds a value; a trigger that has fired stays fired (R119). -/
def Coll.fire (c : Coll) (v : W32) : Coll :=
  let n := fieldOf (c.words.getD 3 0) 31 0
  let b := fieldOf (c.words.getD 3 0) 63 32
  { c with fired := (List.range ((n + b - 1) / b)).filter (fun k =>
      c.fired.contains k || reached v (BitVec.ofNat 32 (fieldOf (c.words.getD 5 0) 31 0 + k))) }

/-- R119, R125, R353: what a write performed at a home re-evaluates. -/
def noticeWrite (s : State) (line : Nat) : State :=
  let s0 := if s.queues.isEmpty then s
    else { s with queues := s.queues.map (fun q => (q.1, { q.2 with pkts := q.2.pkts.map (fireTrigs s line) })) }
  let s1 := if s.colls.isEmpty then s0
    else { s0 with colls := s0.colls.map (fun c => match c.trigPa with
      | some pa => if pa / 128 == line && pa < remoteBase then c.fire (counterAt s pa) else c
      | none => c) }
  if s1.groups.any (fun g => g.swait.isSome) then s1.updGroups (fun g => g.swait.isSome) (wakeSig s1 line) else s1

/-- R381 and R277: a write that reaches its home in another way than an L2 write-back, by the entry of its write queue. -/
def homeWrite0 (s : State) (hn line : Nat) (mask : BitVec 128) (data : BitVec 1024) : State :=
  let s1 :=
    if farRange (128 * line) && ftcOn (s.ndie hn) then
      let n := s.ndie hn
      let w := ftcWhere n line
      let s := touchSlotLine s hn line
      if ftcHit s n w.1 w.2.1 w.2.2 then ftcInvalidate (ftcWriteGood s hn w.1 w.2.2) hn w.1 w.2.2 else s
    else s
  noticeWrite (lineWrite s1 hn line mask data) line

-- The event ring ------------------------------------------------------------------------------------------------------

/-- What records an event: UNIT, INDEX, ACTION, COUNT, ADDR and HANDLE of its record (R337). -/
abbrev Note := State → Nat → Nat → Nat → Nat → Nat → W64 → State

/-- R337: an event record, or one more LOST. The record is written by `put` at the physical home of its address (R268, R381). -/
def recordBy (put : State → Nat → Nat → BitVec 128 → BitVec 1024 → State) : Note := fun s unit idx action count addr handle =>
  let l := s.host.evctl.toNat % 16
  let tail := s.host.evtail.toNat
  if l < 4 || l > 12 then s
  else if (tail + 2 ^ 32 - s.host.evhead.toNat % 2 ^ 32) % 2 ^ 32 < 2 ^ l then
    let at' := s.host.evbase.toNat / 2 ^ 12 * 2 ^ 12 + 32 * (tail % 2 ^ l)
    let v := (unit * 2 ^ 56 + idx * 2 ^ 40 + action * 2 ^ 32 + count % 2 ^ 32) + s.cycle % 2 ^ 64 * 2 ^ 64 + addr * 2 ^ 128 +
      handle.toNat * 2 ^ 192
    let mask := byteMask (at' % 128) 32
    let data := lineAt (at' % 128) v
    let s := { s with host := { s.host with evtail := BitVec.ofNat 64 ((tail + 1) % 2 ^ 32) } }
    let s :=
      if nearPop at' || farPop s at' then put s (homeOf at' none) (at' / 128) mask data
      else if inRemote at' then { s with devOut := s.devOut ++ [(at' / 128 * 128, mask, data)] }
      else s
    if s.host.evctl.toNat / 256 % 2 == 1 then raiseMsi s 0 else s
  else
    let lost := min 65535 (s.host.evctl.toNat / 65536 % 65536 + 1)
    { s with host := { s.host with evctl := BitVec.ofNat 64 (s.host.evctl.toNat % 65536 + lost * 65536) } }

-- Arrivals at a home ----------------------------------------------------------------------------------------------------

/-- A slot line that is dirty, or whose D cannot be read, is written to far memory (R286, R380); readable data as it is,
an unreadable line as poison where its location is known. The slot line itself is marked clean, or rewritten. -/
def ftcWriteOutBy (note : Note) (s : State) (ni sl i : Nat) : State :=
  let n := s.ndie ni
  let l := ftcLine n sl i
  let s := touchRow s l
  if ftcUnreadable s l then
    if bitAt (rawBad s l) 1 || (ftcDirty s l && ftcCurrent n (ftcMeta s l)) then
      let s1 := match ftcTag s n sl with
        | some t => poison s (ftcFar n sl t i)
        | none => s
      ftcRewrite (note s1 4 ni 5 1 (128 * l) 0) n sl i
    else s
  else ftcWriteGood s ni sl i

/-- R286, R380: a write-back or eviction of a line from an L2 arrives at its home with its present and dirty bytes. -/
def homeWbBy (note : Note) (s : State) (hn line : Nat) (dirty present : BitVec 128) (data : BitVec 1024) : State :=
  let anyD := dirty != 0
  let s1 :=
    if farRange (128 * line) && ftcOn (s.ndie hn) then
      let n := s.ndie hn
      let w := ftcWhere n line
      let l := ftcLine n w.1 w.2.2
      let s := touchSlot s hn w.1
      if ftcTag s n w.1 == some w.2.1 then
        if ftcHit s n w.1 w.2.1 w.2.2 then
          let s1 := rawWrite s l dirty data
          if anyD then ftcSetMeta s1 l w.2.1 1 1 1 n.epoch else s1
        else if present == BitVec.allOnes 128 then ftcInstall s hn w.1 w.2.1 w.2.2 anyD data
        else lineWrite s hn line dirty data
      else if present == BitVec.allOnes 128 then
        let s1 := (List.range 16).foldl (fun s i => ftcWriteOutBy note s hn w.1 i) s
        let s2 := (List.range 16).foldl (fun s i =>
          ftcSetMeta s (ftcLine n w.1 i) w.2.1 0 0 1 n.epoch) s1
        ftcInstall s2 hn w.1 w.2.1 w.2.2 anyD data
      else lineWrite s hn line dirty data
    else lineWrite s hn line dirty data
  if anyD then noticeWrite s1 line else s1

/-- An atomic at a home (R146, R147, R285): the old value of the `w` bytes at an address, none where its block is bad, by
the entry of its write queue. -/
def homeAtomicBy (note : Note) (s : State) (hn pa w : Nat) (f : Nat → Nat) : Option (Nat × State) :=
  let line := pa / 128
  let r := homeRead0 s hn line
  if r.bad &&& blocksOf (pa % 128) w != 0 then none
  else
    let old := lineRead r.data (pa % 128) w
    let m := byteMask (pa % 128) w
    let data := mergeLine r.data (lineAt (pa % 128) (f old % 2 ^ (8 * w))) m
    if farRange pa then some (old, homeWbBy note r.st hn line m (if r.bad == 0 then BitVec.allOnes 128 else m) data)
    else some (old, noticeWrite (rawWrite r.st line m data) line)

/-- The state after an atomic at a home that met an uncorrectable block: the line has been read (R278). -/
def atomicMissed0 (s : State) (hn pa : Nat) : State := (homeRead0 s hn (pa / 128)).st

/-- DETAIL source of MEM_UNCORRECTABLE for a global address read at its home (R332): far memory, unless a far-tier cache slot is what
cannot be read. -/
def memSource (s : State) (hn pa : Nat) : Nat := if farRange pa && !slotBad s hn (pa / 128) then 3 else 0

-- Write queues (R276) -------------------------------------------------------------------------------------------------

/-- R148: a reduction that met an uncorrectable error leaves its fault for the reduction-ordering instruction. -/
def redFault (s : State) (r : RedReq) (e : Exc) : State :=
  let f : FaultInfo := { code := cMEMUNC, stream := 0, async := true, imprecise := true, elvalid := false, element := 0, pc := 0,
                         addr := r.va, ipc := r.pc, word := r.word, detail := e.detail, opa := r.va,
                         opb := r.opnd, opc := 0, cycle := s.cycle }
  s.updGroup r.handle (fun g => { g with redFaults := g.redFaults ++ [(f, r.scope)] })

/-- The error of consuming an uncorrectable block of a source (R332). -/
def uncorrectable (va src : Nat) : Exc := exc cMEMUNC va src

/-- The new value that a posted reduction gives a location (R145, R148). -/
def RedReq.fn (r : RedReq) (old : Nat) : Nat :=
  let w := atomWidth r.ty
  atomNew r.aop r.ty (8 * w) old (r.opnd.toNat % 2 ^ (8 * w)) 0

/-- A reduction performed in the entry of its line (R148, R276). -/
def performRedBy (note : Note) (s : State) (hn : Nat) (r : RedReq) : State :=
  match homeAtomicBy note s hn r.pa (atomWidth r.ty) r.fn with
  | some x => x.2
  | none => redFault (atomicMissed0 s hn r.pa) r (uncorrectable r.va.toNat (memSource s hn r.pa))

/-- The reductions that wait at the entry of a line are performed, in their order of arrival: a later request to the line comes after
them. -/
def serveEntryBy (note : Note) (s : State) (hn line : Nat) : State :=
  let mine := (s.ndie hn).queue.filter (fun r => r.pa / 128 == line)
  if mine.isEmpty then s
  else mine.foldl (fun s r => performRedBy note s hn r) (s.updNDie hn (fun n => { n with queue := n.queue.filter (fun r => r.pa / 128 != line) }))

/-- The lines whose entries of an N-die's write queue have not retired. -/
def queueLines (n : NDie) : List Nat := (n.queue.foldl (fun l r => insSorted (r.pa / 128) l) n.farWrites)

/-- R276: `k` of the 4,096 entries free. A request for which none is free waits until one retires: an outstanding far write completes,
or the oldest reductions are performed. The first argument bounds the number of retirements. -/
def makeRoomBy (note : Note) : Nat → State → Nat → Nat → State
  | 0, s, _, _ => s
  | fuel + 1, s, hn, k =>
    let n := s.ndie hn
    if n.queue.length + n.farWrites.length + k ≤ 4096 || (queueLines n).length + k ≤ 4096 then s
    else
      match n.farWrites, n.queue with
      | _ :: fs, _ => makeRoomBy note fuel (s.updNDie hn (fun n => { n with farWrites := fs })) hn k
      | [], r :: _ => makeRoomBy note fuel (serveEntryBy note s hn (r.pa / 128)) hn k
      | [], [] => s

/-- The entries that a request to a line may need: its own, and one for each line of a far-tier cache slot that it may evict (R285, R286). -/
def entriesFor (line : Nat) : Nat := if farRange (128 * line) then 17 else 1

/-- R276: the entries of a request to a line. -/
def takeEntryBy (note : Note) (s : State) (hn line : Nat) : State := makeRoomBy note 512 s hn (entriesFor line)

/-- The entry of a line as a new request finds it: every earlier request performed. -/
def atEntryBy (note : Note) (s : State) (hn line : Nat) : State := serveEntryBy note (takeEntryBy note s hn line) hn line

/-- R276, R337: an event record written through the write queue of its home: the requests to its line that came before are performed
first, and may themselves leave records. The first argument bounds how deep that goes; each level serves a line of a write queue. -/
def eventRecordN : Nat → Note
  | 0 => recordBy homeWrite0
  | k + 1 => recordBy (fun s hn line mask data => homeWrite0 (atEntryBy (eventRecordN k) s hn line) hn line mask data)

/-- R337: an event record, or one more LOST. -/
def eventRecord (s : State) (unit idx action count addr : Nat) (handle : W64) : State := eventRecordN 4096 s unit idx action count addr handle

/-- Corrected errors of a unit recorded with an ACTION: at most one record for each unit in 2^20 core cycles, whose COUNT gives the errors
since the one before (R337). -/
def noteCorrected (s : State) (u idx action n : Nat) : State :=
  let key := (u, idx)
  let rest := s.corrected.filter (fun c => c.1 != key)
  match s.corrected.lookup key with
  | some (last, k) =>
    if s.cycle < last + 2 ^ 20 then { s with corrected := rest ++ [(key, (last, k + n))] }
    else eventRecord { s with corrected := rest ++ [(key, (s.cycle, 0))] } u idx action (k + n) 0 0
  | none => eventRecord { s with corrected := rest ++ [(key, (s.cycle, 0))] } u idx action n 0 0

/-- A slot line written out (R286, R380). -/
def ftcWriteOut (s : State) (ni sl i : Nat) : State := ftcWriteOutBy eventRecord s ni sl i

/-- A slot line marked invalid without write-back; an unreadable one is rewritten (R151, R380). -/
def ftcDrop (s : State) (hn sl i : Nat) : State :=
  if ftcUnreadable s (ftcLine (s.ndie hn) sl i) then ftcRewrite s (s.ndie hn) sl i else ftcInvalidate s hn sl i

/-- A slot line written out and then marked invalid; an unreadable one is rewritten once (R151, R380). -/
def ftcWbi (s : State) (hn sl i : Nat) : State :=
  let l := ftcLine (s.ndie hn) sl i
  let s1 := ftcWriteOut s hn sl i
  if ftcUnreadable s l then (if ftcUnreadable s1 l then ftcRewrite s1 (s1.ndie hn) sl i else s1) else ftcInvalidate s1 hn sl i

/-- A write-back or eviction of a line, by the entry of its write queue. -/
def homeWb0 (s : State) (hn line : Nat) (dirty present : BitVec 128) (data : BitVec 1024) : State :=
  homeWbBy eventRecord s hn line dirty present data
/-- An atomic at a home, by the entry of its write queue. -/
def homeAtomic0 (s : State) (hn pa w : Nat) (f : Nat → Nat) : Option (Nat × State) := homeAtomicBy eventRecord s hn pa w f
/-- A reduction performed in the entry of its line (R148, R276). -/
def performRed (s : State) (hn : Nat) (r : RedReq) : State := performRedBy eventRecord s hn r
/-- The reductions that wait at the entry of a line performed. -/
def serveEntry (s : State) (hn line : Nat) : State := serveEntryBy eventRecord s hn line
/-- `k` entries of the write queue of an N-die free (R276). -/
def makeRoom (s : State) (hn k : Nat) : State := makeRoomBy eventRecord 512 s hn k
/-- R276: an entry for a request to a line. -/
def takeEntry (s : State) (hn line : Nat) : State := takeEntryBy eventRecord s hn line
/-- The entry of a line as a new request finds it: every earlier request performed. -/
def atEntry (s : State) (hn line : Nat) : State := atEntryBy eventRecord s hn line

/-- A read of a line at its home (R276, R285). -/
def homeRead (s : State) (hn line : Nat) : LineRead := homeRead0 (atEntry s hn line) hn line
/-- A write-back or eviction of an L2 line at its home (R276, R286). -/
def homeWb (s : State) (hn line : Nat) (dirty present : BitVec 128) (data : BitVec 1024) : State :=
  homeWb0 (atEntry s hn line) hn line dirty present data
/-- Any other write of a line at its home (R276, R381). -/
def homeWrite (s : State) (hn line : Nat) (mask : BitVec 128) (data : BitVec 1024) : State := homeWrite0 (atEntry s hn line) hn line mask data
/-- An atomic at its home (R146, R276). -/
def homeAtomic (s : State) (hn pa w : Nat) (f : Nat → Nat) : Option (Nat × State) := homeAtomic0 (atEntry s hn (pa / 128)) hn pa w f
/-- The state after it met an uncorrectable block. -/
def atomicMissed (s : State) (hn pa : Nat) : State := atomicMissed0 (atEntry s hn (pa / 128)) hn pa
/-- A posted reduction enters the write queue of its home (R148, R276). -/
def homePost (s : State) (hn : Nat) (r : RedReq) : State :=
  (takeEntry s hn (r.pa / 128)).updNDie hn (fun n => { n with queue := n.queue ++ [r] })

/-- The line as a read at its home would return it, with nothing changed. -/
def homePeek (s : State) (hn line : Nat) : BitVec 1024 := (homeRead s hn line).data

-- Physical accesses (R268) -------------------------------------------------------------------------------------------

/-- A physical write of `n` bytes, line by line. The first argument bounds the number of lines. -/
def physWriteN : Nat → State → Nat → Nat → Nat → State
  | 0, s, _, _, _ => s
  | k + 1, s, pa, n, v =>
    if n == 0 then s
    else
      let off := pa % 128
      let m := min n (128 - off)
      let mask := byteMask off m
      let data := lineAt off (v % 2 ^ (8 * m))
      let s1 :=
        if nearPop pa || farPop s pa then homeWrite s (homeOf pa none) (pa / 128) mask data
        else if inRemote pa then { s with devOut := s.devOut ++ [(pa / 128 * 128, mask, data)] }
        else s
      physWriteN k s1 (pa + m) (n - m) (v / 2 ^ (8 * m))

/-- A physical write of the `n` low bytes of `v`, of a line of another module as a request to it (R346); bytes at unpopulated addresses are
dropped (log entry 20). -/
def physWrite (s : State) (pa n v : Nat) : State := physWriteN (n / 128 + 2) s pa n v

/-- A physical read of `n` bytes, line by line: the value, whether a byte was uncorrectable, and the state after. -/
def physReadN : Nat → State → Nat → Nat → Nat × Bool × State
  | 0, s, _, _ => (0, false, s)
  | k + 1, s, pa, n =>
    if n == 0 then (0, false, s)
    else
      let off := pa % 128
      let m := min n (128 - off)
      let r := if nearPop pa || farPop s pa then homeRead s (homeOf pa none) (pa / 128) else { data := 0, bad := 0, st := s }
      let t := physReadN k r.st (pa + m) (n - m)
      (lineRead r.data off m + t.1 * 2 ^ (8 * m), r.bad &&& blocksOf off m != 0 || t.2.1, t.2.2)

/-- A physical read of `n` bytes of this module's memory; bytes at unpopulated addresses read 0 (log entry 20). -/
def physRead (s : State) (pa n : Nat) : Nat × Bool × State := physReadN (n / 128 + 2) s pa n

end Sys2Proof.Machine
end

