-- ==== Sys2Proof/Machine/Cache.lean ====
section
/-! DEFINITION. L1 (R269, R270), L2 (R271 to R274), the write journals (R275), promotions (R297 to R299), and the actions
of releases and acquires (Table 15-1). Fills are made at once by the access that needs them. -/

namespace Sys2Proof.Machine

-- Lines --------------------------------------------------------------------------------------------------------------

/-- The line of a number in a cache. -/
def findLine (l : List CLine) (n : Nat) : Option CLine := l.find? (fun c => c.line == n)
/-- A cache with a line put in, in place of one of the same number. -/
def putLine (l : List CLine) (c : CLine) : List CLine := c :: l.filter (fun x => x.line != c.line)
/-- A cache without a line. -/
def dropLine (l : List CLine) (n : Nat) : List CLine := l.filter (fun x => x.line != n)
/-- The bytes that a line holds: its present sectors and its dirty bytes. -/
def CLine.avail (c : CLine) : BitVec 128 := sectorMask c.present ||| c.dirty
/-- Whether a line holds bytes `off` to `off + n - 1`. -/
def CLine.has (c : CLine) (off n : Nat) : Bool := byteMask off n &&& ~~~c.avail == 0
/-- The bytes that may count as present at a home: those of a block marked bad do not (R286, R380). -/
def CLine.good (c : CLine) : BitVec 128 :=
  c.avail &&& BitVec.ofNat 128 ((if bitAt c.bad 0 then 0 else 2 ^ 64 - 1) + if bitAt c.bad 1 then 0 else (2 ^ 64 - 1) * 2 ^ 64)
/-- The sectors of a line that need no fill: those present, and those whose every byte is dirty (R273, R274). -/
def CLine.secs (c : CLine) : BitVec 4 := c.present ||| BitVec.ofNat 4 (maskOf 4 (fun i => sectorMask (BitVec.ofNat 4 (2 ^ i)) &&& ~~~c.avail == 0))
/-- A line without its clean bytes (R274, R293): of the blocks that held them nothing stays marked bad. -/
def CLine.dirtyOnly (c : CLine) : CLine := { c with present := 0, bad := 0, slot := 0 }
/-- R274: whether a die of volatile generation `gen` holds an L2 line as valid: a clean line of a VOLATILE page is invalid once its
generation is over, a dirty line never. -/
def CLine.valid (c : CLine) (gen : Nat) : Bool := !c.vol || c.gen == gen || c.dirty != 0

/-- The key of the device's reads by physical address (R346). -/
abbrev physKey : Nat := 2 ^ 200
/-- The key of a die's walk of a page of a context: walks for one page on one die go on together (R319). -/
def walkKey (d ctx va : Nat) : Nat := 2 * physKey + (d * 256 + ctx) * 2 ^ 64 + va / 2 ^ 16
/-- Whether a key is that of a walk of die `d` for a context that `p` holds of. -/
def isWalk (d : Nat) (p : Nat → Bool) (key : Nat) : Bool :=
  2 * physKey ≤ key && key < 3 * physKey && (key - 2 * physKey) / 2 ^ 72 == d && p ((key - 2 * physKey) / 2 ^ 64 % 256)
/-- The walks of a die for such contexts forgotten: what they have read of other modules' tables does not count any more. -/
def dropWalks (s : State) (d : Nat) (p : Nat → Bool) : State :=
  { s with devw := s.devw.filter (fun r => !isWalk d p r.stream) }

/-- A translation: physical address and leaf entry (R316). -/
structure Tr where
  pa : Nat
  leaf : W64
deriving DecidableEq, Repr

/-- A field of the leaf (R316). -/
def Tr.fld (t : Tr) (hi lo : Nat) : Nat := fieldOf t.leaf hi lo
/-- The home quadrant of the page. -/
def Tr.hq (t : Tr) : Nat := t.fld 9 8
/-- SECTOR. -/
def Tr.sect (t : Tr) : Bool := t.fld 7 7 == 1
/-- VOLATILE. -/
def Tr.vol (t : Tr) : Bool := t.fld 6 6 == 1
/-- The N-die of the home of an access through a translation (R268). -/
def Tr.home (t : Tr) : Nat := homeOf t.pa (some t.hq)
/-- The same page at another physical address within it. -/
def Tr.at (t : Tr) (pa : Nat) : Tr := { t with pa := pa }

-- L2 -----------------------------------------------------------------------------------------------------------------

/-- The valid L2 line of a die. -/
def l2Find (s : State) (d line : Nat) : Option CLine := (findLine (s.die d).l2 line).filter (fun c => c.valid (s.die d).gen)

/-- A line put into the L2 of a die, with no regard to its capacity. -/
def l2Set (s : State) (d : Nat) (c : CLine) : State := s.updDie d (fun x => { x with l2 := putLine x.l2 c })

/-- The line's dirty bytes written to its home; the line stays, clean (R272). -/
def l2CleanRaw (s : State) (d line : Nat) : State :=
  match l2Find s d line with
  | some c =>
    if c.dirty == 0 then s
    else homeWb (l2Set s d { c with dirty := 0, present := c.secs }) c.home line c.dirty c.good c.data
  | none => s

/-- A clean line dropped from an L2; the home of a far line gets its present bytes (R272, R286). -/
def l2Drop (s : State) (d line : Nat) : State :=
  let drop (s : State) : State := s.updDie d (fun x => { x with l2 := dropLine x.l2 line })
  match l2Find s d line with
  | some c => if farRange (128 * line) then drop (homeWb s c.home line 0 c.good c.data) else drop s
  | none => drop s

/-- The entries of a group's promotion log, those that a promotion is about to remove first (R298). -/
def Group.log (g : Group) : List Nat :=
  let held (p : Option Snap) : List Nat := match p with
    | some p => p.entries
    | none => []
  held g.snap ++ held g.eager ++ g.plog

/-- Groups with a logged flag among the lines (R297). -/
def flaggedBy (s : State) (lines : List Nat) : List Group := s.groups.filter (fun g => g.log.any (fun f => lines.contains f))

/-- Lines of 128 bytes of data that an L2 holds (R271); a zero line has no data (R273). -/
abbrev l2Lines : Nat := 4194304

/-- The lines that an L2 may replace at once: those with data that no group has logged as a flag (R297), of which there are always some
(log entry 11). -/
def l2Victims (s : State) (d : Nat) : List Nat :=
  ((s.die d).l2.filter (fun c => !c.zero && (flaggedBy s [c.line]).isEmpty)).map (fun c => c.line)

/-- Room for a line with data in the L2 of a die: at capacity a line of the device's choice is evicted (R271, R272). -/
def l2Room (s : State) (d line : Nat) : State :=
  if (findLine (s.die d).l2 line).any (fun c => !c.zero) || ((s.die d).l2.filter (fun c => !c.zero)).length < l2Lines then s
  else
    let vs := l2Victims s d
    match vs[Config.victim2 s.fresh % vs.length]? with
    | some v => l2Drop (l2CleanRaw s.tick1 d v) d v
    | none => s

/-- The state with a line put into the L2 of a die. -/
def l2Put (s : State) (d : Nat) (c : CLine) : State := l2Set (if c.zero then s else l2Room s d c.line) d c

/-- R271, R272: the line brought into L2 with at least the sectors `need`; on a page without SECTOR with all four. Bytes
that are dirty keep their data. -/
def l2Ensure (s : State) (d : Nat) (t : Tr) (need : BitVec 4) : State :=
  let line := t.pa / 128
  let need := if t.sect then need else 15
  let cur := l2Find s d line
  let miss := match cur with
    | some c => need &&& ~~~c.secs
    | none => need
  if miss == 0 then s
  else
    let r := homeRead s t.home line
    let got := r.bad &&& BitVec.ofNat 2 ((if miss &&& 3 == 0 then 0 else 1) + if miss &&& 12 == 0 then 0 else 2)
    let new := match cur with
      | some c =>
        { c with
          data := mergeLine c.data r.data (sectorMask miss &&& ~~~c.dirty),
          present := c.present ||| miss,
          bad := c.bad ||| got, slot := c.slot ||| (if slotBad s t.home line then got else 0) }
      | none =>
        { line := line, data := mergeLine 0 r.data (sectorMask miss), present := miss, dirty := 0,
          bad := got, slot := if slotBad s t.home line then got else 0,
          zero := false, gen := (s.die d).gen, bank := 0, home := t.home, vol := t.vol }
    l2Put r.st d new

/-- Bytes written into an L2 line as dirty bytes, without a fill (R270, R149); an absent line is made. -/
def l2Merge (s : State) (d line home : Nat) (vol : Bool) (mask : BitVec 128) (data : BitVec 1024) : State :=
  match l2Find s d line with
  | some c => l2Put s d { c with data := mergeLine c.data data mask, dirty := c.dirty ||| mask, zero := false }
  | none =>
    l2Put s d { line := line, data := mergeLine 0 data mask, present := 0, dirty := mask, bad := 0, slot := 0, zero := false,
                gen := (s.die d).gen, bank := 0, home := home, vol := vol }

-- The journal and promotions -----------------------------------------------------------------------------------------

/-- A line added to a core's journal, with no regard to its length. -/
def journalRaw (s : State) (c line : Nat) : State :=
  s.updCore c (fun x => if x.journal.contains line then x else { x with journal := x.journal ++ [line] })

/-- A dirty L1 line's bytes written to L2 and journaled (R270); the L1 line is then clean. -/
def l1WbRaw (s : State) (c : Nat) (cl : CLine) : State :=
  let s1 := l2Merge s (dieOf c) cl.line cl.home cl.vol cl.dirty cl.data
  journalRaw (s1.updCore c (fun x => { x with l1 := putLine x.l1 { cl with dirty := 0 } })) c cl.line

/-- The dirty lines of a core's L1. -/
def l1Dirty (s : State) (c : Nat) : List CLine := (s.core c).l1.filter (fun x => x.dirty != 0)

/-- Every dirty L1 line of a core written to L2, with no regard to the length of its journal. -/
def l1WbAllRaw (s : State) (c : Nat) : State := (l1Dirty s c).foldl (fun s cl => l1WbRaw s c cl) s

/-- The lines that a drain of a core's L1 and journal would carry home. -/
def drainSet (s : State) (c : Nat) : List Nat := (s.core c).journal ++ (l1Dirty s c).map (fun x => x.line)

/-- R297: the cores whose groups must be promoted before the lines may go home, closed under the lines that those
promotions carry home. The first argument bounds the number of rounds. -/
def promoCores : Nat → State → List Nat → List Nat → List Nat
  | 0, _, _, cores => cores
  | k + 1, s, lines, cores =>
    let new := ((flaggedBy s lines).map (fun g => g.core)).filter (fun c => !cores.contains c)
    if new.isEmpty then cores
    else promoCores k s (new.eraseDups.flatMap (drainSet s)) (cores ++ new.eraseDups)

/-- Whether a module is reachable (R339): its primary route, else its alternate one. -/
def linkUsable (s : State) (n : Nat) : Bool := (s.link n).st == .up || (s.link n).st == .degraded

/-- The link that traffic to a module uses (R339). -/
def routeTo (s : State) (m : Nat) : Option Nat :=
  let r := (s.host.routes.getD m 0).toNat
  if r / 256 % 2 == 1 && linkUsable s (r % 16) then some (r % 16)
  else if r / 512 % 2 == 1 && linkUsable s (r / 16 % 16) then some (r / 16 % 16)
  else none

/-- The requests to a module that have no answer: those sent and those that a reroute holds (R345, R347). -/
def Dest.open (d : Dest) : List Packet := d.unans ++ d.held

/-- Whether a core's groups have a remote write, atomic or reduction that a reachable module has not acknowledged (Table 15-1,
R348). -/
def remotePending (s : State) (c : Nat) : Bool :=
  s.dests.any (fun d => d.open.any (fun p => (p.pop == 1 || p.pop == 2 || p.pop == 3) && (routeTo s p.dstm.toNat).isSome &&
    s.tagOwner.any (fun t => t.1 == p.tag && t.2.2.1 == c)))

/-- A group with an empty promotion log. -/
def Group.emptyLog (g : Group) : Group := { g with plog := [], snap := none, eager := none }

/-- R299: L1 and journal of the cores written home; every flag among the lines leaves its log. -/
def promoteCores (s : State) (cores : List Nat) (lines : List Nat) : State :=
  let s1 := cores.foldl l1WbAllRaw s
  let all := lines ++ cores.flatMap (fun c => (s1.core c).journal)
  let s2 := s1.updGroups (fun g => g.log.any (fun f => all.contains f)) Group.emptyLog
  cores.foldl (fun s c =>
    ((s.core c).journal.foldl (fun s l => l2CleanRaw s (dieOf c) l) s).updCore c (fun x => { x with journal := [] })) s2

/-- R297: the dirty bytes of the lines of a die's L2 go home, with the promotions that must come first; none where such
a promotion waits for a remote acknowledgement. -/
def homeClean (s : State) (d : Nat) (lines : List Nat) : Option State :=
  let cores := promoCores 96 s lines []
  if cores.any (remotePending s) then none
  else
    let s1 := if cores.isEmpty then s else promoteCores s cores lines
    some (lines.foldl (fun s l => l2CleanRaw s d l) s1)

/-- R275: a line added to a core's journal; when it holds 16,384 lines, the oldest is taken out and written home first; none where that
has to wait for a promotion (R297). -/
def journalAdd (s : State) (c line : Nat) : Option State :=
  let j := (s.core c).journal
  if j.contains line || j.length < 16384 then some (journalRaw s c line)
  else
    (homeClean s (dieOf c) (j.take 1)).map (fun s1 =>
      journalRaw (s1.updCore c (fun x => { x with journal := x.journal.filter (fun l => !(j.take 1).contains l) })) c line)

/-- A dirty L1 line's bytes written to L2 and journaled (R270), the L1 line being clean then; none where the journal has to wait. -/
def l1Wb (s : State) (c : Nat) (cl : CLine) : Option State :=
  let s1 := l2Merge s (dieOf c) cl.line cl.home cl.vol cl.dirty cl.data
  journalAdd (s1.updCore c (fun x => { x with l1 := putLine x.l1 { cl with dirty := 0 } })) c cl.line

/-- One step after another, none where one has to wait. -/
def allOf {α : Type} (l : List α) (s : State) (f : State → α → Option State) : Option State :=
  l.foldl (fun a x => a.bind (fun s => f s x)) (some s)

/-- Every dirty L1 line of a core written to L2. -/
def l1WbAll (s : State) (c : Nat) : Option State := allOf (l1Dirty s c) s (fun s cl => l1Wb s c cl)

/-- An L1 line, where there is one, written back where dirty and discarded. -/
def l1Flush (s : State) (c line : Nat) : Option State :=
  match findLine (s.core c).l1 line with
  | some cl =>
    (if cl.dirty == 0 then some s else l1Wb s c cl).map (fun s => s.updCore c (fun x => { x with l1 := dropLine x.l1 line }))
  | none => some s

/-- R272, R275: an L2 line evicted: its dirty bytes, and where it is clean its present bytes, go to its home and the line
is dropped; none where a promotion waits (R297). -/
def l2Evict (s : State) (d line : Nat) : Option State :=
  match l2Find s d line with
  | some c =>
    if c.dirty == 0 then some (l2Drop s d line)
    else (homeClean s d [line]).map (fun s => s.updDie d (fun x => { x with l2 := dropLine x.l2 line }))
  | none => some (s.updDie d (fun x => { x with l2 := dropLine x.l2 line }))

/-- R299: whether a line's write-back in a promotion of a group of the die is still pending: a store, atomic or copy write to it waits. -/
def awaitsHome (s : State) (d line : Nat) : Bool :=
  s.groups.any (fun g => dieOf g.core == d && g.snap.any (fun p => !p.begun && p.lines.contains line))

-- L1 -----------------------------------------------------------------------------------------------------------------

/-- The banks that take new L1 lines: those in CACHE (Table 10-1). -/
def cacheBanks (c : Core) : List Nat := (List.range 32).filter (fun p =>
  match c.banks[p]? with
  | some b => b.mode == .cache
  | none => false)

/-- Whether L1 lookups search a bank: CACHE and DRAINING F (Table 10-1). -/
def bankSearched (c : Core) (p : Nat) : Bool :=
  match c.banks[p]? with
  | some b => b.mode == .cache || b.mode == .drainF
  | none => false

/-- The L1 line of a core that a lookup finds. -/
def l1Find (s : State) (c line : Nat) : Option CLine :=
  match findLine (s.core c).l1 line with
  | some cl => if bankSearched (s.core c) cl.bank then some cl else none
  | none => none

/-- Table 10-1: the line lies dirty in a bank in DRAINING W, so the access waits. -/
def l1Draining (s : State) (c line : Nat) : Bool :=
  match findLine (s.core c).l1 line with
  | some cl => !bankSearched (s.core c) cl.bank && cl.dirty != 0
  | none => false

/-- R269: the bank of a new L1 line: one of the CACHE banks without a line in the set, else a bank of the device's choice
whose line of that set is evicted; none where that has to wait. -/
def l1Room (s : State) (c line : Nat) : Option (Nat × State) :=
  let cb := cacheBanks (s.core c)
  let inSet := (s.core c).l1.filter (fun x => x.line % 1024 == line % 1024)
  match cb.find? (fun p => !inSet.any (fun x => x.bank == p)) with
  | some p => some (p, s)
  | none =>
    let p := cb.getD (Config.victim s.fresh % cb.length) 0
    (allOf (inSet.filter (fun x => x.bank == p)) s.tick1 (fun s x => l1Flush s c x.line)).map (fun s => (p, s))

/-- A fill of an L1 line from the L2 line of the die (R269, R270), with the sectors that L2 has. -/
def l1Fill (s : State) (c : Nat) (t : Tr) : Option State :=
  let line := t.pa / 128
  match l2Find s (dieOf c) line with
  | none => some s
  | some l2 =>
    match l1Find s c line with
    | some cl =>
      let miss := l2.secs &&& ~~~cl.present
      some (s.updCore c (fun x => { x with
        l1 := putLine x.l1 { cl with
          data := mergeLine cl.data l2.data (sectorMask miss &&& ~~~cl.dirty), present := cl.present ||| miss,
          bad := cl.bad ||| l2.bad, slot := cl.slot ||| l2.slot, zero := false } }))
    | none =>
      (l1Room s c line).map (fun r => r.2.updCore c (fun x => { x with
        l1 := putLine x.l1 { l2 with present := l2.secs, dirty := 0, zero := false, bank := r.1, gen := 0 } }))

/-- Whether the L2 of a die is not READY yet (R367). -/
def l2Down (s : State) (d : Nat) : Bool := notReady s (96 + d)

/-- Whether a core has an L1 that takes new lines. -/
def hasL1 (s : State) (c : Nat) : Bool := !(cacheBanks (s.core c)).isEmpty

/-- The source of the bad blocks among `n` bytes of a cached line (R332). -/
def CLine.source (c : CLine) (pa n : Nat) : Nat :=
  if farRange pa && c.slot &&& blocksOf (pa % 128) n == 0 then 3 else 0

/-- A line brought within reach of a stream of a core: into L1 where the core has one, with the sectors of bytes `off` to `off + n - 1`
(R141, R269); none where a write-back, or the L2, has to be waited for. -/
def reachLine (s : State) (c : Nat) (t : Tr) (off n : Nat) : Option State :=
  let fill (s : State) : Option State := if l2Down s (dieOf c) then none else l1Fill (l2Ensure s (dieOf c) t (sectorsOf off n)) c t
  match l1Find s c (t.pa / 128) with
  | some cl => if cl.has off n then some s else fill s
  | none => if hasL1 s c then fill s else if l2Down s (dieOf c) then none else some (l2Ensure s (dieOf c) t (sectorsOf off n))

/-- A read of `n` bytes within one line by a stream of a core (R141, R269): through L1, else through L2, with the fills
that it needs. -/
def coreRead (s : State) (c : Nat) (t : Tr) (va n : Nat) : Acc Nat :=
  let line := t.pa / 128
  let off := t.pa % 128
  let take (s : State) (cl : CLine) : Acc Nat :=
    if cl.bad &&& blocksOf off n != 0 then .fault (uncorrectable va (cl.source t.pa n)) s else .ok (lineRead cl.data off n) s
  if l1Draining s c line then .wait s
  else
    match reachLine s c t off n with
    | none => .wait s
    | some s1 =>
      match l1Find s1 c line with
      | some cl => take s1 cl
      | none =>
        match l2Find s1 (dieOf c) line with
        | some cl => take s1 cl
        | none => .wait s1

/-- A write of the `n` low bytes of `v` within one line by a stream of a core (R139, R140, R141): the line is filled,
then written in L1, or in L2 and journaled where the core has no L1. A byte of an uncorrectable block is not written. -/
def coreWrite (s : State) (c : Nat) (t : Tr) (va n v : Nat) : Acc Unit :=
  let line := t.pa / 128
  let off := t.pa % 128
  let m := byteMask off n
  let bad (cl : CLine) : Bool := cl.bad &&& blocksOf off n != 0
  if l1Draining s c line || awaitsHome s (dieOf c) line then .wait s
  else
    match reachLine s c t off n with
    | none => .wait s
    | some s1 =>
      match l1Find s1 c line, l2Find s1 (dieOf c) line with
      | some cl, _ =>
        if bad cl then .fault (uncorrectable va (cl.source t.pa n)) s1
        else .ok () (s1.updCore c (fun x => { x with
          l1 := putLine x.l1 { cl with data := mergeLine cl.data (lineAt off v) m, dirty := cl.dirty ||| m } }))
      | none, some cl =>
        if bad cl then .fault (uncorrectable va (cl.source t.pa n)) s1
        else
          match journalAdd (l2Merge s1 (dieOf c) line t.home t.vol m (lineAt off v)) c line with
          | some s2 => .ok () s2
          | none => .wait s1
      | none, none => .wait s1

/-- A byte as a core's own load would find it, with nothing changed: L1, then L2, then the home. -/
def viewByte (s : State) (c : Nat) (hn : Nat) (pa : Nat) : Byte :=
  let line := pa / 128
  let off := pa % 128
  let home : Byte := BitVec.ofNat 8 (lineRead (homePeek s hn line) off 1)
  let l2 : Byte := match l2Find s (dieOf c) line with
    | some cl => if cl.has off 1 then BitVec.ofNat 8 (lineRead cl.data off 1) else home
    | none => home
  match l1Find s c line with
  | some cl => if cl.has off 1 then BitVec.ofNat 8 (lineRead cl.data off 1) else l2
  | none => l2

-- Invalidation logs (R320 to R322) -----------------------------------------------------------------------------------

/-- Shift of the page of a leaf at a level (Table 17-1). -/
def lvlShift (lvl : Nat) : Nat :=
  match lvl with
  | 0 => 48
  | 1 => 39
  | 2 => 30
  | 3 => 21
  | _ => 16

/-- Whether an entry of a log removes a translation (R320). -/
def ilMatch (e : ILogEnt) (t : TlbEnt) : Bool :=
  match e.kind with
  | 0 => t.ctx == e.ctx && e.va.toNat / 2 ^ lvlShift t.lvl == t.vpn
  | 1 => t.ctx == e.ctx
  | _ => true

/-- R322: a die applies its log. -/
def ilApply (s : State) (d : Nat) : State :=
  let es := (s.die d).ilog
  if es.isEmpty then s
  else
    let cut (l : List TlbEnt) : List TlbEnt := l.filter (fun t => !es.any (fun e => ilMatch e t))
    let s1 := (dropWalks s d (fun c => es.any (fun e => 2 ≤ e.kind || e.ctx == c))).updDie d (fun x => { x with tlb := cut x.tlb, ilog := [] })
    (List.range 8).foldl (fun s i => s.updCore (8 * d + i) (fun x => { x with tlb := cut x.tlb })) s1

/-- Every die applies its log. -/
def ilApplyAll (s : State) : State := (List.range 12).foldl ilApply s

/-- R320, R321: an entry appended to all twelve logs under the next sequence number; a die whose slot would be
overwritten applies its log first. -/
def ilAppend (s : State) (kind ctx va : Nat) : State :=
  let q := s.ilSeq
  let w := (va / 2 ^ 16 % 2 ^ 41) * 2 ^ 16 + ctx * 2 ^ 8 + kind
  let s1 := (List.range 12).foldl (fun s d =>
    let s := if (s.die d).ilog.length ≥ 512 then ilApply s d else s
    let s := s.updDie d (fun x => { x with ilog := x.ilog ++ [{ seq := q, kind := kind, ctx := ctx, va := BitVec.ofNat 64 va }] })
    physWrite s (s.host.ilbase.toNat + 8192 * d + 16 * (q.toNat % 512)) 16 (w + q.toNat * 2 ^ 64)) s
  { s1 with ilSeq := q + 1 }

-- Releases and acquires (Table 15-1) ---------------------------------------------------------------------------------

/-- Whether a reduction of a group that `p` selects, posted in this module with a scope up to `sc`, is not applied (R148). -/
def redLocal (s : State) (p : RedReq → Bool) (sc : Nat) : Bool :=
  s.dies.any (fun d => d.reds.any (fun r => p r && r.scope ≤ sc)) || s.ndies.any (fun n => n.queue.any (fun r => p r && r.scope ≤ sc))

/-- Whether a group has a reduction of scope up to `sc` that is not applied and still can be: here, or in another module that can be
reached (R148, R348). -/
def redPending (s : State) (h : W64) (sc : Nat) : Bool :=
  redLocal s (fun r => r.handle == h) sc ||
  s.remReds.any (fun x => x.2.handle == h && x.2.scope ≤ sc && (routeTo s (remoteMod x.2.pa)).isSome)

/-- Whether a reduction posted in this module by any group of a core, of scope up to `sc`, is not applied: what a release of the core
waits for (R293, Table 15-1). -/
def redCore (s : State) (c sc : Nat) : Bool :=
  redLocal s (fun r => r.die == dieOf c && (s.groupOf r.handle).any (fun g => g.core == c)) sc

/-- R348: a posted write of the core's groups to a module that can no longer be reached. -/
def remoteLost (s : State) (c : Nat) : Option Packet :=
  (s.dests.flatMap Dest.open).find? (fun p => (p.pop == 1 || p.pop == 3) && (routeTo s p.dstm.toNat).isNone &&
    s.tagOwner.any (fun t => t.1 == p.tag && t.2.2.1 == c))

/-- The unanswered posted writes and reductions to unreachable modules forgotten for a core (R348). -/
def dropLost (s : State) (c : Nat) : State :=
  let lost (p : Packet) : Bool := (p.pop == 1 || p.pop == 3) && (routeTo s p.dstm.toNat).isNone && s.tagOwner.any (fun t => t.1 == p.tag && t.2.2.1 == c)
  let gone := ((s.dests.flatMap Dest.open).filter lost).map (fun p => p.tag)
  { s with
    dests := s.dests.map (fun d => { d with unans := d.unans.filter (fun p => !lost p), held := d.held.filter (fun p => !lost p) }),
    remReds := s.remReds.filter (fun x => !gone.contains x.1) }

/-- Whether the module is TENTATIVE for the group of a handle (R361): the gang of its packet is TENTATIVE. -/
def tentative (s : State) (h : W64) : Bool :=
  match s.groupOf h with
  | some g => s.gangs.any (fun x => x.st == .tentative && x.queue == g.queue && x.pkt == g.pkt)
  | none => false

/-- A release at scope `sc` (0 job to 4 fabric) by the group of handle `h` on core `c` (Table 15-1). It waits for
reductions and remote acknowledgements; LINK_DOWN is raised for a lost posted write (R348). -/
def release (s : State) (h : W64) (c sc : Nat) : Acc Unit :=
  if redLocal s (fun r => r.handle == h) sc || (sc ≥ 2 && redCore s c sc) || (sc ≥ 4 && tentative s h) then .wait s
  else
    match (if sc ≥ 2 then l1WbAll s c else some s) with
    | none => .wait s
    | some s1 =>
      if sc ≥ 3 then
        match homeClean s1 (dieOf c) (s1.core c).journal with
        | none => .wait s1
        | some s2 =>
          let s3 := s2.updCore c (fun x => { x with journal := [] })
          if sc ≥ 4 then
            match remoteLost s3 c with
            | some p => .fault (exc cLINKDOWN (remoteBase + p.dstm.toNat * 2 ^ 45 + p.addr.toNat) p.dstm.toNat) (dropLost s3 c)
            | none =>
              if remotePending s3 c then .wait s3
              else .ok () (s3.updGroup h Group.emptyLog)
          else .ok () s3
      else .ok () s1

/-- Every clean byte of a core's L1 discarded, dirty bytes kept. -/
def l1DropClean (s : State) (c : Nat) : State :=
  s.updCore c (fun x => { x with l1 := (x.l1.filter (fun l => l.dirty != 0)).map CLine.dirtyOnly })

/-- R274, R290: the volatile generation of a die advanced. Lines of VOLATILE pages that are dirty in part are written back before, so
that their clean bytes age with the rest; a logged flag line stays as it is (R297, log entry 140). -/
def advanceGen (s : State) (d : Nat) : State :=
  let mixed := (s.die d).l2.filter (fun c => c.vol && c.dirty != 0 && c.avail &&& ~~~c.dirty != 0 && (flaggedBy s [c.line]).isEmpty)
  (mixed.foldl (fun s c => l2CleanRaw s d c.line) s).updDie d (fun x => { x with gen := x.gen + 1 })

/-- An acquire at scope `sc` by the group of handle `h` on core `c` (Table 15-1); at fabric scope it waits while the
module is TENTATIVE for the group (R361). -/
def acquire (s : State) (h : W64) (c sc : Nat) : Acc Unit :=
  if sc ≥ 4 && tentative s h then .wait s
  else
    let s1 := if sc ≥ 2 then l1DropClean s c else s
    .ok () (if sc ≥ 3 then ilApply (advanceGen s1 (dieOf c)) (dieOf c) else s1)

/-- The tags of the remote writes, atomics and reductions of a core's groups that have no answer (R299). -/
def openTags (s : State) (c : Nat) : List (BitVec 16) :=
  (((s.dests.flatMap Dest.open).filter (fun p => p.pop == 1 || p.pop == 2 || p.pop == 3)).map (fun p => p.tag)).filter (fun t =>
    s.tagOwner.any (fun o => o.1 == t && o.2.2.1 == c))

/-- R299: the snapshot of a promotion: the log's entries, the L1 dirty lines and the journal of the core, and its unanswered remote requests,
as they stand now. -/
def snapNow (s : State) (g : Group) : Snap :=
  { entries := g.log, lines := drainSet s g.core, begun := false, tags := openTags s g.core }

/-- R298: whether a flag line would be the 33rd entry of a log. -/
def logFull (g : Group) (line : Nat) : Bool := g.log.length ≥ 32 && !g.plog.contains line

/-- R298: a flag line logged as the newest entry of a group; a 33rd entry starts an eager promotion of the 32 present, or where a promotion
is in progress one that comes after it. -/
def logFlag (s : State) (g : Group) (line : Nat) : Group :=
  if g.plog.contains line then { g with plog := g.plog.filter (fun l => l != line) ++ [line] }
  else if !logFull g line then { g with plog := g.plog ++ [line] }
  else if g.snap.isNone then { g with snap := some (snapNow s g), plog := [line] }
  else { g with eager := some (snapNow s { g with snap := none }), plog := [line] }

/-- R298, R299: a flag line logged by the group in focus; its eager promotion waits its turn behind the requests at the group. -/
def logLine (s : State) (line : Nat) : State :=
  let s1 := s.updGrp (fun g => logFlag s g line)
  if logFull s.grp line && s.grp.snap.isSome then
    { s1 with proms := s1.proms ++ [{ target := s.grp.handle, src := .eager, line := line, ctx := none, hit := true, run := false, ans := none }] }
  else s1

/-- R298: whether a further insertion must wait for the promotion in progress. -/
def logBlocked (g : Group) (line : Nat) : Bool := g.snap.isSome && g.log.length ≥ 33 && !g.plog.contains line

/-- R299: a promotion of the group of handle `h` begins: the L1 lines and the journal entries of its snapshot go home, with the promotions
that must come first (R297), its own of a flag logged since among them; none while one of these has to wait. -/
def promoteBegin (s : State) (h : W64) : Option State :=
  match s.groupOf h with
  | none => some s
  | some g =>
    match g.snap with
    | none => some s
    | some p =>
      let s1 := (((l1Dirty s g.core).filter (fun x => p.lines.contains x.line)).foldl (fun s cl => l1WbRaw s g.core cl) s).updGroup h
        (fun g => { g with snap := none })
      (homeClean s1 (dieOf g.core) p.lines).map (fun s2 =>
        (s2.updCore g.core (fun x => { x with journal := x.journal.filter (fun l => !p.lines.contains l) })).updGroup h (fun g => { g with
          snap := some { p with begun := true } }))

/-- Whether an unanswered request of a tag can still be answered (R348). -/
def tagOpen (s : State) (t : BitVec 16) : Bool :=
  (s.dests.flatMap Dest.open).any (fun p => p.tag == t && (routeTo s p.dstm.toNat).isSome)

/-- A module to which a request of one of the tags is lost (R348). -/
def tagLost (s : State) (ts : List (BitVec 16)) : Option Nat :=
  ((s.dests.flatMap Dest.open).find? (fun p => ts.contains p.tag && (routeTo s p.dstm.toNat).isNone)).map (fun p => p.dstm.toNat)

end Sys2Proof.Machine
end

