-- ==== Sys2Proof/Machine/Trans.lean ====
section
/-! DEFINITION. Translation (R315 to R319), packets and flits of the Avdon links (R341 to R347), accesses of another
module (R346, R348), and global accesses by virtual address. -/

namespace Sys2Proof.Machine

-- Packets and flits --------------------------------------------------------------------------------------------------

/-- CRC-32 of IEEE 802.3: one bit. -/
def crcStep (c : Nat) : Nat := if c % 2 == 1 then (c / 2) ^^^ 0xEDB88320 else c / 2
/-- CRC-32 of IEEE 802.3 over a number of bytes, lowest first (R341). -/
def crcBytes : Nat → Nat → Nat → Nat
  | 0, _, c => c
  | n + 1, v, c =>
    crcBytes n (v / 256)
      (crcStep (crcStep (crcStep (crcStep (crcStep (crcStep (crcStep (crcStep (c ^^^ (v % 256))))))))))
/-- The CRC field of a flit whose bytes 59:0 are the number. -/
def crc32 (v : Nat) : Nat := crcBytes 60 v 0xFFFFFFFF ^^^ 0xFFFFFFFF

/-- A flit (Table 19-2). -/
def flitOf (seq ack kind cls last payload : Nat) : BitVec 512 :=
  let v := seq % 4096 * 2 ^ 20 + ack % 4096 * 2 ^ 8 + kind * 32 + cls * 4 + last * 2 + payload % 2 ^ 448 * 2 ^ 32
  BitVec.ofNat 512 (v + crc32 v * 2 ^ 480)

/-- Whether a flit's CRC is correct and its KIND is used (R343). -/
def flitGood (f : BitVec 512) : Bool := crc32 (f.toNat % 2 ^ 480) == f.toNat / 2 ^ 480 && fieldOf f 7 5 < 4

/-- The number of flits of a packet: the first holds the header and the mask, 56 data bytes follow in each further one
(R342). -/
def packetFlits (p : Packet) : Nat := 1 + (p.data.length + 55) / 56

/-- The payload of the first flit: header and byte mask (Table 19-3, R342). -/
def packetHead (p : Packet) : Nat :=
  (p.dstm.toNat * 2 ^ 58 + p.srcm.toNat * 2 ^ 52 + p.pop.toNat * 2 ^ 46 + packetFlits p * 2 ^ 40 + p.arg.toNat * 2 ^ 32 +
    p.rid.toNat * 2 ^ 16 + p.tag.toNat) + p.addr.toNat * 2 ^ 64 + p.mask.toNat * 2 ^ 128

/-- Whether the packet travels in control flits (R358). -/
def packetCtl (p : Packet) : Bool := (7 ≤ p.pop.toNat && p.pop.toNat ≤ 9) || (12 ≤ p.pop.toNat && p.pop.toNat ≤ 14)

/-- The flits of a packet, numbered from `seq`. -/
def packetToFlits (p : Packet) (seq ack : Nat) : List (BitVec 512) :=
  let n := packetFlits p
  let d := leNat p.data
  (List.range n).map (fun i =>
    flitOf (seq + i) ack (if packetCtl p then 2 else 1) p.cls.toNat (if i + 1 == n then 1 else 0)
      (if i == 0 then packetHead p else d / 2 ^ (448 * (i - 1)) % 2 ^ 448))

/-- Whether link `n` has room for a packet in its replay buffer (R343). -/
def linkRoom (s : State) (n : Nat) (p : Packet) : Bool := (s.link n).unacked.length + packetFlits p ≤ 1024

/-- A packet put into the replay buffer of link `n`. -/
def sendOn (s : State) (n : Nat) (p : Packet) : State :=
  s.updLink n (fun l => { l with
    unacked := l.unacked ++ packetToFlits p l.nextSeq l.expSeq, tries := l.tries ++ List.replicate (packetFlits p) 0,
    nextSeq := (l.nextSeq + packetFlits p) % 4096, since := if l.unacked.isEmpty then s.cycle else l.since })

/-- Whether two packets keep their order (R344): they go to one module in one class. -/
def inOrder (p x : Packet) : Bool := x.dstm == p.dstm && x.cls == p.cls

/-- The packets of a list that could take the next slot of their link: the first of each destination and class, with its link (R344). -/
def heads (s : State) : List Packet → List Packet → List (Packet × Nat)
  | _, [] => []
  | before, p :: ps =>
    match (if before.any (inOrder p) then none else routeTo s p.dstm.toNat) with
    | some n => (p, n) :: heads s (p :: before) ps
    | none => heads s (p :: before) ps

/-- The weight of a class in LWGT (Table 19-8). -/
def classWeight (s : State) (c : Nat) : Nat := if c == 0 || c > 4 then 0 else fieldOf s.host.lwgt (4 * c - 1) (4 * c - 4)

/-- R358: the slots left to the classes, a round added until one of the classes with traffic has some; what a class took beyond its share
counts against its next one. The first argument bounds the number of rounds. -/
def refill (s : State) : Nat → List Nat → List Int → List Int
  | 0, _, cr => cr
  | k + 1, cs, cr =>
    if cs.any (fun c => cr.getD (c - 1) 0 > 0) then cr
    else refill s k cs ((List.range 4).map (fun i => min (cr.getD i 0 + classWeight s (i + 1)) (classWeight s (i + 1))))

/-- R358: which of the packets that could take the next slot of a link does, and the slots left then: control flits first, then by weighted
round robin in flits the classes that have a weight, and only without traffic of these the others. -/
def pick (s : State) (n : Nat) (hs : List Packet) : Option (Packet × List Int) :=
  let cr := (s.link n).credits
  let weighted := hs.filter (fun p => classWeight s p.cls.toNat != 0)
  match hs.find? packetCtl, weighted with
  | some p, _ => some (p, cr)
  | none, [] => hs.head?.map (fun p => (p, cr))
  | none, _ =>
    let cr := refill s 64 (weighted.map (fun p => p.cls.toNat)) cr
    (weighted.find? (fun p => cr.getD (p.cls.toNat - 1) 0 > 0)).map (fun p => (p, updAt cr (p.cls.toNat - 1) (fun x => x - packetFlits p)))

/-- The packet that is sent next, its link, and the state with the slots counted; none while every link's next packet has no room (R343). -/
def nextSend (s : State) : Option (Packet × Nat × State) :=
  let hs := heads s [] s.outbox
  (List.range 16).findSome? (fun n =>
    match pick s n ((hs.filter (fun x => x.2 == n)).map (fun x => x.1)) with
    | some (p, cr) => if linkRoom s n p then some (p, n, s.updLink n (fun l => { l with credits := cr })) else none
    | none => none)

/-- Up to `k` waiting packets sent. -/
def flushN : Nat → State → State
  | 0, s => s
  | k + 1, s =>
    match nextSend s with
    | none => s
    | some x => flushN k (sendOn { x.2.2 with outbox := x.2.2.outbox.erase x.1 } x.2.1 x.1)

/-- Packets that wait outside the links, sent as far as there is room (R343, R358). -/
def sendWaiting (s : State) : State := flushN s.outbox.length s

/-- R343: a packet for its link: it waits outside while 1,024 flits are unacknowledged, no route is usable, or others go first (R344, R358). -/
def enqueue (s : State) (p : Packet) : State := sendWaiting { s with outbox := s.outbox ++ [p] }

/-- Whether a packet operation writes and so carries a RID (R347). -/
def popWrites (pop : Nat) : Bool := pop == 1 || pop == 2 || pop == 3

/-- Whether a further request that writes to a module must wait: 256 are unanswered (R347). -/
def ridFull (s : State) (m : Nat) : Bool := ((s.dest m).open.filter (fun p => popWrites p.pop.toNat)).length ≥ 256

/-- R344 to R347: a request sent to a module, kept until it is answered; held back while a reroute is in progress. -/
def sendRequest (s : State) (p : Packet) (core : Nat) (h : W64) : State :=
  let m := p.dstm.toNat
  let rid := if popWrites p.pop.toNat then (s.dest m).rid else 0
  let p := { p with srcm := BitVec.ofNat 6 s.modid, tag := s.nextTag, rid := BitVec.ofNat 16 rid }
  let s1 := { s with nextTag := s.nextTag + 1, tagOwner := s.tagOwner ++ [(s.nextTag, m, core, h)] }
  let s2 := s1.updDest m (fun d => { d with
    rid := if popWrites p.pop.toNat then (d.rid + 1) % 65536 else d.rid,
    unans := if d.reroute.isSome then d.unans else d.unans ++ [p],
    held := if d.reroute.isSome then d.held ++ [p] else d.held })
  if (s2.dest m).reroute.isSome then s2 else enqueue s2 p

/-- The answer to a request, sent to its source (R346). -/
def sendReply (s : State) (p : Packet) : State := enqueue s { p with srcm := BitVec.ofNat 6 s.modid }

/-- A packet without data. -/
def packet0 (dst pop cls : Nat) : Packet :=
  { dstm := BitVec.ofNat 6 dst, srcm := 0, pop := BitVec.ofNat 6 pop, nflit := 1, arg := 0, rid := 0, tag := 0, addr := 0,
    cls := BitVec.ofNat 3 cls, mask := 0, data := [] }

/-- The LINK_DOWN fault of an access of another module (Table 18-1). -/
def linkDown (va m : Nat) : Exc := exc cLINKDOWN va m

-- Accesses of another module -----------------------------------------------------------------------------------------

/-- An answered or waiting remote access of the group in focus. -/
def rwaitOf (g : Group) (st pop pa len : Nat) : Option RemoteWait :=
  g.rwait.find? (fun r => r.stream == st && r.pop == pop && r.pa == pa && r.len == len)

/-- The remote accesses of a stream forgotten: their instruction has ended or will re-issue whole. -/
def clearRemote (s : State) (st : Nat) : State :=
  s.updGrp (fun g => { g with rwait := g.rwait.filter (fun r => r.stream != st), cput := if st == 3 then none else g.cput })

/-- R305, R346, R348: a request that waits for its answer, by stream `st` of the group in focus. The answer is kept until the
instruction ends; its status is 0, 16 and the source of an uncorrectable error (R332), or 32 for an address that the module does not
populate. -/
def remoteAsk (s : State) (st : Nat) (p : Packet) (pa va len : Nat) : Acc (List Byte) :=
  let m := remoteMod pa
  match rwaitOf s.grp st p.pop.toNat pa len with
  | some r =>
    match r.got with
    | some b =>
      if r.status == 0 then .ok b s
      else if r.status < 32 then .fault (exc cMEMUNC va (r.status - 16)) s
      else .fault (exc cACCESS va) s
    | none =>
      if (routeTo s m).isNone then
        .fault (linkDown va m) ((s.updDest m (fun d => { d with
          unans := d.unans.filter (fun x => x.tag != r.tag), held := d.held.filter (fun x => x.tag != r.tag) })).updGrp (fun g => { g with
          rwait := g.rwait.filter (fun x => x.tag != r.tag) }))
      else .wait s
  | none =>
    if tentative s s.grp.handle then .wait s
    else if (routeTo s m).isNone then .fault (linkDown va m) s
    else if popWrites p.pop.toNat && ridFull s m then .wait s
    else
      let tag := s.nextTag
      .wait ((sendRequest s p s.grp.core s.grp.handle).updGrp (fun g => { g with
        rwait := g.rwait ++ [{ stream := st, pa := pa, len := len, pop := p.pop.toNat, tag := tag, got := none, status := 0 }] }))

/-- A remote read of `n` bytes within one line: the 8-byte parts that cover them are asked for (R342). -/
def remoteRead (s : State) (st pa va n cls : Nat) : Acc Nat :=
  let lo := pa / 8 * 8
  let len := (pa + n - lo + 7) / 8 * 8
  let p := { packet0 (remoteMod pa) 0 cls with arg := BitVec.ofNat 8 (len / 8), addr := BitVec.ofNat 45 lo }
  (remoteAsk s st p lo va len).bind (fun b s => .ok (leNat b / 2 ^ (8 * (pa - lo)) % 2 ^ (8 * n)) s)

/-- A posted write of the masked bytes of a line of another module, for a group or, with handle 0, for the device itself (R305, R342). -/
def postWrite (s : State) (pa va : Nat) (mask : BitVec 128) (data : BitVec 1024) (cls pop arg core : Nat) (h : W64) : Acc Unit :=
  let m := remoteMod pa
  if (routeTo s m).isNone then .fault (linkDown va m) s
  else if ridFull s m then .wait s
  else
    let bytes := ((List.range 128).filter (fun i => bitAt mask i)).map (fun i => BitVec.ofNat 8 (lineRead data i 1))
    .ok () (sendRequest s { packet0 m pop cls with addr := BitVec.ofNat 45 pa, mask := mask, data := bytes, arg := BitVec.ofNat 8 arg } core h)

/-- A remote write of the masked bytes of a line by the group in focus: posted, once its gang is not tentative (R305, R342, R361). -/
def remoteWrite (s : State) (pa va : Nat) (mask : BitVec 128) (data : BitVec 1024) (cls pop arg : Nat) : Acc Unit :=
  if tentative s s.grp.handle then .wait s else postWrite s pa va mask data cls pop arg s.grp.core s.grp.handle

-- Accesses of the device itself by physical address -----------------------------------------------------------------

/-- The core of a request that the device makes for itself: none. -/
abbrev noCore : Nat := 96

/-- R346, R348: a request to another module that the device makes for itself, begun at the virtual address `key`; the answer is kept until
the access has ended. -/
def devAsk (s : State) (key : Nat) (p : Packet) (pa va len : Nat) : Acc (List Byte) :=
  let m := remoteMod pa
  match s.devw.find? (fun r => r.stream == key && r.pop == p.pop.toNat && r.pa == pa && r.len == len) with
  | some r =>
    match r.got with
    | some b =>
      if r.status == 0 then .ok b s
      else if r.status < 32 then .fault (exc cMEMUNC va (r.status - 16)) s
      else .fault (exc cACCESS va) s
    | none =>
      if (routeTo s m).isNone then
        .fault (linkDown va m) (s.updDest m (fun d => { d with
          unans := d.unans.filter (fun x => x.tag != r.tag), held := d.held.filter (fun x => x.tag != r.tag) }))
      else .wait s
  | none =>
    if (routeTo s m).isNone then .fault (linkDown va m) s
    else if popWrites p.pop.toNat && ridFull s m then .wait s
    else
      let s1 := sendRequest s p noCore 0
      .wait { s1 with devw := s1.devw ++ [{ stream := key, pa := pa, len := len, pop := p.pop.toNat, tag := s.nextTag, got := none, status := 0 }] }

/-- The device's access that began at `key` has ended: its answers are forgotten. -/
def devEnd {α : Type} (key : Nat) : Acc α → Acc α
  | .ok v s => .ok v { s with devw := s.devw.filter (fun r => r.stream != key) }
  | .fault e s => .fault e { s with devw := s.devw.filter (fun r => r.stream != key) }
  | .wait s => .wait s

/-- R346: a posted write of the device itself to a line of another module: sent where a request number is free (R347), else kept until one is;
the device's writes to a module keep their order. -/
def devPost (s : State) (pa va : Nat) (mask : BitVec 128) (data : BitVec 1024) : Acc Unit :=
  let m := remoteMod pa
  if (routeTo s m).isNone then .fault (linkDown va m) s
  else if ridFull s m || s.devOut.any (fun x => remoteMod x.1 == m) then .ok () { s with devOut := s.devOut ++ [(pa, mask, data)] }
  else postWrite s pa va mask data 3 1 0 noCore 0

/-- The device's writes that wait are sent as far as there are request numbers (R346, R347). -/
def flushDev (s : State) : State :=
  s.devOut.foldl (fun s (x : Nat × BitVec 128 × BitVec 1024) =>
    if s.devOut.any (fun y => remoteMod y.1 == remoteMod x.1) then { s with devOut := s.devOut ++ [x] }
    else
      match postWrite s x.1 0 x.2.1 x.2.2 3 1 0 noCore 0 with
      | .wait s1 => { s1 with devOut := s1.devOut ++ [x] }
      | .ok _ s1 => s1
      | .fault _ s1 => s1) { s with devOut := [] }

/-- Whether a write of the device to a module that can be reached is not acknowledged yet (R123, R346, R369). -/
def devUnacked (s : State) : Bool :=
  s.devOut.any (fun x => (routeTo s (remoteMod x.1)).isSome) ||
  s.dests.any (fun d => d.open.any (fun p => p.pop == 1 && (routeTo s p.dstm.toNat).isSome &&
    s.tagOwner.any (fun t => t.1 == p.tag && t.2.2.1 == noCore)))

/-- What waits outside the links goes out as far as there is room: packets, and the device's writes (R343, R346, R358). -/
def flushOutbox (s : State) : State := if s.devOut.isEmpty then sendWaiting s else flushDev (sendWaiting s)

/-- A physical read of `n` bytes, line by line, also of other modules (R346): the value, and where a byte could not be had what stopped it: the
uncorrectable error at its address, or the unreachable module. -/
def physAskN : Nat → State → Nat → Nat → Nat → Acc (Nat × Option Exc)
  | 0, s, _, _, _ => .ok (0, none) s
  | k + 1, s, key, pa, n =>
    if n == 0 then .ok (0, none) s
    else
      let m := min n (128 - pa % 128)
      let more (v : Nat) (e : Option Exc) (s : State) : Acc (Nat × Option Exc) :=
        (physAskN k s key (pa + m) (n - m)).bind (fun r s => .ok (v + r.1 * 2 ^ (8 * m), match e with
          | some x => some x
          | none => r.2) s)
      if inRemote pa then
        let lo := pa / 8 * 8
        let len := (pa + m - lo + 7) / 8 * 8
        let p := { packet0 (remoteMod pa) 0 3 with arg := BitVec.ofNat 8 (len / 8), addr := BitVec.ofNat 45 lo }
        match devAsk s key p lo pa len with
        | .ok b s1 => more (leNat b / 2 ^ (8 * (pa - lo)) % 2 ^ (8 * m)) none s1
        | .fault e s1 => more 0 (if e.code == cACCESS then none else some e) s1
        | .wait s1 => .wait s1
      else if ownMem s pa && notReady s (unitOf pa) then .wait s
      else
        let r := physRead s pa m
        more r.1 (if r.2.1 then some (exc cMEMUNC pa (memSource r.2.2 (homeOf pa none) pa)) else none) r.2.2

/-- A physical read of `n` bytes for the device's own use (R346); bytes that no module populates read 0 (log entry 20). -/
def physAsk (s : State) (pa n : Nat) : Acc (Nat × Option Exc) := devEnd (physKey + pa) (physAskN (n / 128 + 2) s (physKey + pa) pa n)

-- Translation --------------------------------------------------------------------------------------------------------

/-- What a translation is for. -/
inductive Want where
  | load | store | fetch | probe
deriving DecidableEq, Repr

/-- How a walk ends. -/
inductive Walk where
  | leaf (lvl : Nat) (leaf : W64) (leafPa : Nat)
  | invalid (lvl : Nat) (malformed : Bool)
  | bad (e : Exc)
  /-- an entry of another module has not come yet -/
  | wait
deriving DecidableEq, Repr

/-- R316: whether a leaf at a level is malformed. -/
def leafBad (lvl : Nat) (e : W64) : Bool :=
  fieldOf e 63 52 != 0 || fieldOf e 15 13 != 0 || fieldOf e 3 2 != 0 || fieldOf e 12 11 ≥ 2 || lvl < 2 ||
  (lvl == 3 && fieldOf e 20 16 != 0) || (lvl == 2 && fieldOf e 29 16 != 0) ||
  (fieldOf e 10 10 == 1) != farRange (fieldOf e 51 16 * 65536)

/-- R316: whether a pointer at a level is malformed; tables of levels 1 to 3 are multiples of 4 KiB. -/
def ptrBad (lvl : Nat) (e : W64) : Bool :=
  fieldOf e 63 52 != 0 || fieldOf e 7 2 != 0 || lvl == 4 || (lvl < 3 && fieldOf e 11 8 != 0)

/-- R315, R317: the walk from a table at `base` over the levels left; each entry is read once at its home, which may lie in another module
(R346): the walk waits for it, its answers kept under `key`. -/
def walkFrom : List Nat → State → Nat → Nat → Nat → Walk × State
  | [], s, _, _, _ => (.invalid 4 true, s)
  | lvl :: rest, s, key, base, va =>
    let pa := base + 8 * (va / 2 ^ lvlShift lvl % (if lvl == 4 then 32 else 512))
    match physAskN 1 s key pa 8 with
    | .wait s1 => (.wait, s1)
    | .fault e s1 => (.bad e, s1)
    | .ok (_, some e) s1 => (.bad e, s1)
    | .ok (v, none) s1 =>
      let e : W64 := BitVec.ofNat 64 v
      if fieldOf e 0 0 == 0 then (.invalid lvl false, s1)
      else if fieldOf e 1 1 == 1 then
        if leafBad lvl e then (.invalid lvl true, s1) else (.leaf lvl e pa, s1)
      else if ptrBad lvl e then (.invalid lvl true, s1)
      else walkFrom rest s1 key (fieldOf e 51 8 * 256) va

/-- A walk of a die from ROOT of a context (R315). -/
def walk (s : State) (d ctx va : Nat) : Walk × State :=
  let r := walkFrom [0, 1, 2, 3, 4] s (walkKey d ctx va) (s.ctx ctx).root va
  match r.1 with
  | .wait => r
  | w => (w, { r.2 with devw := r.2.devw.filter (fun x => x.stream != walkKey d ctx va) })

/-- A cached translation of a virtual address (R319). -/
def tlbFind (l : List TlbEnt) (ctx va : Nat) : Option TlbEnt :=
  l.find? (fun t => t.ctx == ctx && va / 2 ^ lvlShift t.lvl == t.vpn)

/-- A leaf put into the TLBs of a core and its die, within their 256 and 65,536 entries (R319). -/
def tlbFill (s : State) (c : Nat) (t : TlbEnt) : State :=
  (s.updCore c (fun x => { x with tlb := (t :: x.tlb).take 256 })).updDie (dieOf c) (fun x =>
    { x with tlb := if x.tlb.contains t then x.tlb else (t :: x.tlb).take 65536 })

/-- The physical address of a virtual address under a leaf at a level. -/
def leafPa (lvl : Nat) (leaf : W64) (va : Nat) : Nat := fieldOf leaf 51 16 * 65536 + va % 2 ^ lvlShift lvl

/-- The leaf of a virtual address: from the core's TLB, the die's, or a walk that fills both (R319). -/
def findLeaf (s : State) (c ctx va : Nat) : Walk × State :=
  match tlbFind (s.core c).tlb ctx va with
  | some t => (.leaf t.lvl t.leaf t.leafPa, s)
  | none =>
    match tlbFind (s.die (dieOf c)).tlb ctx va with
    | some t => (.leaf t.lvl t.leaf t.leafPa, tlbFill s c t)
    | none =>
      let r := walk s (dieOf c) ctx va
      match r.1 with
      | .leaf lvl e pa => (r.1, tlbFill r.2 c { ctx := ctx, lvl := lvl, vpn := va / 2 ^ lvlShift lvl, leaf := e, leafPa := pa })
      | _ => r

/-- Whether the leaf of a virtual address cannot be told yet: an entry of its walk is on its way from another module (R346). -/
def walkWaits (s : State) (c ctx va : Nat) : Bool := !highVa va && (findLeaf s c ctx va).1 == .wait

/-- R328: whether the page of an address is being moved: a write waits until step 5 of its migration is over. -/
def migHeld (s : State) (ctx va : Nat) : Bool :=
  s.migActive.any (fun l => l.any (fun m =>
    m.ctx == ctx && 2 ≤ m.step && m.step ≤ 5 && va / 2 ^ lvlShift m.level == m.va.toNat / 2 ^ lvlShift m.level))

/-- R317: the checks of a translation in order, with the fault codes of a fetch (R47) or of a data access; R328: a write
to a page that is COPYING waits, and so does an access to storage that is not READY yet (R367; log entry 150). -/
def translate (s : State) (c ctx va : Nat) (w : Want) : Acc Tr :=
  let fetch := w == .fetch
  if highVa va then .fault (if fetch then exc cFETCH va 5 else exc cPAGE va 16) s
  else
    let r := findLeaf s c ctx va
    match r.1 with
    | .invalid lvl m => .fault (if fetch then exc cFETCH va lvl else exc cPAGE va (lvl + if m then 8 else 0)) r.2
    | .bad e => .fault (if e.code == cMEMUNC then { e with detail := e.detail ||| 4 } else { e with addr := BitVec.ofNat 64 va }) r.2
    | .wait => .wait r.2
    | .leaf lvl e _ =>
      let pa := leafPa lvl e va
      if fetch && fieldOf e 5 5 == 0 then .fault (exc cFETCH va 7) r.2
      else if w == .store && fieldOf e 4 4 == 0 then .fault (exc cACCESS va) r.2
      else if !populated r.2 pa then .fault (if fetch then exc cFETCH va 6 else exc cACCESS va) r.2
      else if !inRemote pa && w != .probe && notReady r.2 (unitOf pa) then .wait r.2
      else if w == .store && (fieldOf e 12 11 == 1 || migHeld r.2 ctx va) then .wait r.2
      else .ok { pa := pa, leaf := e } r.2

-- Global accesses of the group in focus ------------------------------------------------------------------------------

/-- The context of the group in focus. -/
def Group.ctxid (g : Group) : Nat := g.handle.toNat / 2 ^ 56

/-- Whether a reduction that the group in focus posted on a line has not been applied in the L2 of its die: the group's later accesses to the
line wait for it (R141, R150). -/
def redLine (s : State) (line : Nat) : Bool :=
  (s.die (dieOf s.grp.core)).reds.any (fun r => r.handle == s.grp.handle && r.pa / 128 == line)

/-- A load of `n` bytes within one line, by stream `st` (R137, R138, R140, R142). -/
def vaRead (s : State) (st va n : Nat) : Acc Nat :=
  (translate s s.grp.core s.grp.ctxid va .load).bind (fun t s =>
    if inRemote t.pa then remoteRead s st t.pa va n 3
    else if redLine s (t.pa / 128) then .wait s
    else coreRead s s.grp.core t va n)

/-- A store of `n` bytes within one line (R139, R140, R142). -/
def vaWrite (s : State) (va n v : Nat) : Acc Unit :=
  (translate s s.grp.core s.grp.ctxid va .store).bind (fun t s =>
    if inRemote t.pa then
      remoteWrite s t.pa va (byteMask (t.pa % 128) n) (lineAt (t.pa % 128) (v % 2 ^ (8 * n))) 3 1 0
    else if redLine s (t.pa / 128) then .wait s
    else coreWrite s s.grp.core t va n v)

/-- A load or store whose address must be a multiple of its width (R140). -/
def alignedTo (s : State) (va n : Nat) : Acc Unit := Acc.guard (va % n != 0) (exc cALIGN va) s

-- Device-scope accesses through a context (R120, R123, R124) ---------------------------------------------------------

/-- The core through whose TLB the device translates for a group, core 0 where there is none (log entry 33). -/
def devCore (s : State) (h : W64) : Nat :=
  match s.groupOf h with
  | some g => g.core
  | none => 0

/-- Whether an increment of the device is on its way to another module. -/
def devCounting (s : State) (key : Nat) : Bool := s.devw.any (fun r => r.stream == 2 ^ 64 * (key + 1))

/-- A read of `n` bytes at its home for the device's own use, the addresses translated by `tr`; what other modules answer is kept under `key`. -/
def devReadAt (tr : State → Nat → Acc Tr) (key : Nat) (s : State) (va n : Nat) : Acc Nat :=
  let rec go : Nat → State → Nat → Nat → Acc Nat
    | 0, s, _, _ => .ok 0 s
    | k + 1, s, va, n =>
      if n == 0 then .ok 0 s
      else
        let m := min n (128 - va % 128)
        (tr s va).bind (fun t s =>
          if inRemote t.pa then
            let lo := t.pa / 8 * 8
            let len := (t.pa + m - lo + 7) / 8 * 8
            let p := { packet0 (remoteMod t.pa) 0 3 with arg := BitVec.ofNat 8 (len / 8), addr := BitVec.ofNat 45 lo }
            (devAsk s key p lo va len).bind (fun b s =>
              (go k s (va + m) (n - m)).bind (fun v s => .ok (leNat b / 2 ^ (8 * (t.pa - lo)) % 2 ^ (8 * m) + v * 2 ^ (8 * m)) s))
          else
            let r := homeRead s t.home (t.pa / 128)
            if r.bad &&& blocksOf (t.pa % 128) m != 0 then .fault (uncorrectable va (memSource s t.home t.pa)) r.st
            else (go k r.st (va + m) (n - m)).bind (fun v s => .ok (lineRead r.data (t.pa % 128) m + v * 2 ^ (8 * m)) s))
  go (n / 128 + 2) s va n

/-- The same read, whole: its answers are forgotten once it has ended. -/
def devReadBy (tr : State → Nat → Acc Tr) (s : State) (va n : Nat) : Acc Nat := devEnd va (devReadAt tr va s va n)

/-- A write of `n` bytes at its home for the device's own use, the addresses translated by `tr`. -/
def devWriteBy (tr : State → Nat → Acc Tr) (s : State) (va n v : Nat) : Acc Unit :=
  let rec go : Nat → State → Nat → Nat → Nat → Acc Unit
    | 0, s, _, _, _ => .ok () s
    | k + 1, s, va, n, v =>
      if n == 0 then .ok () s
      else
        let m := min n (128 - va % 128)
        (tr s va).bind (fun t s =>
          let mask := byteMask (t.pa % 128) m
          let data := lineAt (t.pa % 128) (v % 2 ^ (8 * m))
          (if inRemote t.pa then devPost s t.pa va mask data
            else .ok () (homeWrite s t.home (t.pa / 128) mask data)).bind (fun _ s => go k s (va + m) (n - m) (v / 2 ^ (8 * m))))
  go (n / 128 + 2) s va n v

/-- R119, R123, R353: 1 added, modulo 2^32, to the `n32` counter at a virtual address, at its home: the old value. `key` tells the device's
increments apart. -/
def devCountBy (tr : State → Nat → Acc Tr) (s : State) (va key : Nat) : Acc Nat :=
  (tr s va).bind (fun t s =>
    if inRemote t.pa then
      let p := { packet0 (remoteMod t.pa) 2 3 with arg := 1, addr := BitVec.ofNat 45 t.pa, data := bytesOf 16 1 }
      devEnd (2 ^ 64 * (key + 1)) ((devAsk s (2 ^ 64 * (key + 1)) p t.pa va 8).bind (fun b s => .ok (leNat b % 2 ^ 32) s))
    else
      match homeAtomic s t.home t.pa 4 (fun c => (c + 1) % 2 ^ 32) with
      | some r => .ok r.1 r.2
      | none => .fault (uncorrectable va (memSource s t.home t.pa)) (atomicMissed s t.home t.pa))

/-- The device's translation of an address of a context, for a group or for itself. -/
def devTr (ctx : Nat) (h : W64) (w : Want) (s : State) (va : Nat) : Acc Tr := translate s (devCore s h) ctx va w

/-- A read through the tables of a context. -/
def devRead (s : State) (ctx va n : Nat) (h : W64) : Acc Nat := devReadBy (devTr ctx h .load) s va n
/-- One of several reads through the tables of a context that end together; their answers are kept under `key`. -/
def devReadOf (key : Nat) (s : State) (ctx va n : Nat) : Acc Nat := devReadAt (devTr ctx 0 .load) key s va n
/-- A write through the tables of a context. -/
def devWrite (s : State) (ctx va n v : Nat) (h : W64) : Acc Unit := devWriteBy (devTr ctx h .store) s va n v
/-- An increment through the tables of a context. -/
def devCount (s : State) (ctx va : Nat) (key : Nat) (h : W64) : Acc Nat := devCountBy (devTr ctx h .store) s va key

end Sys2Proof.Machine
end

