-- ==== Sys2Proof/Machine/Ops.lean ====
section
/-! DEFINITION. The named operations over the group in focus: registers and program counters, token counters (R102 to
R105), the sequencer (R86, R90), vector results in flight and latches (R65, R158), the fault record (R330), taking a trap
(R64) and returning from one (R68), aborting and stopping (R95, R110), and ending a stream (R109). -/

namespace Sys2Proof.Machine

/-- One outcome of a step of this machine. -/
abbrev Out := Host.Outcome State Fault Refusal

-- Registers ----------------------------------------------------------------------------------------------------------

/-- A scalar register; `g0` reads zero (Table 1-3). -/
def Group.x (g : Group) (r : BitVec 5) : W64 := if r == 0 then 0 else g.gregs.getD r.toNat 0
/-- A scalar register of the group in focus. -/
def State.x (s : State) (r : BitVec 5) : W64 := s.grp.x r
/-- A write of a scalar register; a write to `g0` is discarded (R48). -/
def State.setX (s : State) (r : BitVec 5) (v : W64) : State :=
  if r == 0 then s else s.updGrp (fun g => { g with gregs := updAt g.gregs r.toNat (fun _ => v) })

/-- A vector register as its 128 lanes (R153). -/
def Group.v (g : Group) (r : Nat) : List W32 := g.vregs.getD r (List.replicate 128 0)
/-- Lane `i` of a vector register. -/
def Group.lane (g : Group) (r i : Nat) : W32 := (g.v r).getD i 0
/-- A mask register; `k0` reads all ones (R154). -/
def Group.k (g : Group) (r : Nat) : BitVec 128 := if r == 0 then BitVec.allOnes 128 else g.kregs.getD r 0
/-- A tile descriptor. -/
def Group.d (g : Group) (r : Nat) : BitVec 128 := g.dregs.getD r 0
/-- An address register of the copy stream. -/
def Group.a (g : Group) (r : Nat) : W64 := g.aregs.getD r 0
/-- A tensor handle. -/
def Group.h (g : Group) (r : Nat) : BitVec 256 := g.hregs.getD r 0

/-- Stream `st` of a group. -/
def Group.stream (g : Group) (st : Nat) : StreamSt :=
  match st with
  | 0 => g.ss
  | 1 => g.vs
  | 2 => g.ms
  | _ => g.cs

/-- A group with stream `st` changed. -/
def Group.updStream (g : Group) (st : Nat) (f : StreamSt → StreamSt) : Group :=
  match st with
  | 0 => { g with ss := f g.ss }
  | 1 => { g with vs := f g.vs }
  | 2 => { g with ms := f g.ms }
  | _ => { g with cs := f g.cs }

/-- Stream `st` of the group in focus changed. -/
def State.updStream (s : State) (st : Nat) (f : StreamSt → StreamSt) : State := s.updGrp (fun g => g.updStream st f)

/-- The program counter of stream `st` of the group in focus. -/
def State.pc (s : State) (st : Nat) : W64 := (s.grp.stream st).pc
/-- The program counter set; the stream is READY (R97). -/
def State.setPc (s : State) (st : Nat) (pc : W64) : State := s.updStream st (fun t => { t with pc := pc, run := .ready })
/-- The next word in sequence. -/
def State.advance (s : State) (st : Nat) : State := s.setPc st (s.pc st + 4)
/-- The stream waits, BLOCKED, and its instruction re-issues whole (R97). -/
def State.block (s : State) (st : Nat) : State := s.updStream st (fun t => { t with run := .blocked })

-- Branches and the sequencer -----------------------------------------------------------------------------------------

/-- R90: a taken branch: within the innermost open level it stays, at its `end` the iteration is complete, and any other
target abandons every open level. In handler mode the scalar sequencer is suspended (R92). -/
def State.branch (s : State) (st : Nat) (x : W64) : State :=
  let s1 := s.setPc st x
  if s.grp.hmode && st == 0 then s1
  else
    match (s.grp.stream st).levels with
    | [] => s1
    | l :: _ =>
      if l.start ≤ x.toNat && x.toNat ≤ l.stop then s1
      else s1.updStream st (fun t => { t with levels := [], replay := [] })

/-- The captured loop-table entry of a level. -/
def Group.loopEnt (g : Group) (lvl : Nat) : LoopEnt :=
  g.loops.getD lvl { kind := 1, pcount := false, count := 0, strides := [], sels := [] }

/-- The base field of a descriptor changed (R81, R231). -/
def dBase (d : BitVec 128) (f : W32 → W32) : BitVec 128 :=
  (d &&& ~~~(0xFFFFFFFF : BitVec 128)) ||| (f (d.setWidth 32)).setWidth 128

/-- Whether a vector register is the destination of a `vld` that is undecided, or that has failed and is not replayed yet (R185). -/
def Group.awaits (g : Group) (r : Nat) : Bool :=
  ([g.vld, g.vreplay, g.vpend, g.vtrap] ++ g.pendTraps.map (fun p => p.vld)).any (fun o => o.any (fun o => o.num == r))

/-- R91: an amount added to every lane of a vector register: a result in flight with latency 1, which takes a stream cycle. -/
def vecStride (s : State) (r : Nat) (d : W32) : State :=
  s.updGrp (fun g => { g with
    flight := g.flight ++ [{ isMask := false, num := r, vals := (g.v r).map (fun x => x + d), kval := 0,
                             lanes := BitVec.allOnes 128, part := 0, due := g.vcyc + 1, push := 0 }],
    vcyc := g.vcyc + 1 })

/-- R86, R91: the stride of a level times `k` added to the register that the stream's selector names. -/
def strideAdd (s : State) (st lvl : Nat) (k : Int) : State :=
  let e := s.grp.loopEnt lvl
  let sel := (e.sels.getD st 0).toNat
  let d : Int := (e.strides.getD st 0).toInt * k
  let r := sel % 32
  if sel < 128 then s
  else
    match st with
    | 0 => s.setX (BitVec.ofNat 5 r) (s.x (BitVec.ofNat 5 r) + BitVec.ofInt 64 d)
    | 1 => vecStride s r (BitVec.ofInt 32 d)
    | 2 => s.updGrp (fun g => { g with dregs := updAt g.dregs r (fun x => dBase x (fun b => b + BitVec.ofInt 32 d)) })
    | _ => s.updGrp (fun g => { g with aregs := updAt g.aregs r (fun x => x + BitVec.ofInt 64 d) })

/-- Whether the stream's pc stands at the `end` of its innermost open level, outside handler mode for the scalar stream
(R86, R92). -/
def atLoopEnd (g : Group) (st : Nat) : Bool :=
  match (g.stream st).levels with
  | [] => false
  | l :: _ => !(g.hmode && st == 0) && l.stop == (g.stream st).pc.toNat

/-- R86: one step of the sequencer at the `end` of the innermost open level: the next iteration, or the level closes. -/
def loopStep (s : State) (st : Nat) : State :=
  match (s.grp.stream st).levels with
  | [] => s
  | l :: ls =>
    let n := (s.grp.loopEnt l.lvl).count
    if l.idx + 1 < n then
      (strideAdd s st l.lvl 1).updStream st (fun t => { t with
        levels := { l with idx := l.idx + 1 } :: ls, pc := BitVec.ofNat 64 l.start, run := .ready })
    else
      (strideAdd s st l.lvl (-((n : Int) - 1))).updStream st (fun t => { t with
        levels := ls, replay := if ls.isEmpty then [] else t.replay, run := .ready })

-- Token counters -----------------------------------------------------------------------------------------------------

/-- R102: the counter from peer `j` of stream `y` to it. -/
def popIdx (y j : Nat) : Nat :=
  let x := if j < y then j else j + 1
  3 * x + if y < x then y else y - 1
/-- R102: the counter from stream `x` to its peer `j`. -/
def pushIdx (x j : Nat) : Nat := 3 * x + j
/-- The producer of a counter. -/
def prodOf (i : Nat) : Nat := i / 3
/-- The consumer of a counter. -/
def consOf (i : Nat) : Nat := if i % 3 < i / 3 then i % 3 else i % 3 + 1
/-- R41: the peers that a mask of three bits names, the most significant bit first. -/
def maskPeers (m : BitVec 3) : List Nat := (List.range 3).filter (fun j => bitAt m (2 - j))
/-- The counters that a pop mask of stream `y` names. -/
def popSet (y : Nat) (m : BitVec 3) : List Nat := (maskPeers m).map (popIdx y)
/-- The counters that a push mask of stream `x` names. -/
def pushSet (x : Nat) (m : BitVec 3) : List Nat := (maskPeers m).map (pushIdx x)
/-- A counter. -/
def Group.tok (g : Group) (i : Nat) : Nat := g.toks.getD i 0
/-- Whether a stream has ENDED. -/
def Group.ended (g : Group) (st : Nat) : Bool := (g.stream st).run == .ended

/-- R105: the first counter of a pop that is short of `n` and whose producer is ENDED. -/
def orphan (g : Group) (cs : List Nat) (n : Nat) : Option Nat :=
  (List.range 12).find? (fun i => cs.contains i && g.tok i < n && g.ended (prodOf i))
/-- R103: whether every counter holds `n`. -/
def popsReady (g : Group) (cs : List Nat) (n : Nat) : Bool := cs.all (fun i => n ≤ g.tok i)
/-- R103: whether every counter has room for `n` more; a consumer that is ENDED needs none. -/
def pushRoom (g : Group) (cs : List Nat) (n : Nat) : Bool :=
  cs.all (fun i => g.ended (consOf i) || g.tok i + g.resv.getD i 0 + n ≤ 63)
/-- Counters changed by `f`. -/
def Group.updToks (g : Group) (cs : List Nat) (f : Nat → Nat) : Group := { g with toks := cs.foldl (fun l i => updAt l i f) g.toks }
/-- Reservations changed by `f`. -/
def Group.updResv (g : Group) (cs : List Nat) (f : Nat → Nat) : Group := { g with resv := cs.foldl (fun l i => updAt l i f) g.resv }
/-- R103: `n` added to counters, saturating at 63; a lost increment sets TOKSAT. -/
def Group.pushToks (g : Group) (cs : List Nat) (n : Nat) : Group :=
  let g1 := g.updToks cs (fun t => min 63 (t + n))
  if cs.any (fun i => g.tok i + n > 63) then { g1 with toksat := true } else g1

/-- R103: the pops of an instruction and the reservation of its pushes. -/
def tokIssue (s : State) (st : Nat) (p q : BitVec 3) : State :=
  s.updGrp (fun g => (g.updToks (popSet st p) (fun t => t - 1)).updResv (pushSet st q) (fun r => r + 1))
/-- R103: the pushes of an instruction that completes. -/
def tokDone (s : State) (st : Nat) (q : BitVec 3) : State :=
  s.updGrp (fun g => (g.updResv (pushSet st q) (fun r => r - 1)).pushToks (pushSet st q) 1)
/-- R103: the reservations of an instruction that is cut. -/
def tokRelease (s : State) (st : Nat) (q : BitVec 3) : State :=
  s.updGrp (fun g => g.updResv (pushSet st q) (fun r => r - 1))

/-- R103, R105: whether an instruction with these masks may issue: the orphan fault, a wait, or yes. -/
def tokCheck (s : State) (st : Nat) (p q : BitVec 3) : Acc Unit :=
  match orphan s.grp (popSet st p) 1 with
  | some i => .fault (exc cORPHAN i) s
  | none => if popsReady s.grp (popSet st p) 1 && pushRoom s.grp (pushSet st q) 1 then .ok () s else .wait s

-- Vector results -----------------------------------------------------------------------------------------------------

/-- R65: a lane written in the bits that PART names. -/
def partMerge (part : Nat) (old new : W32) : W32 :=
  let m : W32 := match part with
    | 0 => 0xFFFFFFFF
    | 1 => 0xFFFF
    | 2 => 0xFFFF0000
    | p => (0xFF : W32) <<< (8 * (p - 4))
  (old &&& ~~~m) ||| (new &&& m)

/-- A vector register written in the lanes of a mask. -/
def Group.setV (g : Group) (r : Nat) (lanes : BitVec 128) (part : Nat) (vals : List W32) : Group :=
  { g with vregs := updAt g.vregs r (fun old => tab 128 (fun i =>
      if bitAt lanes i then partMerge part (old.getD i 0) (vals.getD i 0) else old.getD i 0)) }

/-- A mask register written in the bits of a mask. -/
def Group.setK (g : Group) (r : Nat) (lanes v : BitVec 128) : Group :=
  { g with kregs := updAt g.kregs r (fun old => (old &&& ~~~lanes) ||| (v &&& lanes)) }

/-- A result written to its register, and its instruction's pushes (R158, R160). -/
def landFlight (s : State) (f : Flight) : State :=
  tokDone (s.updGrp (fun g => if f.isMask then g.setK f.num f.lanes f.kval else g.setV f.num f.lanes f.part f.vals)) 1 f.push

/-- Insertion by write cycle, later issues behind earlier ones of the same cycle (R158). -/
def insFlight (f : Flight) : List Flight → List Flight
  | [] => [f]
  | x :: xs => if f.due < x.due then f :: x :: xs else x :: insFlight f xs

/-- Results in the order in which they are written (R158). -/
def flightOrder (l : List Flight) : List Flight := l.foldl (fun acc f => insFlight f acc) []

/-- R158: every result whose write cycle has come is written. -/
def retireDue (s : State) : State :=
  let due := flightOrder (s.grp.flight.filter (fun f => f.due ≤ s.grp.vcyc))
  due.foldl landFlight (s.updGrp (fun g => { g with flight := g.flight.filter (fun f => s.grp.vcyc < f.due) }))

/-- Every result written, whatever its cycle (R64 for a DRAINING stream, R110, R111). -/
def retireAll (s : State) : State :=
  (flightOrder s.grp.flight).foldl landFlight (s.updGrp (fun g => { g with flight := [] }))

-- The sequencer at a stop ---------------------------------------------------------------------------------------------

/-- Vector stream cycles pass until a result slot is free (R159). -/
def waitSlot (s : State) : State :=
  (List.range 8).foldl (fun s _ =>
    if s.grp.flight.length ≥ 8 then retireDue (s.updGrp (fun g => { g with vcyc := g.vcyc + 1 })) else s) (retireDue s)

/-- The vector register that the innermost open level of the vector stream updates, if any (R91). -/
def seqTarget (g : Group) : Option Nat :=
  match g.vs.levels with
  | [] => none
  | l :: _ =>
    let sel := ((g.loopEnt l.lvl).sels.getD 1 0).toNat
    if sel ≥ 128 then some (sel % 32) else none

/-- Whether that register has still to be written by a `vld` that is undecided, or that failed and is to be replayed: the update names it
and waits for its data (R91, R185). -/
def updateHeld (g : Group) : Bool := (seqTarget g).any g.awaits

/-- The sequencer steps that stand between a stream and its next instruction (R86), made before a trap or a save records the return
PCs; a vector update takes its cycle and its result slot (R91). The vector stream stays at the `end` of an iteration whose update has to wait
for a `vld` (R185; DEDUCED, log entry 142). -/
def settleSeq (s : State) (st : Nat) : State :=
  (List.range 6).foldl (fun s _ =>
    if !atLoopEnd s.grp st || (st == 1 && updateHeld s.grp) then s
    else loopStep (if st == 1 && (seqTarget s.grp).isSome then waitSlot s else s) st) s

/-- The sequencer steps of every stream. -/
def settleSeqs (s : State) : State := [0, 1, 2, 3].foldl settleSeq s

/-- The better of two faults of one instruction: the check that comes first, then the lower lane (R184). DESIGN CHOICE: lane addresses wrap
modulo 2^64, and the lowest lane's address is reported also where they wrap (log entry 166). -/
def firstExc : Option Exc → Exc → Option Exc
  | none, e => some e
  | some a, e => if e.code < a.code then some e else some a

/-- R184: 4-byte reads of the active lanes from `a`: the checks over all lanes first, then the values. No fault is found while a lane
waits, since its own check may come first. -/
def readLanes (s : State) (a : Nat) (mask : BitVec 128) : Acc (List W32) :=
  if mask != 0 && a % 4 != 0 then .fault (exc cALIGN (a + 4 * lowest 128 (bitAt mask))) s
  else
    let r := (List.range 128).foldl (fun (acc : List W32 × Option Exc × Bool × State) i =>
      if bitAt mask i then
        match vaRead acc.2.2.2 1 ((a + 4 * i) % 2 ^ 64) 4 with
        | .ok v s => (acc.1 ++ [BitVec.ofNat 32 v], acc.2.1, acc.2.2.1, s)
        | .fault e s => (acc.1 ++ [0], firstExc acc.2.1 e, acc.2.2.1, s)
        | .wait s => (acc.1 ++ [0], acc.2.1, true, s)
      else (acc.1 ++ [0], acc.2)) (([] : List W32), none, false, s)
    if r.2.2.1 then .wait r.2.2.2
    else
      match r.2.1 with
      | some e => .fault e r.2.2.2
      | none => .ok r.1 r.2.2.2

/-- A fault as its record will describe it, raised by stream `st` at its pc (R330). -/
def faultOf (s : State) (st : Nat) (e : Exc) (el : Option Nat) : FaultInfo :=
  { code := e.code, stream := st, async := false, imprecise := false, elvalid := el.isSome, element := el.getD 0,
    pc := s.pc st, addr := e.addr, ipc := s.pc st, word := s.iw, detail := e.detail, opa := 0, opb := 0, opc := 0,
    cycle := s.cycle, bar := e.bar }

/-- R185, R331: the record of a `vld` whose checks failed in core cycle `c`. -/
def vldFault (o : VldOp) (e : Exc) (c : Nat) : FaultInfo :=
  { code := e.code, stream := 1, async := true, imprecise := false, elvalid := false, element := 0, pc := o.pc,
    addr := e.addr, ipc := o.pc, word := o.word, detail := e.detail, opa := o.addr, opb := o.mask.setWidth 64,
    opc := (o.mask >>> 64).setWidth 64, cycle := c }

/-- R185: the undecided `vld` of the group in focus is decided: its data is written and it completes, or its fault is
found. -/
def decideVld (s : State) : Acc (Option FaultInfo) :=
  match s.grp.vld with
  | none => .ok none s
  | some o =>
    match readLanes s o.addr.toNat o.mask with
    | .ok vals s => .ok none (clearRemote (tokDone (s.updGrp (fun g => { g.setV o.num o.mask 0 vals with vld := none })) 1 o.push) 1)
    | .fault e s => .ok (some (vldFault o e s.cycle)) (clearRemote (s.updGrp (fun g => { g with vld := none })) 1)
    | .wait s => .wait s

-- The fault record ---------------------------------------------------------------------------------------------------

/-- R330: the 128 bytes of a fault record; CYCLE is that of its detection. -/
def recNat (f : FaultInfo) (hmode : Bool) (handle : W64) : Nat :=
  let b (x : Bool) (n : Nat) : Nat := if x then 2 ^ n else 0
  (f.code * 2 ^ 56 + f.stream * 2 ^ 54 + b f.async 53 + b f.imprecise 52 + b f.elvalid 51 + b hmode 50 + f.element % 2 ^ 32) +
  f.pc.toNat * 2 ^ 64 + f.addr.toNat * 2 ^ 128 + f.ipc.toNat * 2 ^ 192 + f.word.toNat * 2 ^ 256 + f.detail.toNat * 2 ^ 288 +
  f.opa.toNat * 2 ^ 320 + f.opb.toNat * 2 ^ 384 + f.opc.toNat * 2 ^ 448 + handle.toNat * 2 ^ 512 + f.cycle % 2 ^ 64 * 2 ^ 576

-- Fetch --------------------------------------------------------------------------------------------------------------

/-- A word as a core's fetch finds it: in L1, then in L2, then at the home; nothing is filled (log entry 12). A bad block is a fault of the
fetch (R47); a line that lies dirty in a bank in DRAINING W is waited for (R192). -/
def fetchHome (s : State) (c : Nat) (t : Tr) (va : Nat) : Acc Nat :=
  let line := t.pa / 128
  let off := t.pa % 128
  let found (cl : CLine) : Acc Nat :=
    if cl.bad &&& blocksOf off 4 != 0 then .fault (uncorrectable va (cl.source t.pa 4)) s else .ok (lineRead cl.data off 4) s
  let home (own : BitVec 1024) (dirty : BitVec 128) : Acc Nat :=
    let r := homeRead s t.home line
    if r.bad &&& blocksOf off 4 != 0 then .fault (uncorrectable va (memSource s t.home t.pa)) r.st
    else .ok (lineRead (mergeLine r.data own dirty) off 4) r.st
  let l2 : Acc Nat :=
    match l2Find s (dieOf c) line with
    | some cl => if cl.has off 4 then found cl else home cl.data cl.dirty
    | none => home 0 0
  if l1Draining s c line then .wait s
  else
    match l1Find s c line with
    | some cl => if cl.has off 4 then found cl else l2
    | none => l2

/-- R84: the word of stream `st` at an address with the launch's patch values ORed in. -/
def patchWord (g : Group) (st pc w : Nat) : Nat :=
  g.patches.foldl (fun w (p : Patch × W32) =>
    if p.1.stream == st && (g.codeBase.toNat + p.1.word) % 2 ^ 64 == pc then w ||| (p.2.toNat % 2 ^ (p.1.hi + 1 - p.1.lo) * 2 ^ p.1.lo) else w) w

/-- A fetch from another module: an address that its home does not populate is FETCH_FAULT (R47, R317). -/
def fetchRemote (s : State) (st pa pc : Nat) : Acc Nat :=
  match remoteRead s st pa pc 4 3 with
  | .fault e s1 => .fault (if e.code == cACCESS then exc cFETCH pc 6 else e) s1
  | r => r

/-- The word at an address, fetched for stream `st` of the group in focus (R37, R47, R136). -/
def fetchWord (s : State) (st pc : Nat) : Acc Nat :=
  (translate s s.grp.core s.grp.ctxid pc .fetch).bind (fun t s =>
    (if inRemote t.pa then fetchRemote s st t.pa pc else fetchHome s s.grp.core t pc).bind (fun w s =>
      .ok (patchWord s.grp st pc w) s))

/-- The instruction word at the pc of a stream of the group in focus, as a record made outside the stream's own issue gives it; 0 where it
cannot be fetched at once (R330, log entry 118). -/
def wordAt (s : State) (st : Nat) : W32 :=
  match fetchWord s st (s.pc st).toNat with
  | .ok w _ => BitVec.ofNat 32 w
  | _ => 0

-- Stopping the streams -----------------------------------------------------------------------------------------------

/-- R60: a progress register that records a cut at an element. -/
def prgOf (pc : W64) (el : Nat) : W64 := BitVec.ofNat 64 (2 ^ 63 + fieldOf pc 25 2 * 2 ^ 32 + el % 2 ^ 32)
/-- VALID of a progress register. -/
def prgValid (p : W64) : Bool := bitAt p 63
/-- R61: whether a progress register records the instruction at a pc. -/
def prgMatch (p : W64) (pc : W64) : Bool := prgValid p && fieldOf p 55 32 == fieldOf pc 25 2
/-- A progress register with VALID cleared (R61). -/
def prgClear (p : W64) : W64 := p &&& 0x7FFFFFFFFFFFFFFF
/-- ELEMENT of a progress register. -/
def prgElem (p : W64) : Nat := fieldOf p 31 0

/-- Whether every stream of a group has ended, and with them every load that it issued (R111). -/
def Group.allEnded (g : Group) : Bool := g.ended 0 && g.ended 1 && g.ended 2 && g.ended 3 && g.vld.isNone && g.vreplay.isNone

/-- Everything of the group in focus that has ended: the group leaves RUNNING for RETIRING, with its pair (R95, R96). -/
def retireIfEnded (s : State) : State :=
  if s.grp.st == .running && s.grp.allEnded then
    if s.grp.partner == 0 then (s.updGrp (fun g => { g with st := .retiring })).postE (.groupRetire s.grp.handle)
    else
      match s.groupOf s.grp.partner with
      | some p =>
        if p.st == .running && p.allEnded then
          ((s.updGrp (fun g => { g with st := .retiring })).updGroup p.handle (fun g => { g with st := .retiring })).post
            [.event (.groupRetire s.grp.handle), .event (.groupRetire p.handle)]
        else s
      | none => (s.updGrp (fun g => { g with st := .retiring })).postE (.groupRetire s.grp.handle)
  else s

/-- R109: a DRAINING stream completes: its pushes, its result, its sequencer discarded, ENDED. -/
def endStream (s : State) (st : Nat) : State :=
  let t := s.grp.stream st
  let s1 := if st == 0 then s
    else s.updGrp (fun g => (g.updResv (pushSet st t.pendPush) (fun r => r - 1)).pushToks (pushSet st t.pendPush) 1)
  s1.updStream st (fun t => { t with run := .ended, result := t.pendResult, levels := [], replay := [] })

/-- R241: the tile command of a group is cut at its element boundary, element 0 having begun; the attempts made at the element are kept for
the frame's resumption (R220; log entry 38). -/
def Group.cutFrame (g : Group) : Group :=
  match g.mcmd with
  | none => g
  | some c =>
    { g.updResv (pushSet 2 c.push) (fun r => r - 1) with
      mcmd := none, prgm := prgOf c.pc c.elem, fmtcur := c.fw, again := (c.attempt, c.seen) }

/-- R236: a started tile command whose element 0 has not begun is undone: its pops are restored and its format word returns to the head of
the queue; one re-issued under R61 popped nothing. -/
def Group.undoTile (g : Group) : Group :=
  match g.mcmd with
  | none => g
  | some c =>
    let g1 := { g.updResv (pushSet 2 c.push) (fun r => r - 1) with mcmd := none }
    if c.resumed then (if c.inFrame then { g1 with again := (c.attempt, c.seen) } else g1)
    else { g1.updToks (popSet 2 c.pops) (fun t => min 63 (t + 1)) with fmtq := c.fw :: g1.fmtq }

/-- An `msync` that has issued and waits is undone: its pops are restored (R103). -/
def Group.undoSync (g : Group) : Group :=
  match g.msync with
  | none => g
  | some x => { (g.updResv (pushSet 2 x.2) (fun r => r - 1)).updToks (popSet 2 x.1) (fun t => min 63 (t + 1)) with msync := none }

/-- The matrix stream stands at its tile command again: `epcm` of a cut command is its address (R241). -/
def Group.comeBack (g : Group) : Group :=
  match g.mcmd.bind (fun c => c.passed) with
  | none => g
  | some t => { g.undoSync with ms := { t with run := .ready } }

/-- The tile command of a group stops, and with it the member's part in its frame. -/
def Group.stopTile (g0 : Group) : Group :=
  let g := g0.comeBack
  match g.mcmd with
  | none => g
  | some c =>
    { (if c.begun then g.cutFrame else g.undoTile) with
      memb := if c.inFrame then g.memb.map (fun m => { m with state := 4 }) else g.memb }

/-- Whether a group is a member of the session that a string carries. -/
def Group.onStr (g : Group) (n : Nat) : Bool :=
  match g.memb with
  | some m => m.str == n && m.role != 2 && m.state != 5 && !m.parked
  | none => false

/-- Table 11-2: a member of a frame on string `n` stops, so every member holds at this element boundary, its command cut
(R241), and the session pauses; the modules at the string's other end are told (R205). -/
def pauseStr (s : State) (n : Nat) : State :=
  if (s.str n).sess != .frame then s
  else
    (s.updStr n (fun t => { t with
      sess := .paused, members := t.members.map (fun m => { m with ready := false }),
      notes := if t.mode == 0 then t.notes else t.notes ++ [{ kind := 2, member := 256 * s.modid, key := t.key, ctx := t.ctx, fields := 0 }]
      })).updGroups (fun g => g.onStr n && (match g.mcmd with
        | some c => c.inFrame
        | none => false)) Group.stopTile

/-- R213: a member's waiting command is undone: its readiness is taken back at the talker's module, and that of a talker's remote listeners, which
answer its preamble anew (log entry 26). -/
def unready (s : State) (m : Memb) : State :=
  s.updStr m.str (fun t =>
    if m.role != 1 then { t with members := t.members.map (fun m => { m with ready := false }) }
    else if t.mode != 2 then t
    else { t with notes := t.notes ++ [{ kind := 0, member := 256 * s.modid + s.grp.core, key := m.key, ctx := s.grp.handle.toNat / 2 ^ 56, fields := 1 }] })

/-- R241, R236: the tile command of the group in focus stops: cut at its element boundary, or undone before element 0; a frame in which it
takes part pauses. -/
def cutTile (s : State) : State :=
  match s.grp.mcmd with
  | none => s
  | some c =>
    let s1 := s.updGrp Group.stopTile
    match s.grp.memb with
    | some m => if m.role == 2 then s1 else if c.inFrame then pauseStr s1 m.str else unready s1 m
    | none => s1

/-- R188, R180: the multi-step vector instruction of the group in focus is cut at its element boundary. -/
def cutVector (s : State) : State :=
  match s.grp.vcmd with
  | none => s
  | some c =>
    (tokRelease s 1 c.push).updGrp (fun g => { g with
      vcmd := none, prgv := prgOf c.pc (match c.kind with
        | .quant => c.bstart
        | _ => c.elem) })

/-- R246, R61: the copy command of the group in focus is cut at its element boundary. -/
def cutCopy (s : State) : State :=
  match s.grp.ccmd with
  | none => s
  | some c => (tokRelease s 3 c.push).updGrp (fun g => { g with ccmd := none, prgc := prgOf c.pc c.elem })

/-- R211: a waiting join or calibration of the group in focus is withdrawn from every arbiter; a SAVED session that waits for its string keeps
its place. A join that waits at the arbiter of the feeding module is withdrawn there by a notice (R205). -/
def withdrawJoin (s : State) : State :=
  { s with strs := s.strs.map (fun t =>
      let gone := t.waiting.filter (fun w => w.handle == s.grp.handle && w.kind != 2)
      { t with
        waiting := t.waiting.filter (fun w => w.handle != s.grp.handle || w.kind == 2),
        notes := if t.mode != 2 then t.notes
          else t.notes ++ (gone.filter (fun w => w.kind == 0)).map (fun w =>
            { kind := 1, member := 256 * s.modid + s.grp.core, key := w.key, ctx := s.grp.handle.toNat / 2 ^ 56, fields := 1 }) }) }

/-- A calibration that the group in focus has begun completes its `mcal`, whose pops were made, where the group stops; the string stays held
until its time is over (R221, R224; DEDUCED, log entry 27). -/
def finishCal (s : State) : State :=
  match s.strs.findSome? (fun t => t.cal.bind (fun w => if w.handle == s.grp.handle && w.handle != 0 then some w else none)) with
  | none => s
  | some w =>
    let s1 : State := { s with strs := s.strs.map (fun t => { t with cal := t.cal.map (fun x => if x == w then { x with handle := 0 } else x) }) }
    (tokDone s1 2 w.push).advance 2

/-- A DRAINING stream completes (R64, R110). -/
def endDraining (s : State) (st : Nat) : State :=
  if (s.grp.stream st).run == .draining then endStream (if st == 1 then retireAll s else s) st else s

/-- Every stream of the group in focus stopped at a boundary, its run state kept; commands are cut, waits that re-issue
whole are forgotten (R64); a promotion that was asked for goes on (R300). -/
def stopStreams (s : State) : State :=
  let s1 := [0, 1, 2, 3].foldl endDraining s
  let s2 := withdrawJoin (finishCal (cutCopy ((cutTile (cutVector s1)).updGrp Group.undoSync)))
  let stop (t : StreamSt) : StreamSt :=
    if t.run == .ended then { t with kept := .ended } else { t with kept := .ready, run := .stopped }
  let proms := (s2.proms.filter (fun p => p.src != .own s2.grp.handle || p.ans.isNone)).map (fun p =>
    if p.src == .own s2.grp.handle then { p with src := .gone } else p)
  ({ dropWalks s2 (dieOf s2.grp.core) (fun c => c == s2.grp.ctxid) with proms := proms }).updGrp (fun g => { g with
    ss := stop g.ss, vs := stop g.vs, ms := stop g.ms, cs := stop g.cs, vsrc := none, cput := none, mreq := none, rwait := [], swait := none, bwait := none,
    cbwait := none })

/-- The physical address of a consumed uncorrectable block: DETAIL bit 2 says that ADDR is physical (R332); 0 where unknown. -/
def consumedPa (s : State) (f : FaultInfo) : Nat :=
  if f.detail.toNat / 4 % 2 == 1 then f.addr.toNat
  else
    match (findLeaf s s.grp.core s.grp.ctxid f.addr.toNat).1 with
    | .leaf lvl e _ => leafPa lvl e f.addr.toNat
    | _ => 0

/-- R335: uncorrectable errors that the local or accumulator storage of a core reports: the fourth within 2 × 10^9 core cycles is a core
fault. -/
def coreErrors (s : State) (c n : Nat) : State :=
  let ts := List.replicate n s.cycle ++ ((s.core c).errTimes.filter (fun t => s.cycle < t + 2000000000))
  if ts.length ≥ 4 then (s.updCore c (fun x => { x with errTimes := [] })).postE (.coreFault (BitVec.ofNat 7 c) [])
  else s.updCore c (fun x => { x with errTimes := ts })

/-- Table 18-4: what the device records when a group consumes uncorrectable data, that of another module at the link that brought it (log entry
141); the core counts the errors of its local and accumulator storage (R335). -/
def noteConsumed (s : State) (f : FaultInfo) : State :=
  if f.code != cMEMUNC then s
  else
    let c := s.grp.core
    match f.detail.toNat % 4 with
    | 1 =>
      let s1 := eventRecord s 1 c 5 1 0 s.grp.handle
      if f.bar then s1 else coreErrors s1 c 1
    | 2 => eventRecord s 0 c 5 1 0 s.grp.handle
    | 3 => let pa := consumedPa s f
           eventRecord s 5 (if farRange pa then farLink pa else 0) 5 1 pa s.grp.handle
    | _ => let pa := consumedPa s f
           if farRange pa then eventRecord s 4 (homeOf pa none) 5 1 pa s.grp.handle
           else if inRemote pa then eventRecord s 7 ((routeTo s (remoteMod pa)).getD 0) 5 1 pa s.grp.handle
           else eventRecord s 3 (pa / 0x1000000000 % 2 ^ 16) 5 1 pa s.grp.handle

-- What holds a group -------------------------------------------------------------------------------------------------

/-- Whether a pending interrupt would be taken (R63). -/
def Group.takeable (g : Group) : Bool := g.ipend && g.ien && !g.hmode && g.st == .running && !g.pairHold && !g.saving

/-- Whether an instruction of stream `n` has begun what a stop may not undo: an access of another module is on its way (R126, R146), or the
scalar stream's wait has found its value (R125, R312). An `ld.acqp` that waits for its promotion (R300) and a `sig.int` that waits for its
answer (R125) stop at once, as does an element of a copy command that has written nothing at another module (R246). -/
def Group.inFlight (g : Group) (n : Nat) : Bool :=
  (g.rwait.any (fun r => r.stream == n && r.pop != 8 && r.pop != 14 && !(n == 3 && r.pop == 0)) && !(n == 1 && g.vld.isSome)) ||
  (n == 0 && (g.swait.any (fun w => w.got.isSome) || g.bwait.any (fun w => w.got.isSome)))

/-- Whether an undecided `vld` of the group in focus still waits for its data (R64 step 2). -/
def vldWaits (s : State) : Bool :=
  match decideVld s with
  | .wait _ => true
  | _ => false

/-- Whether the frame in which the group in focus takes part has begun its last element in a member whose matrix stream has gone on behind it:
the next element boundary is that element's end (R236, R241). -/
def framePassed (s : State) : Bool :=
  let past (g : Group) : Bool := g.mcmd.any (fun c => c.inFrame && c.passed.isSome)
  s.grp.mcmd.any (fun c => c.inFrame) && (past s.grp || s.grp.memb.any (fun m => m.role != 2 && s.groups.any (fun g => g.onStr m.str && past g)))

/-- Whether every instruction that the group in focus has begun can be left where it stands. -/
def quiet (s : State) : Bool := [0, 1, 2, 3].all (fun n => !s.grp.inFlight n) && !vldWaits s && !framePassed s

/-- The other half of a group's pair (R96). -/
def partnerOf (s : State) (g : Group) : Option Group := if g.partner == 0 then none else s.groupOf g.partner

/-- Whether the core of a group, or that of the other half of its pair, is being taken over by its die's spare (R335, R96). -/
def coreMoving (s : State) (g : Group) : Bool :=
  (s.die (dieOf g.core)).moving == some g.core || (partnerOf s g).any (fun p => (s.die (dieOf p.core)).moving == some p.core)

/-- Whether a trap of a group is due: one that waits for the group to stop, an asynchronous fault, or an interrupt. A half that its
partner's trap holds has none until it runs again (R96). -/
def Group.trapDue (g : Group) : Bool := g.st == .running && !g.pairHold && (!g.pendTraps.isEmpty || !g.asyncs.isEmpty || g.takeable)

/-- Whether the core of a group, or that of the other half of its pair, has failed and its groups have to stop (R335). -/
def coreFailing (s : State) (g : Group) : Bool :=
  (s.core g.core).failing.isSome || (partnerOf s g).any (fun p => (s.core p.core).failing.isSome)

/-- Whether a group's streams issue nothing new: they stop for a trap of either half of its pair, for a save, with their core or for good. -/
def held (s : State) (g : Group) : Bool :=
  g.trapDue || g.saving || g.pairHold || g.st == .stopping || coreFailing s g || (partnerOf s g).any Group.trapDue

/-- Whether what stream `n` of the group in focus has begun may go on: always while the group runs, and for what cannot be left while
it stops. -/
def goesOn (s : State) (n : Nat) : Bool :=
  (s.grp.st == .running || s.grp.st == .stopping || (s.grp.st == .handler && n == 0)) && !coreMoving s s.grp &&
  ((s.grp.stream n).run == .ready || (s.grp.stream n).run == .blocked) && (!held s s.grp || s.grp.inFlight n)

/-- The undecided `vld` of the group in focus is decided as the group stops (R64, R110): its data is written and it completes, or its
reservations are released and it is answered with its fault. -/
def settleVld (s : State) : Option (VldOp × FaultInfo) × State :=
  match s.grp.vld, decideVld s with
  | some o, .ok (some f) s1 => (some (o, f), noteConsumed (tokRelease s1 1 o.push) f)
  | _, .ok _ s1 => (none, s1)
  | _, .fault _ s1 => (none, s1)
  | _, .wait s1 => (none, s1)

/-- R110: the streams of the group in focus stop for good: an issued `vld` completes or its fault is suppressed, vector results are
written, commands are cut with their progress discarded. -/
def finishStop (s : State) : State :=
  let r := settleVld s
  let s1 := if r.1.isSome then r.2.updGrp (fun g => { g with faultsupp := true }) else r.2
  (stopStreams (retireAll s1)).updGrp (fun g => { g with prgv := 0, prgm := 0, prgc := 0, hmode := false, pairHold := false })

/-- Whether every stream of a group has stopped for good (R110). -/
def Group.allStopped (g : Group) : Bool := [0, 1, 2, 3].all (fun n => (g.stream n).run == .stopped || (g.stream n).run == .ended)

/-- R110: the group in focus goes to STOPPING with a status, INFO and, for an abort, its fault record; the streams stop at once, or
where instructions in flight still have to complete, when they have. -/
def stopGroup (s : State) (status : EndStatus) (info : W32) (fr : List Byte) : State :=
  let s1 := (s.updGrp (fun g => { g with
    st := .stopping, status := status, info := info, faultRec := fr, saving := false, preq := false, pendTraps := [], vreplay := none,
    vpend := none, vtrap := none })).postE (.groupRetire s.grp.handle)
  if quiet s1 then finishStop s1 else s1

/-- The other half of a pair brought into focus for `f`, and the focus returned (R96). -/
def onPartner (s : State) (f : State → State) : State :=
  let h := s.grp.handle
  if s.grp.partner == 0 || (s.groupOf s.grp.partner).isNone then s else (f (s.focus s.grp.partner)).focus h

/-- R96, R110: `exit` or an abort: both halves of a pair go to STOPPING; only the half where the fault arose carries the
record. -/
def stopBoth (s : State) (status : EndStatus) (info : W32) (fr : List Byte) : State :=
  let s1 := stopGroup s status info fr
  onPartner s1 (fun s => if s.grp.st == .running || s.grp.st == .handler then stopGroup s status info [] else s)

/-- The bytes of a fault record of the group in focus. -/
def recBytes (s : State) (f : FaultInfo) : List Byte := bytesOf 128 (recNat f s.grp.hmode s.grp.handle)

-- Taking a trap ------------------------------------------------------------------------------------------------------

/-- Copies of the lines of a group's trap frame in the core's L1 and the die's L2 written back and dropped, before the device writes the frame
through physical addresses, so that the group's own loads see it (R66; DEDUCED, log entry 22); none where a promotion has to wait (R297). -/
def frameFlush (s : State) : Option State :=
  allOf ((List.range 64).map (fun i => s.grp.framePa / 128 + i)) s (fun s l =>
    (l1Flush s s.grp.core l).bind (fun s => l2Evict s (dieOf s.grp.core) l))

/-- R66: a latch descriptor, 32 bytes. -/
def latchDesc (t : Nat) (f : Flight) : Nat :=
  (2 ^ 63 + f.part * 2 ^ 60 + (f.due - t) * 2 ^ 8 + (if f.isMask then 1 else 0) * 2 ^ 6 + f.num) + f.lanes.toNat * 2 ^ 128

/-- R66: a latch value, 512 bytes: the result bits in the positions that PART names, 0 elsewhere. DESIGN CHOICE: the lanes that LANES does not
name hold what the instruction computed there (log entry 162). -/
def latchValue (f : Flight) : Nat :=
  if f.isMask then f.kval.toNat
  else (List.range 128).foldl (fun acc i => acc + (partMerge f.part 0 (f.vals.getD i 0)).toNat * 2 ^ (32 * i)) 0

/-- Concatenation of fixed-size numbers, the first lowest. -/
def packNat (bits : Nat) : List Nat → Nat
  | [] => 0
  | x :: xs => x + 2 ^ bits * packNat bits xs

/-- Whether the cause of a trap would not come again if its instruction were left unissued: a software trap, an accepted element's SAT_TRAP,
an asynchronous fault. -/
def PendTrap.stays (p : PendTrap) : Bool := p.code == 0xFF || p.code == cSAT || p.fault.any (fun f => f.async)

/-- A trap put among others in the order S, V, M, C, behind those of its stream (R64). -/
def insTrap (p : PendTrap) : List PendTrap → List PendTrap
  | [] => [p]
  | x :: xs => if p.stream < x.stream then p :: x :: xs else x :: insTrap p xs

/-- R64: a trap put among those that wait. The first in the order of the streams is the next to be taken; of the others those are kept whose
cause would not come again, and the rest are left unissued and fault again. -/
def pendTrap (g : Group) (p : PendTrap) : Group :=
  let l := insTrap p g.pendTraps
  { g with pendTraps := l.take 1 ++ (l.drop 1).filter PendTrap.stays }

/-- R64: the traps of a group that wait, left unissued: a software trap stands at its instruction again and a failed `vld` is issued anew by
its replay (R185), where it fails as before. An accepted element's SAT_TRAP would not come again, and stays. -/
def Group.unissue (g : Group) : Group :=
  { g with
    vreplay := (g.pendTraps.findSome? (fun p => p.vld)).or g.vreplay,
    ss := if g.pendTraps.any (fun p => p.code == 0xFF) then { g.ss with pc := g.ss.pc - 4 } else g.ss,
    pendTraps := g.pendTraps.filter (fun p => p.code == cSAT) }

/-- The group in focus stops for something other than a trap of its own: its partner's trap (R96), a takeover of its core (R335). An undecided
`vld` writes its data, or is left unissued like the traps that wait (R64, R185; DESIGN CHOICE, log entry 159). -/
def leaveTraps (s : State) : State :=
  (match s.grp.vld, decideVld s with
    | some o, .ok (some _) s1 => (tokRelease s1 1 o.push).updGrp (fun g => { g with vreplay := some o })
    | _, .ok _ s1 => s1
    | _, .fault _ s1 => s1
    | _, .wait s1 => s1).updGrp Group.unissue

/-- The half of a pair whose partner traps stops at its boundaries until that half's `rett` (R96). -/
def holdHalf (s : State) : State :=
  if s.grp.st != .running then s else (stopStreams (leaveTraps s)).updGrp (fun g => { g with pairHold := true })

/-- A failed `vld` among the traps of a group that wait, with its fault. -/
def Group.failedVld (g : Group) : Option (VldOp × FaultInfo) :=
  g.pendTraps.findSome? (fun p => p.vld.bind (fun o => p.fault.map (fun f => (o, f))))

/-- R64 to R66: a trap of the group in focus, every begun instruction of which can be left, for cause `code`, charged to stream `st` with
INFO; `fr` is the fault record or zero, `vtrap` the failed `vld` it is about. An undecided `vld` is decided, and its failure, or one that waits
behind this trap, is the pended load fault; the streams stop; results become latches; the frame is written, its RSV bytes zero (R2); the
handler starts. DESIGN CHOICE (log entry 153): the record at 0x0080 is written only where it is valid, and of the latch values those of the
latches in use. -/
def enterTrap (s : State) (code st : Nat) (info : W32) (fr : Nat) (vtrap : Option VldOp) : State :=
  let r := settleVld s
  let load := r.1.or r.2.grp.failedVld
  let s0 := r.2.updGrp (fun g => { g with
    vpend := load.map (fun p => p.1), vtrap := vtrap, pendTraps := g.pendTraps.filter (fun p => p.vld.isNone) })
  -- a DRAINING vector stream completes before latches are captured
  let s1 := retireDue (settleSeqs (endDraining s0 1))
  let lat := s1.grp.flight
  let t := s1.grp.vcyc
  let s2 := stopStreams (s1.updGrp (fun g => { g with flight := [], lpush := lat.map (fun f => f.push), nlatch := lat.length }))
  let pa := s2.grp.framePa
  let s3 := physWrite ((frameFlush s2).getD s2) pa 0x80 fr
  let s4 := match load with
    | some p => physWrite s3 (pa + 0x80) 0x80 (recNat p.2 false s3.grp.handle)
    | none => s3
  let s5 := physWrite s4 (pa + 0x100) 0x100 (packNat 256 (lat.map (latchDesc t)))
  let s6 := if lat.isEmpty then s5 else physWrite s5 (pa + 0x200) (512 * lat.length) (packNat 4096 (lat.map latchValue))
  onPartner ((physWrite s6 (pa + 0x1200) 0xE00 0).updGrp (fun g => { g with
    st := .handler, hmode := true,
    tcause := BitVec.ofNat 64 (code * 2 ^ 40 + st * 2 ^ 38 + info.toNat),
    epcs := g.ss.pc, epcv := g.vs.pc, epcm := g.ms.pc, epcc := g.cs.pc,
    pendld := load.isSome,
    ss := { g.ss with pc := g.tvec, run := .ready } })) holdHalf

/-- Whether a trap of the group in focus can be taken at once: it runs, its frame can be written, and everything begun in it and in its
partner can be left. -/
def canTrap (s : State) : Bool :=
  s.grp.st == .running && (frameFlush s).isSome && !s.grp.pairHold && !s.grp.saving && !coreMoving s s.grp && quiet s &&
  (match partnerOf s s.grp with
    | some p => quiet (s.focus p.handle)
    | none => true)

/-- R62: whether a cause is handled: POLICY field `c` is HANDLER and there is a handler. -/
def handles (s : State) (c : Nat) : Bool := fieldOf ((s.ctx s.grp.ctxid).policy) (2 * c + 1) (2 * c) == 1 && s.grp.tvec != 0

/-- A trap that the group in focus takes now: the handler is entered, or the group is aborted where its fault is not handled (R62, R64). -/
def trapNow (s : State) (p : PendTrap) : State :=
  match p.fault with
  | none => enterTrap s p.code p.stream p.info 0 p.vld
  | some f =>
    if handles s f.code then enterTrap s p.code p.stream p.info (recNat f false s.grp.handle) p.vld else stopBoth s .aborted 0 (recBytes s f)

/-- A trap of the group in focus: taken, or kept until those before it are taken and the instructions in flight have completed (R64, R126). -/
def takeTrap (s : State) (p : PendTrap) : State :=
  if s.grp.pendTraps.isEmpty && canTrap s then trapNow s p else s.updGrp (fun g => pendTrap g p)

/-- What a fault of the running group in focus, or of its handler, leads to (R62, R64): an abort in handler mode or where the policy says
so, else a trap. -/
def takeFault (s : State) (f : FaultInfo) (vld : Option VldOp) : State :=
  if f.code == cGANGAB then stopBoth s .gangAborted 0 (recBytes s f)
  else if s.grp.hmode || !handles s f.code then stopBoth s .aborted 0 (recBytes s f)
  else takeTrap s { code := f.code, stream := f.stream, info := BitVec.ofNat 32 (if f.elvalid then f.element else 0), fault := some f, vld := vld }

/-- R62, R64, R95, R148, R185: a fault of the group in focus: suppressed in STOPPING and RETIRING, else an abort or a trap; `vld` is the
failed load it is about. -/
def deliverWith (s0 : State) (f : FaultInfo) (vld : Option VldOp) : State :=
  let s := if s0.grp.st == .none then s0 else noteConsumed s0 f
  match s.grp.st with
  | .none => s
  | .stopping => s.updGrp (fun g => { g with faultsupp := true })
  | .retiring => s.updGrp (fun g => { g with faultsupp := true })
  | _ => takeFault s f vld

/-- A fault that is not about a load. -/
def deliver (s : State) (f : FaultInfo) : State := deliverWith s f none

/-- A precise fault of stream `st` at its pc (R126, R330). -/
def raise (s : State) (st : Nat) (e : Exc) (el : Option Nat) : State := deliver (clearRemote s st) (faultOf s st e el)

/-- ILLEGAL at the stream's word (R46, R47): the record's address is the word as issued. -/
def illegal (s : State) (st : Nat) : State := raise s st (exc cILLEGAL s.iw.toNat) none

-- Returning from a trap ----------------------------------------------------------------------------------------------

/-- R66: the latch that a frame's descriptor and value describe, where it is not discarded. -/
def latchOf (t : Nat) (push : BitVec 3) (desc val : Nat) : Option Flight :=
  let remain := desc / 2 ^ 8 % 2 ^ 8
  let cls := desc / 2 ^ 6 % 4
  let num := desc % 32
  let part := desc / 2 ^ 60 % 8
  if desc / 2 ^ 63 % 2 == 0 || cls > 1 || remain == 0 || remain > 8 || part == 3 then none
  else if cls == 1 && (num == 0 || num > 7 || part != 0) then none
  else some { isMask := cls == 1, num := num, vals := if cls == 1 then [] else tab 128 (fun i => BitVec.ofNat 32 (val / 2 ^ (32 * i))),
              kval := BitVec.ofNat 128 val, lanes := BitVec.ofNat 128 (desc / 2 ^ 128), part := part, due := t + remain,
              push := push }

/-- The frame read through the scalar stream's own loads, 128 bytes a line (R68). -/
def frameRead : Nat → State → Nat → Acc Nat
  | 0, s, _ => .ok 0 s
  | k + 1, s, va => (vaRead s 0 va 128).bind (fun v s => (frameRead k s (va + 128)).bind (fun w s => .ok (v + w * 2 ^ 1024) s))

/-- R68, R185: what stands at the end of a return from a trap, `fr` being the frame: a pended load fault, now delivered under the policy of
its cause (R62) with the record that stands at 0x0080, or the replay of the failed `vld` that the trap was about, which a WORD of 0 at
0x0000 suppresses. PENDLD written 0 by the handler makes the pended load complete without writing (log entry 23). -/
def leaveLoad (s : State) (fr : Nat) : State :=
  let g := s.grp
  let skip (g : Group) (o : Option VldOp) : Group :=
    match o with
    | some o => g.pushToks (pushSet 1 o.push) 1
    | none => g
  let word := fr / 2 ^ 256 % 2 ^ 32
  let s1 := s.updGrp (fun g =>
    let g1 := if word == 0 then skip g g.vtrap else if g.vtrap.isSome then { g with vreplay := g.vtrap } else g
    { (if g.pendld then g1 else skip g1 g.vpend) with vtrap := none, vpend := none, pendld := false })
  if g.pendld then
    let rec1 := fr / 2 ^ 1024 % 2 ^ 1024
    let code := rec1 / 2 ^ 56 % 2 ^ 8
    if handles s1 code then enterTrap s1 code 1 0 rec1 g.vpend else stopBoth s1 .aborted 0 (bytesOf 128 rec1)
  else s1

/-- R68: the streams of the group in focus return to their PCs, latches are injected, discarded ones complete, HMODE is
cleared, and a pended load fault is delivered or a failed `vld` armed for its replay (R185). `fr` is the frame. A group whose streams have
all ended retires (R95). -/
def leaveTrap (s : State) (fr : Nat) : State :=
  let g := s.grp
  let descs := (List.range 8).map (fun i => fr / 2 ^ (2048 + 256 * i) % 2 ^ 256)
  let lat := (List.range 8).map (fun i => latchOf g.vcyc (g.lpush.getD i 0) (descs.getD i 0) (fr / 2 ^ (4096 + 4096 * i) % 2 ^ 4096))
  let s1 := (List.range g.nlatch).foldl (fun s i => if (lat.getD i none).isNone then tokDone s 1 (g.lpush.getD i 0) else s) s
  let back (t : StreamSt) (pc : W64) : StreamSt :=
    { t with pc := pc &&& ~~~3, run := if t.kept == .ended then .ended else .ready }
  let s2 := s1.updGrp (fun g => { g with
    ss := back g.ss g.epcs, vs := back g.vs g.epcv, ms := back g.ms g.epcm, cs := back g.cs g.epcc,
    flight := lat.filterMap id, lpush := [], nlatch := 0, hmode := false, st := .running })
  let s3 := onPartner s2 (fun s =>
    if s.grp.pairHold then
      s.updGrp (fun g => { g with
        pairHold := false, ss := back g.ss g.ss.pc, vs := back g.vs g.vs.pc, ms := back g.ms g.ms.pc, cs := back g.cs g.cs.pc })
    else s)
  retireIfEnded (leaveLoad s3 fr)

end Sys2Proof.Machine
end

