-- ==== Sys2Proof/Machine/Operands.lean ====
section
/-! DEFINITION. Operand forms shared by the families: effective addresses, immediate fields, local addresses and their
checks (R143, R194), and the ways in which an instruction of each stream issues, waits, faults or completes. -/

namespace Sys2Proof.Machine

-- Addresses ----------------------------------------------------------------------------------------------------------

/-- R137, R143: gA + sext(DISP12), modulo 2^64. -/
def ea12 (s : State) (a : BitVec 5) (i : BitVec 12) : Nat := (s.x a + sext64 i).toNat

/-- The bytes of a scratch or FIFO bank. -/
abbrev bankBytes : Nat := 131072

/-- R189, R192: how the physical bank of a logical local bank stands for an access in a mode: ready, converting to it,
or in another mode (0 CACHE, 1 SCRATCH, 2 FIFO). -/
inductive BankStand where
  | ready | waits | other (mode : Nat)
deriving DecidableEq, Repr

/-- The physical bank record of logical bank `b` of a group. -/
def bankOf (s : State) (b : Nat) : Bank :=
  ((s.core s.grp.core).banks.getD (s.grp.lmap.getD b 32) { mode := .cache, target := .cache, owner := 0, misses := 0 })

/-- The state of logical bank `b` for an access in mode `m`. -/
def bankStand (s : State) (b : Nat) (m : BankMode) : BankStand :=
  let k := bankOf s b
  if k.owner != s.grp.handle then .other 0
  else if k.mode == m then .ready
  else
    match k.mode with
    | .drainF => if k.target == m then .waits else .other (if k.target == .fifo then 2 else 0)
    | .drainW => if k.target == m then .waits else .other (if k.target == .fifo then 2 else 0)
    | .fifo => .other 2
    | .scratch => .other 1
    | .cache => .other 0

/-- The size in bytes of a group's scratch. -/
def Group.scratchSize (g : Group) : Nat := g.scrb * bankBytes

/-- R143, R195: the checks of an access to `n` bytes of scratch after its alignment: bounds, then the mode of each bank it
touches; it waits for a bank that converts. -/
def scrCheck (s : State) (off n : Nat) : Acc Unit :=
  if n == 0 then .ok () s
  else if off + n > s.grp.scratchSize then .fault (exc cACCESS (if off ≥ s.grp.scratchSize then off else s.grp.scratchSize)) s
  else
    let banks := (List.range 33).filter (fun b => off / bankBytes ≤ b && b ≤ (off + n - 1) / bankBytes)
    match banks.find? (fun b => match bankStand s b .scratch with
      | .other _ => true
      | _ => false) with
    | some b => .fault (exc cBANKMODE (max off (b * bankBytes)) (match bankStand s b .scratch with
      | .other m => m
      | _ => 0)) s
    | none => if banks.any (fun b => bankStand s b .scratch == .waits) then .wait s else .ok () s

/-- R332: a read of scratch that meets an uncorrectable granule. -/
def scrBad (s : State) (off n : Nat) : Option Nat :=
  s.grp.badScr.find? (fun k => off < 16 * k + 16 && 16 * k < off + n)

/-- The value of `n` bytes of scratch. -/
def Group.scr (g : Group) (off n : Nat) : Nat := Memory.read g.scratch off n

/-- A read of `n` bytes of scratch whose checks have passed. -/
def scrGet (s : State) (off n : Nat) : Acc Nat :=
  match scrBad s off n with
  | some k => .fault (exc cMEMUNC (max off (16 * k)) 1) s
  | none => .ok (s.grp.scr off n) s

/-- `n` bytes of scratch written; a granule covered whole loses its uncorrectable error. -/
def Group.setScr (g : Group) (off n v : Nat) : Group :=
  { g with
    scratch := Memory.write g.scratch off n v,
    badScr := g.badScr.filter (fun k => !(off ≤ 16 * k && 16 * k + 16 ≤ off + n)) }

/-- `n` bytes of scratch of the group in focus written. -/
def State.setScr (s : State) (off n v : Nat) : State := s.updGrp (fun g => g.setScr off n v)

/-- A checked read of `n` aligned bytes of scratch (R143). -/
def scrRead (s : State) (off n al : Nat) : Acc Nat :=
  (Acc.guard (off % al != 0) (exc cALIGN off) s).bind (fun _ s => (scrCheck s off n).bind (fun _ s => scrGet s off n))

/-- A checked write of `n` aligned bytes of scratch (R143). -/
def scrWrite (s : State) (off n al v : Nat) : Acc Unit :=
  (Acc.guard (off % al != 0) (exc cALIGN off) s).bind (fun _ s => (scrCheck s off n).bind (fun _ s => .ok () (s.setScr off n v)))

-- Scalar instructions ------------------------------------------------------------------------------------------------

/-- Whether a meaning of an encoded instruction has a group to act on. -/
def noGroup (s : State) : Bool := s.grp.st == .none

/-- A scalar instruction that only writes a register (R127): the destination, and the next word. -/
def sAlu (s : State) (d : BitVec 5) (v : W64) : Out :=
  if noGroup s then .fault .noGroup else .next ((s.setX d v).advance 0)

/-- A scalar instruction with checks, waits and effects; the body sets the pc (R126, R97). -/
def sDo (s : State) (body : State → Acc Unit) : Out :=
  if noGroup s then .fault .noGroup
  else
    match body s with
    | .ok _ s1 => .next (clearRemote s1 0)
    | .fault e s1 => .next (raise s1 0 e none)
    | .wait s1 => .next (s1.block 0)

/-- A scalar instruction of which an operand value is reserved, or which its mode does not admit, raises ILLEGAL. -/
def sDoIf (s : State) (legal : Bool) (body : State → Acc Unit) : Out :=
  if noGroup s then .fault .noGroup
  else if legal then sDo s body
  else .next (illegal s 0)

/-- The destination written and the next word taken. -/
def done (s : State) (d : BitVec 5) (v : W64) : Acc Unit := .ok () ((s.setX d v).advance 0)

/-- R148: a reduction-ordering instruction whose release has scope `sc` (4 for those that wait for every reduction)
waits for pending reductions, then raises the first pending reduction fault. -/
def redGate (s : State) (sc : Nat) (body : State → Out) : Out :=
  if noGroup s then .fault .noGroup
  else if redPending s s.grp.handle sc then .next (s.block 0)
  else
    match s.grp.redFaults.find? (fun f => f.2 ≤ sc) with
    | some f =>
      .next (deliver (s.updGrp (fun g => { g with redFaults := g.redFaults.erase f })) { f.1 with pc := s.pc 0 })
    | none => body s

-- Vector, matrix and copy instructions -------------------------------------------------------------------------------

/-- R103: the pops and pushes of an instruction that completes at its issue. -/
def tokBoth (s : State) (st : Nat) (p q : BitVec 3) : State :=
  s.updGrp (fun g => (g.updToks (popSet st p) (fun t => t - 1)).pushToks (pushSet st q) 1)

/-- A single-step instruction of the matrix or copy stream: its tokens, its body, the next word (R103, R236). -/
def tDo (s : State) (st : Nat) (p q : BitVec 3) (body : State → Acc Unit) : Out :=
  if noGroup s then .fault .noGroup
  else
    match (tokCheck s st p q).bind (fun _ s => body s) with
    | .ok _ s1 => .next ((tokBoth (clearRemote s1 st) st p q).advance st)
    | .fault e s1 => .next (raise s1 st e none)
    | .wait s1 => .next (s1.block st)

/-- The same for an instruction with reserved operand values. -/
def tDoIf (s : State) (st : Nat) (legal : Bool) (p q : BitVec 3) (body : State → Acc Unit) : Out :=
  if noGroup s then .fault .noGroup
  else if legal then tDo s st p q body
  else .next (illegal s st)

/-- A vector result that an instruction makes. -/
structure VRes where
  isMask : Bool
  num : Nat
  lanes : BitVec 128
  part : Nat
  vals : List W32
  kval : BitVec 128
deriving DecidableEq, Repr

/-- A result for the lanes of a vector register. -/
def vres (d : BitVec 5) (lanes : BitVec 128) (vals : List W32) : VRes :=
  { isMask := false, num := d.toNat, lanes := lanes, part := 0, vals := vals, kval := 0 }

/-- A result for a mask register. -/
def kres (d : BitVec 3) (v : BitVec 128) : VRes :=
  { isMask := true, num := d.toNat, lanes := BitVec.allOnes 128, part := 0, vals := [], kval := v }

/-- R156: a stream cycle passes. -/
def vTick (s : State) : State := s.updGrp (fun g => { g with vcyc := g.vcyc + 1 })

/-- R156, R159, R185: what a vector instruction waits for before it issues, after the results due have been written:
tokens, an undecided `vld` that it must not overtake, a free result slot. `names` are the vector registers it names. -/
def vGate (s : State) (p q : BitVec 3) (names : List Nat) (mem mk : Bool) : Acc Unit :=
  (tokCheck s 1 p q).bind (fun _ s =>
    let held := match s.grp.vld with
      | some o => mem || names.contains o.num
      | none => false
    if held || (mk && s.grp.flight.length ≥ 8) then .wait s else .ok () s)

/-- A vector instruction that waits: a stream cycle passes (R156). -/
def vWait (s : State) : State := vTick (s.block 1)

/-- A vector instruction that makes results with latency `lam` (R158): operands are read at issue, the results and the
pushes come at stream cycle c + lam. -/
def vExec (s : State) (p q : BitVec 3) (names : List Nat) (lam : Nat) (body : Group → VRes) : Out :=
  if noGroup s then .fault .noGroup
  else
    match vGate (retireDue s) p q names false true with
    | .ok _ s1 =>
      let r := body s1.grp
      let s2 := tokIssue s1 1 p q
      .next (vTick ((s2.updGrp (fun g => { g with
        flight := g.flight ++ [{ isMask := r.isMask, num := r.num, vals := r.vals, kval := r.kval, lanes := r.lanes,
                                 part := r.part, due := g.vcyc + lam, push := q }] })).advance 1))
    | .fault e s1 => .next (raise s1 1 e none)
    | .wait s1 => .next (vWait s1)

/-- The same for an instruction with reserved operand values (R46). -/
def vExecIf (s : State) (legal : Bool) (p q : BitVec 3) (names : List Nat) (lam : Nat) (body : Group → VRes) : Out :=
  if noGroup s then .fault .noGroup
  else if legal then vExec s p q names lam body
  else .next (illegal s 1)

/-- A vector instruction that completes at its issue: its body acts and sets the pc (R186, R160). -/
def vDo (s : State) (p q : BitVec 3) (names : List Nat) (mem : Bool) (body : State → Acc Unit) : Out :=
  if noGroup s then .fault .noGroup
  else
    match (vGate (retireDue s) p q names mem false).bind (fun _ s => body s) with
    | .ok _ s1 => .next (vTick (tokBoth (clearRemote s1 1) 1 p q))
    | .fault e s1 => .next (raise s1 1 e none)
    | .wait s1 => .next (vWait s1)

/-- The same for an instruction with reserved operand values (R46). -/
def vDoIf (s : State) (legal : Bool) (p q : BitVec 3) (names : List Nat) (mem : Bool) (body : State → Acc Unit) : Out :=
  if noGroup s then .fault .noGroup
  else if legal then vDo s p q names mem body
  else .next (illegal s 1)

/-- A vector instruction that completes at its issue unless its accesses have to wait: its sources are read at issue (R158, R186). `cap` reads
them; `body` acts on them and sets the pc. -/
def vHeld (s : State) (p q : BitVec 3) (names : List Nat) (cap : Group → VSrc) (body : VSrc → State → Acc Unit) : Out :=
  if noGroup s then .fault .noGroup
  else
    let s0 := retireDue s
    let put (s : State) (x : Option VSrc) : State := s.updGrp (fun g => { g with vsrc := x })
    let src : Acc VSrc := match s0.grp.vsrc with
      | some x => .ok x s0
      | none => (vGate s0 p q names true false).bind (fun _ s => .ok (cap s.grp) s)
    match src with
    | .fault e s1 => .next (raise s1 1 e none)
    | .wait s1 => .next (vWait s1)
    | .ok x s1 =>
      match body x s1 with
      | .ok _ s2 => .next (vTick (tokBoth (clearRemote (put s2 none) 1) 1 p q))
      | .fault e s2 => .next (raise (put s2 none) 1 e none)
      | .wait s2 => .next (vWait (put s2 (some x)))

/-- The table of 128 lane results. -/
def lanes (f : Nat → W32) : List W32 := tab 128 f

end Sys2Proof.Machine
end

