-- ==== Sys2Proof/Machine/Flags.lean ====
section
/-! DEFINITION. Status words: `tstat` (Table 4-7), the system registers as they read (Table 4-6), and the session, comb
and summary registers (R208, R218). This machine has no arithmetic flags (R127, R155). -/

namespace Sys2Proof.Machine

/-- A Bool as a number. -/
def b2n (b : Bool) : Nat := if b then 1 else 0

/-- `tstat` (Table 4-7). -/
def Group.tstat (g : Group) : W64 :=
  BitVec.ofNat 64 (b2n g.hmode + 2 * b2n g.ien + 4 * b2n g.ipend + 8 * b2n g.preq + 16 * b2n g.pendld + 32 * g.nlatch)

/-- A write of `tstat`: IEN, and in handler mode PENDLD, which a 0 discards; other fields are read-only (Table 4-7). -/
def Group.setTstat (g : Group) (v : W64) : Group :=
  { g with ien := bitAt v 1, pendld := g.pendld && (bitAt v 4 || !g.hmode) }

/-- R63, R333: an interrupt raised on a group: discarded where it has no handler or is stopping, else merged into the
pending value. -/
def Group.interrupt (g : Group) (v : W32) : Group :=
  if g.tvec == 0 || g.st == .stopping || g.st == .retiring || g.st == .none then g
  else { g with ipend := true, ipval := if g.ipend then g.ipval ||| v else v }

/-- `sess` (Table 11-1). -/
def Group.sess (g : Group) : W32 :=
  match g.memb with
  | none => 0
  | some m => BitVec.ofNat 32 (m.str + m.role * 2 ^ 3 + m.key * 2 ^ 5 + m.div * 2 ^ 11 + m.state * 2 ^ 13)

/-- `sess` with the state of a join that waits at an arbiter, 1 waiting (Table 11-1). -/
def sessReg (s : State) : W32 :=
  match s.grp.memb, s.strs.zipIdx.findSome? (fun x => (x.1.waiting.find? (fun w => w.kind == 0 && w.handle == s.grp.handle)).map (fun w => (x.2, w))) with
  | none, some (n, w) => BitVec.ofNat 32 (n + w.role * 2 ^ 3 + w.key * 2 ^ 5 + w.div * 2 ^ 11 + 2 ^ 13)
  | _, _ => s.grp.sess

/-- Comb state and failovers of a string, as `comb` shows them (Table 11-1). -/
def Str.combWord (t : Str) : W32 :=
  BitVec.ofNat 32 ((match t.comb with
    | .primary => 0
    | .standby => 1
    | .dark => 2) + min 255 t.failovers * 2 ^ 8)

/-- `comb` of the group in focus: 0 without a session. -/
def combReg (s : State) : W32 :=
  match s.grp.memb with
  | none => 0
  | some m => if m.role == 2 then (s.str (s.grp.core % 8)).combWord else (s.str m.str).combWord

/-- A summary register of the last tile command (R218). -/
def Group.lsum (g : Group) (i : Nat) : W32 := g.ocs.getD (60 + i) 0

/-- The accesses of Table 4-6: read-only, read and write, handler mode only, handler mode read-only. -/
inductive SysAcc where
  | r | rw | h | hr
deriving DecidableEq, Repr

/-- Table 4-6: the access of a system register, none where the number is not in the table. -/
def sysAcc (n : Nat) : Option SysAcc :=
  if n ≤ 4 || (8 ≤ n && n ≤ 13) || n == 16 || n == 0x13 || n == 0x14 then some .r
  else if n == 0x11 || n == 0x12 || n == 0x15 || (0x28 ≤ n && n ≤ 0x2B) then some .rw
  else if (0x18 ≤ n && n ≤ 0x1B) || (0x20 ≤ n && n ≤ 0x22) then some .h
  else if n == 0x24 then some .hr
  else none

/-- The value of a system register (Table 4-6). -/
def sysRead (s : State) (n : Nat) : W64 :=
  let g := s.grp
  match n with
  | 0x00 => BitVec.ofNat 64 g.ctxid
  | 0x01 => g.handle
  | 0x02 => BitVec.ofNat 64 g.core
  | 0x03 => BitVec.ofNat 64 g.slot
  | 0x04 => g.paramptr
  | 0x10 => BitVec.ofNat 64 s.cycle
  | 0x11 => g.tstat
  | 0x12 => g.tvec
  | 0x13 => g.tframe
  | 0x14 => g.tcause
  | 0x15 => g.sstat
  | 0x18 => g.epcs
  | 0x19 => g.epcv
  | 0x1A => g.epcm
  | 0x1B => g.epcc
  | 0x20 => g.prgv
  | 0x21 => g.prgm
  | 0x22 => g.prgc
  | 0x24 => g.fmtcur
  | _ =>
    if 8 ≤ n && n ≤ 13 then (g.sidx.getD (n - 8) 0).setWidth 64
    else if 0x28 ≤ n && n ≤ 0x2B then g.hsv.getD (n - 0x28) 0
    else 0

/-- A progress register as a write leaves it: bits 62:56 are RSV (R2, R60). -/
def prgWritten (v : W64) : W64 := v &&& 0x80FFFFFFFFFFFFFF

/-- A write of a system register (Tables 4-6 and 4-7). DESIGN CHOICE: `epcs` to `epcc` keep bits 1:0 as they are written, and `rett` ignores them
(log entry 165). -/
def sysWrite (g : Group) (n : Nat) (v : W64) : Group :=
  match n with
  | 0x11 => g.setTstat v
  | 0x12 => { g with tvec := BitVec.ofNat 64 (v.toNat % 2 ^ 57 / 4 * 4) }
  | 0x15 => { g with sstat := g.sstat &&& ~~~(v &&& 1) }
  | 0x18 => { g with epcs := v }
  | 0x19 => { g with epcv := v }
  | 0x1A => { g with epcm := v }
  | 0x1B => { g with epcc := v }
  | 0x20 => { g with prgv := prgWritten v }
  | 0x21 => { g with prgm := prgWritten v }
  | 0x22 => { g with prgc := prgWritten v }
  | _ => if 0x28 ≤ n && n ≤ 0x2B then { g with hsv := updAt g.hsv (n - 0x28) (fun _ => v) } else g

end Sys2Proof.Machine
end

