-- ==== Sys2Proof/Machine/ScalarMem.lean ====
section
/-! DEFINITION. Scalar loads and stores, global (R137 to R142) and local (R143); full-empty forms (R195); acquire loads,
release stores, fences and the promoting acquire (R294 to R300); atomics and reductions (R144 to R148). -/

namespace Sys2Proof.Machine

-- Loads and stores ---------------------------------------------------------------------------------------------------

/-- R138: a load of `n` bytes widened by `ext`. -/
def sLoad (s : State) (d a : BitVec 5) (i : BitVec 12) (n : Nat) (ext : Nat → W64) : Out :=
  sDo s (fun s =>
    let ea := ea12 s a i
    (alignedTo s ea n).bind (fun _ s => (vaRead s 0 ea n).bind (fun v s => done s d (ext v))))

/-- R139: a store of the low `n` bytes of gD. -/
def sStore (s : State) (d a : BitVec 5) (i : BitVec 12) (n : Nat) : Out :=
  sDo s (fun s =>
    let ea := ea12 s a i
    (alignedTo s ea n).bind (fun _ s => (vaWrite s ea n ((s.x d).toNat % 2 ^ (8 * n))).bind (fun _ s => .ok () (s.advance 0))))

/-- A number of `n` bits sign-extended. -/
def sextN (n v : Nat) : W64 := sext64 (BitVec.ofNat n v)
/-- A number zero-extended. -/
def zextN (v : Nat) : W64 := BitVec.ofNat 64 v

/-- `ld.i8` (R138). -/
def execLdI8 (d a : BitVec 5) (i : BitVec 12) (s : State) : Out := sLoad s d a i 1 (sextN 8)
/-- `ld.n8` (R138). -/
def execLdN8 (d a : BitVec 5) (i : BitVec 12) (s : State) : Out := sLoad s d a i 1 zextN
/-- `ld.i16` (R138). -/
def execLdI16 (d a : BitVec 5) (i : BitVec 12) (s : State) : Out := sLoad s d a i 2 (sextN 16)
/-- `ld.n16` (R138). -/
def execLdN16 (d a : BitVec 5) (i : BitVec 12) (s : State) : Out := sLoad s d a i 2 zextN
/-- `ld.i32` (R138). -/
def execLdI32 (d a : BitVec 5) (i : BitVec 12) (s : State) : Out := sLoad s d a i 4 (sextN 32)
/-- `ld.n32` (R138). -/
def execLdN32 (d a : BitVec 5) (i : BitVec 12) (s : State) : Out := sLoad s d a i 4 zextN
/-- `ld.i64` (R138). -/
def execLdI64 (d a : BitVec 5) (i : BitVec 12) (s : State) : Out := sLoad s d a i 8 zextN
/-- `st.i8` (R139). -/
def execStI8 (d a : BitVec 5) (i : BitVec 12) (s : State) : Out := sStore s d a i 1
/-- `st.i16` (R139). -/
def execStI16 (d a : BitVec 5) (i : BitVec 12) (s : State) : Out := sStore s d a i 2
/-- `st.i32` (R139). -/
def execStI32 (d a : BitVec 5) (i : BitVec 12) (s : State) : Out := sStore s d a i 4
/-- `st.i64` (R139). -/
def execStI64 (d a : BitVec 5) (i : BitVec 12) (s : State) : Out := sStore s d a i 8

/-- `ldl.i32` (R143). -/
def execLdlI32 (d a : BitVec 5) (i : BitVec 12) (s : State) : Out :=
  sDo s (fun s => (scrRead s (ea12 s a i) 4 4).bind (fun v s => done s d (sextN 32 v)))
/-- `ldl.i64` (R143). -/
def execLdlI64 (d a : BitVec 5) (i : BitVec 12) (s : State) : Out :=
  sDo s (fun s => (scrRead s (ea12 s a i) 8 8).bind (fun v s => done s d (zextN v)))
/-- `stl.i32` (R143). -/
def execStlI32 (d a : BitVec 5) (i : BitVec 12) (s : State) : Out :=
  sDo s (fun s => (scrWrite s (ea12 s a i) 4 4 ((s.x d).toNat % 2 ^ 32)).bind (fun _ s => .ok () (s.advance 0)))
/-- `stl.i64` (R143). -/
def execStlI64 (d a : BitVec 5) (i : BitVec 12) (s : State) : Out :=
  sDo s (fun s => (scrWrite s (ea12 s a i) 8 8 (s.x d).toNat).bind (fun _ s => .ok () (s.advance 0)))

-- Acquire loads, release stores and fences ---------------------------------------------------------------------------

/-- A release by the group in focus (Table 15-1). -/
def relG (s : State) (sc : Nat) : Acc Unit := release s s.grp.handle s.grp.core sc
/-- An acquire by the group in focus (Table 15-1). -/
def acqG (s : State) (sc : Nat) : Acc Unit := acquire s s.grp.handle s.grp.core sc

/-- R361: an instruction whose SCOPE is fabric waits while the gang of the group is TENTATIVE. -/
def fabGate (s : State) (sc : Nat) : Acc Unit := if sc ≥ 4 && tentative s s.grp.handle then .wait s else .ok () s

/-- `ld.acq` (R294): the read, then an acquire. -/
def execLdAcq (d a : BitVec 5) (n : BitVec 3) (i : BitVec 12) (s : State) : Out :=
  sDoIf s (n.toNat ≤ 4) (fun s =>
    let ea := ea12 s a i
    (alignedTo s ea 8).bind (fun _ s => (fabGate s n.toNat).bind (fun _ s => (vaRead s 0 ea 8).bind (fun v s =>
      (acqG s n.toNat).bind (fun _ s => done s d (zextN v))))))

/-- R140: the checks of a store made before its release: translation, reachability, and that no byte lies in an
uncorrectable block; the physical address. -/
def storeCheck (s : State) (va n : Nat) : Acc Tr :=
  (translate s s.grp.core s.grp.ctxid va .store).bind (fun t s =>
    if inRemote t.pa then
      if tentative s s.grp.handle then .wait s
      else if (routeTo s (remoteMod t.pa)).isNone then .fault (linkDown va (remoteMod t.pa)) s else .ok t s
    else if redLine s (t.pa / 128) then .wait s
    else (coreRead s s.grp.core t va n).bind (fun _ s => .ok t s))

/-- `st.rel` (R294, R296, R298): a release, the store, and at job, core or die scope an entry of the promotion log. -/
def execStRel (d a : BitVec 5) (n : BitVec 3) (i : BitVec 12) (s : State) : Out :=
  let sc := n.toNat
  if noGroup s then .fault .noGroup
  else if sc > 4 then .next (illegal s 0)
  else redGate s sc (fun s => sDo s (fun s =>
    let ea := ea12 s a i
    (alignedTo s ea 8).bind (fun _ s => (storeCheck s ea 8).bind (fun t s =>
      if sc ≤ 2 && logBlocked s.grp (t.pa / 128) then .wait s
      else (relG s sc).bind (fun _ s => (vaWrite s ea 8 (s.x d).toNat).bind (fun _ s =>
        .ok () ((if sc ≤ 2 then logLine s (t.pa / 128) else s).advance 0)))))))

/-- R294, R295: a fence with its release and its acquire. -/
def sFence (s : State) (n : BitVec 3) (rel acq : Bool) : Out :=
  if noGroup s then .fault .noGroup
  else if n.toNat > 4 then .next (illegal s 0)
  else redGate s 4 (fun s => sDo s (fun s =>
    (fabGate s n.toNat).bind (fun _ s => (if rel then relG s n.toNat else .ok () s).bind (fun _ s =>
      (if acq then acqG s n.toNat else .ok () s).bind (fun _ s => .ok () (s.advance 0))))))

/-- `fence` (R294): full. -/
def execFence (n : BitVec 3) (s : State) : Out := sFence s n true true
/-- `fence.rel` (R294). -/
def execFenceRel (n : BitVec 3) (s : State) : Out := sFence s n true false
/-- `fence.acq` (R294). -/
def execFenceAcq (n : BitVec 3) (s : State) : Out := sFence s n false true

/-- Whether a group's promotions wait for its save or for the spare (Table 15-2). -/
def promHeld (s : State) (g : Group) : Bool := g.saving || coreMoving s g

/-- Whether a target's log holds an entry for a flag line (R301). -/
def promHit (g : Group) (line : Nat) : Bool := g.st != .saved && g.log.contains line

/-- PROMS when its request ends (R302). -/
def answerProms (s : State) (res : Nat) : State := { s with host := { s.host with proms := BitVec.ofNat 64 (res * 2 ^ 60) } }

/-- A request answered (R301, R302, R346): 0 promoted, 1 not matched, 2 NOGROUP, and 3 where the promotion went on without the unreachable
module `m` (R348). A group of this module finds its answer in its request. -/
def answerProm (s : State) (p : Prom) (res m : Nat) : State :=
  let s1 : State := { s with proms := s.proms.erase p }
  match p.src with
  | .host => answerProms s1 (if res == 3 then 0 else res)
  | .remote k tag => sendReply s1 { packet0 k 8 0 with tag := tag, arg := BitVec.ofNat 8 res }
  | .own _ => { s1 with proms := s1.proms ++ [{ p with ans := some (res, m) }] }
  | .gone => s1
  | .eager => s1

/-- The oldest request at a target that has no answer. -/
def nextProm (s : State) (h : W64) : Option Prom := s.proms.find? (fun p => p.target == h && p.ans.isNone)

/-- The promotion in progress at a group goes on (R299): begun where it can be, and over once the requests it waits for are answered or
lost (R348); its snapshot's entries leave the log, and the request that it serves is answered. -/
def promoteStep (s : State) (h : W64) : State :=
  match (s.groupOf h).bind (fun g => g.snap) with
  | none => s
  | some p =>
    let s1 := if p.begun then s else (promoteBegin s h).getD s
    match (s1.groupOf h).bind (fun g => g.snap) with
    | none => s1
    | some q =>
      if !q.begun || q.tags.any (tagOpen s1) then s1
      else
        let lost := tagLost s1 q.tags
        let s2 := s1.updGroup h (fun g => { g with snap := none })
        match s2.proms.find? (fun p => p.target == h && p.run && p.ans.isNone) with
        | some r => answerProm s2 r (if lost.isSome then 3 else 0) (lost.getD 0)
        | none => s2

/-- A promotion starts: a request's with the snapshot of what stands now (R299), an eager one with the snapshot of its overflow (R298), none
where the log has been emptied since. -/
def promoteStart (s : State) (h : W64) (p : Prom) : State :=
  ({ s with proms := s.proms.map (fun x => if x == p then { x with hit := true, run := true } else x) }).updGroup h (fun g =>
    if p.src == PromSrc.eager then { g with snap := g.eager, eager := none }
    else { g with snap := some (snapNow s g), eager := none, plog := [] })

/-- Table 15-2: the requests at a target are served one at a time, in order of arrival, as far as they can be; a request that waited looks
up when its turn comes. One at a RETIRING target is answered after the promotion of what is left in the log. The first argument bounds the
number of steps. -/
def serveProms : Nat → State → W64 → State
  | 0, s, _ => s
  | k + 1, s, h =>
    match nextProm s h, s.groupOf h with
    | none, some g => if g.st == .saved || promHeld s g then s else promoteStep s h
    | none, none => s
    | some p, none => serveProms k (answerProm s p (if p.hit then 0 else 2) 0) h
    | some p, some g =>
      if promHeld s g then s
      else if g.st == .saved then serveProms k (answerProm s p (if p.hit then 0 else 1) 0) h
      else if g.snap.isSome then
        let s1 := promoteStep s h
        if (s1.groupOf h).any (fun g => g.snap.isSome) then s1 else serveProms k s1 h
      else if p.run then serveProms k (answerProm s p 0 0) h
      else if g.st == .retiring then
        if g.log.isEmpty then serveProms k (answerProm s p (if p.hit then 0 else 1) 0) h else s
      else if p.hit || g.log.contains p.line then serveProms k (promoteStart s h p) h
      else serveProms k (answerProm s p 1 0) h

/-- The requests at a target served as far as they can be. -/
def serve (s : State) (h : W64) : State := serveProms (3 * s.proms.length + 3) s h

/-- A request arrives at its target, which is known: looked up at once where no earlier one waits there, and served (R301). -/
def promEnter (s : State) (g : Group) (src : PromSrc) (line : Nat) (ctx : Option Nat) : State :=
  let hit := !promHeld s g && (nextProm s g.handle).isNone && promHit g line
  serve { s with proms := s.proms ++ [{ target := g.handle, src := src, line := line, ctx := ctx, hit := hit, run := false, ans := none }] } g.handle

/-- The answer to the request of the group in focus, with the request forgotten; it waits while there is none (R300, R348). -/
def promAnswer (s : State) (va : Nat) : Acc Nat :=
  match s.proms.find? (fun p => p.src == .own s.grp.handle) with
  | none => .wait s
  | some p =>
    let s1 : State := { s with proms := s.proms.erase p }
    match p.ans with
    | none => .wait s
    | some (3, m) => .fault (linkDown va m) s1
    | some (a, _) => .ok a s1

/-- R300, R301, Table 15-2: the promotion request of the group in focus at a target of this module, by an issuer of context `ctx`: the
answer is 0 after a promotion, 1 not matched, 2 NOGROUP. -/
def promoteFor (s : State) (target : W64) (ctx line va : Nat) : Acc Nat :=
  if s.proms.any (fun p => p.src == .own s.grp.handle) then promAnswer s va
  else
    match s.groupOf target with
    | none => .ok 2 s
    | some g => if ctx != g.ctxid then .ok 2 s else promAnswer (promEnter s g (.own s.grp.handle) line (some ctx)) va

/-- `ld.acqp` (R300). The answer of another module's distributor has status 3 where the promotion there lost a module (R348). -/
def execLdAcqp (d a : BitVec 5) (n : BitVec 3) (b : BitVec 5) (s : State) : Out :=
  let sc := n.toNat
  if noGroup s then .fault .noGroup
  else if sc != 3 && sc != 4 then .next (illegal s 0)
  else redGate s 4 (fun s => sDo s (fun s =>
    let ea := (s.x a).toNat
    (alignedTo s ea 8).bind (fun _ s => (translate s s.grp.core s.grp.ctxid ea .load).bind (fun t s =>
      if inRemote t.pa then
        if sc == 3 then .fault (exc cACCESS ea) s
        else (fabGate s sc).bind (fun _ s =>
          let m := remoteMod t.pa
          let p := { packet0 m 8 0 with addr := BitVec.ofNat 45 (t.pa / 128 * 128), arg := BitVec.ofNat 8 s.grp.ctxid, data := toBytes (s.x b) 8 }
          (remoteAsk s 0 p t.pa ea 8).bind (fun r s =>
            if leNat r == 3 then .fault (linkDown ea m) s
            else (remoteRead s 0 t.pa ea 8 3).bind (fun v s => (acqG s sc).bind (fun _ s => done s d (zextN v)))))
      else (fabGate s sc).bind (fun _ s =>
        let own := fieldOf (s.x b) 37 32 == s.modid
        (if own then promoteFor s (s.x b) s.grp.ctxid (t.pa / 128) ea else .ok 2 s).bind (fun _ s1 =>
          let r := homeRead s1 t.home (t.pa / 128)
          if r.bad &&& blocksOf (t.pa % 128) 8 != 0 then .fault (uncorrectable ea (memSource s1 t.home t.pa)) r.st
          else (acqG r.st sc).bind (fun _ s => done s d (zextN (lineRead r.data (t.pa % 128) 8)))))))))

-- Atomics and reductions ---------------------------------------------------------------------------------------------

/-- Table 8-5: whether a combination is admitted; `red` excludes `exch` and `cas`. -/
def atomAdmitted (o t : Nat) (red : Bool) : Bool :=
  o ≤ 7 && t ≤ 4 && !(t == 4 && (o == 1 || o == 2 || o == 3)) && !(red && o ≥ 6)

/-- R146: an atomic in the L2 of a die: the L1 copy of the core is written back and discarded, the line is brought in,
becomes dirty and is journaled. -/
def l2Atomic (s : State) (c : Nat) (t : Tr) (va w : Nat) (f : Nat → Nat) : Acc Nat :=
  let line := t.pa / 128
  let off := t.pa % 128
  match (if l1Draining s c line || awaitsHome s (dieOf c) line || l2Down s (dieOf c) then none else l1Flush s c line) with
  | none => .wait s
  | some s0 =>
    let s1 := l2Ensure s0 (dieOf c) t (sectorsOf off w)
    match l2Find s1 (dieOf c) line with
    | none => .wait s1
    | some cl =>
      if cl.bad &&& blocksOf off w != 0 then .fault (uncorrectable va (cl.source t.pa w)) s1
      else
        let old := lineRead cl.data off w
        match journalAdd (l2Merge s1 (dieOf c) line t.home t.vol (byteMask off w) (lineAt off (f old % 2 ^ (8 * w)))) c line with
        | some s2 => .ok old s2
        | none => .wait s1

/-- R146: the L1 and L2 copies of a line on a die written back and invalidated; none where a promotion waits. -/
def dieFlush (s : State) (d line : Nat) : Option State :=
  (allOf (List.range 8) s (fun s i => l1Flush s (8 * d + i) line)).bind (fun s => l2Evict s d line)

/-- R146: an atomic at a home of this module for a group of core `c`. -/
def homeSite (s : State) (c : Nat) (t : Tr) (va w : Nat) (f : Nat → Nat) : Acc Nat :=
  match (if awaitsHome s (dieOf c) (t.pa / 128) then none else dieFlush s (dieOf c) (t.pa / 128)) with
  | none => .wait s
  | some s1 =>
    match homeAtomic s1 t.home t.pa w f with
    | some r => .ok r.1 r.2
    | none => .fault (uncorrectable va (memSource s1 t.home t.pa)) (atomicMissed s1 t.home t.pa)

/-- `atom.*` (R144 to R147). -/
def execAtom (d a : BitVec 5) (n : BitVec 3) (b : BitVec 5) (o : BitVec 4) (t : BitVec 3) (s : State) : Out :=
  let sc := n.toNat
  let w := atomWidth t.toNat
  sDoIf s (sc ≤ 4 && atomAdmitted o.toNat t.toNat false) (fun s =>
    let ea := (s.x a).toNat
    let op := (s.x b).toNat % 2 ^ (8 * w)
    let cmp := (s.x d).toNat % 2 ^ (8 * w)
    let f (old : Nat) : Nat := atomNew o.toNat t.toNat (8 * w) old op cmp
    (alignedTo s ea w).bind (fun _ s => (translate s s.grp.core s.grp.ctxid ea .store).bind (fun tr s =>
      (fabGate s sc).bind (fun _ s =>
        (if inRemote tr.pa then
          let p := { packet0 (remoteMod tr.pa) 2 3 with
            arg := BitVec.ofNat 8 (o.toNat * 8 + t.toNat), addr := BitVec.ofNat 45 tr.pa, data := bytesOf 16 (op + cmp * 2 ^ 64) }
          (remoteAsk s 0 p tr.pa ea w).bind (fun r s => .ok (leNat r % 2 ^ (8 * w)) s)
        else if redLine s (tr.pa / 128) then .wait s
        else if sc ≤ 2 then l2Atomic s s.grp.core tr ea w f
        else homeSite s s.grp.core tr ea w f).bind (fun old s =>
          done s d (if t.toNat == 0 then sextN 32 old else zextN old))))))

/-- `red.*` (R144, R148): checked at issue, then posted to its site: the L2 of the die, the write queue of its home, where the die's copies
are written back and invalidated first (R146), or another module. -/
def execRed (a : BitVec 5) (n : BitVec 3) (b : BitVec 5) (o : BitVec 4) (t : BitVec 3) (s : State) : Out :=
  let sc := n.toNat
  let w := atomWidth t.toNat
  sDoIf s (sc ≤ 4 && atomAdmitted o.toNat t.toNat true) (fun s =>
    let ea := (s.x a).toNat
    (alignedTo s ea w).bind (fun _ s => (translate s s.grp.core s.grp.ctxid ea .store).bind (fun tr s =>
      (fabGate s sc).bind (fun _ s =>
        let die := dieOf s.grp.core
        let r : RedReq := { handle := s.grp.handle, va := BitVec.ofNat 64 ea, pa := tr.pa, aop := o.toNat, ty := t.toNat,
                            opnd := s.x b, scope := sc, die := die, leaf := tr.leaf, pc := s.pc 0, word := s.iw }
        if inRemote tr.pa then
          let op := (s.x b).toNat % 2 ^ (8 * w)
          let m := remoteMod tr.pa
          if tentative s s.grp.handle then .wait s
          else if (routeTo s m).isNone then .fault (linkDown ea m) s
          else if ridFull s m then .wait s
          else
            let p := { packet0 m 3 3 with
              arg := BitVec.ofNat 8 (o.toNat * 8 + t.toNat), addr := BitVec.ofNat 45 tr.pa, data := bytesOf 8 op }
            .ok () (({ sendRequest s p s.grp.core s.grp.handle with
                       remReds := s.remReds ++ [(s.nextTag, r)] }).advance 0)
        else if sc ≤ 2 then .ok () ((s.updDie die (fun x => { x with reds := x.reds ++ [r] })).advance 0)
        else if redLine s (tr.pa / 128) || awaitsHome s die (tr.pa / 128) then .wait s
        else
          match dieFlush s die (tr.pa / 128) with
          | some s1 => .ok () ((homePost s1 tr.home r).advance 0)
          | none => .wait s))))

/-- R148: a posted reduction applied in the L2 of its die; none where it has to wait, also for the migration of its page (R328). -/
def applyRed (s : State) (r : RedReq) : Option State :=
  let c := match s.groupOf r.handle with
    | some g => g.core
    | none => 8 * r.die
  if migHeld s (r.handle.toNat / 2 ^ 56) r.va.toNat then none else
  match l2Atomic s c { pa := r.pa, leaf := r.leaf } r.va.toNat (atomWidth r.ty) r.fn with
  | .ok _ s1 => some s1
  | .fault e s1 => some (redFault s1 r e)
  | .wait _ => none

-- Full-empty forms ---------------------------------------------------------------------------------------------------

/-- Number of granules in a FIFO (R194). -/
def Fifo.count (f : Fifo) : Nat := (f.tail + 16384 - f.head) % 16384
/-- A FIFO with nothing in it. -/
def Fifo.empty : Fifo := { head := 0, tail := 0, data := [], bad := [] }
/-- FIFO `f` of a group. -/
def Group.fifo (g : Group) (f : Nat) : Fifo := g.fifos.getD f .empty
/-- The granule at HEAD. -/
def Fifo.top (f : Fifo) : BitVec 128 := getA f.data (f.head % 8192) 0
/-- A granule popped (R194). -/
def Fifo.pop (f : Fifo) : Fifo := { f with head := (f.head + 1) % 16384 }
/-- A granule that was popped put back in front, where there is room. -/
def Fifo.unpop (f : Fifo) (v : BitVec 128) : Fifo :=
  let h := (f.head + 16383) % 16384
  if f.count ≥ 8192 then f else { f with head := h, data := setA f.data (h % 8192) v, bad := f.bad.filter (fun k => k != h % 8192) }
/-- A granule pushed (R194): its place is written whole. -/
def Fifo.push (f : Fifo) (v : BitVec 128) : Fifo :=
  { f with tail := (f.tail + 1) % 16384, data := setA f.data (f.tail % 8192) v, bad := f.bad.filter (fun k => k != f.tail % 8192) }
/-- Whether one of the first `n` granules holds an uncorrectable error (R332). -/
def Fifo.badTop (f : Fifo) (n : Nat) : Bool := (List.range n).any (fun i => f.bad.contains ((f.head + i) % 8192))
/-- A FIFO of the group in focus changed. -/
def State.updFifo (s : State) (f : Nat) (k : Fifo → Fifo) : State := s.updGrp (fun g => { g with fifos := updAt g.fifos f k })
/-- Whether a granule is full (R193). -/
def Group.isFull (g : Group) (k : Nat) : Bool := g.full.contains k
/-- A granule made full. -/
def Group.fill (g : Group) (k : Nat) : Group := { g with full := insSorted k g.full }
/-- A granule made empty. -/
def Group.drain (g : Group) (k : Nat) : Group := { g with full := g.full.filter (fun x => x != k) }

/-- The first offset that names a FIFO (R194). -/
abbrev fifoBase : Nat := 0x80000000

/-- The checks of an access to FIFO `f`: its index, then its bank, which it waits for while it converts (R194, R195). -/
def fifoCheck (s : State) (f off : Nat) : Acc Unit :=
  if f ≥ s.grp.fifob then .fault (exc cACCESS off) s
  else
    match bankStand s (s.grp.scrb + f) .fifo with
    | .ready => .ok () s
    | .waits => .wait s
    | .other m => .fault (exc cBANKMODE off m) s

/-- `ldfe` (R195). -/
def execLdfe (d a : BitVec 5) (n : BitVec 3) (i : BitVec 12) (s : State) : Out :=
  sDoIf s (n.toNat ≤ 1) (fun s =>
    let off := ea12 s a i
    (Acc.guard (off % 8 != 0) (exc cALIGN off) s).bind (fun _ s =>
      if off < fifoBase then
        (scrCheck s off 8).bind (fun _ s =>
          if s.grp.isFull (off / 16) then
            (scrGet s off 8).bind (fun v s => (acqG (s.updGrp (fun g => g.drain (off / 16))) n.toNat).bind (fun _ s => done s d (zextN v)))
          else .wait s)
      else
        let f := (off - fifoBase) / bankBytes
        (fifoCheck s f off).bind (fun _ s =>
          if (s.grp.fifo f).count ≥ 1 && (s.grp.fifo f).badTop 1 then .fault (exc cMEMUNC off 1) s
          else if (s.grp.fifo f).count ≥ 1 then
            let v := (s.grp.fifo f).top.setWidth 64
            (acqG (s.updFifo f Fifo.pop) n.toNat).bind (fun _ s => done s d v)
          else .wait s)))

/-- `stfe` (R195): a release, then the hand-over. -/
def execStfe (d a : BitVec 5) (n : BitVec 3) (i : BitVec 12) (s : State) : Out :=
  if noGroup s then .fault .noGroup
  else if n.toNat > 1 then .next (illegal s 0)
  else redGate s n.toNat (fun s => sDo s (fun s =>
    let off := ea12 s a i
    (Acc.guard (off % 8 != 0) (exc cALIGN off) s).bind (fun _ s =>
      if off < fifoBase then
        (scrCheck s off 8).bind (fun _ s => (relG s n.toNat).bind (fun _ s =>
          if s.grp.isFull (off / 16) then .wait s
          else .ok () (((s.setScr off 8 (s.x d).toNat).updGrp (fun g => g.fill (off / 16))).advance 0)))
      else
        let f := (off - fifoBase) / bankBytes
        (fifoCheck s f off).bind (fun _ s => (relG s n.toNat).bind (fun _ s =>
          if (s.grp.fifo f).count ≤ 8191 then .ok () ((s.updFifo f (fun x => x.push ((s.x d).setWidth 128))).advance 0)
          else .wait s)))))

end Sys2Proof.Machine
end

