-- ==== Sys2Proof/Machine/Barrier.lean ====
section
/-! DEFINITION. Barriers (chapter 16): the object of Table 16-1, updates and the completion of a phase (R309), arrivals
(R310), and the ten `bar.*` forms (R312). -/

namespace Sys2Proof.Machine

-- The object ---------------------------------------------------------------------------------------------------------

/-- A barrier object with bits `hi` to `lo` replaced (Table 16-1). -/
def barSet (o : BitVec 128) (hi lo v : Nat) : BitVec 128 :=
  (o &&& ~~~(BitVec.ofNat 128 ((2 ^ (hi + 1 - lo) - 1) * 2 ^ lo))) ||| BitVec.ofNat 128 (v % 2 ^ (hi + 1 - lo) * 2 ^ lo)

/-- PHASES. -/
def barPhases (o : BitVec 128) : W32 := BitVec.ofNat 32 (fieldOf o 127 96)
/-- DROP. -/
def barDrop (o : BitVec 128) : Nat := fieldOf o 95 84
/-- KEY. -/
def barKey (o : BitVec 128) : Nat := fieldOf o 83 78
/-- PUB. -/
def barPub (o : BitVec 128) : Bool := fieldOf o 77 77 == 1
/-- INIT. -/
def barInit (o : BitVec 128) : Bool := fieldOf o 76 76 == 1
/-- OUT. -/
def barOut (o : BitVec 128) : Nat := fieldOf o 75 52
/-- IN. -/
def barIn (o : BitVec 128) : Nat := fieldOf o 51 28
/-- PEND. -/
def barPend (o : BitVec 128) : Nat := fieldOf o 27 16
/-- EXPECT. -/
def barExpect (o : BitVec 128) : Nat := fieldOf o 15 4
/-- GEN. -/
def barGen (o : BitVec 128) : Nat := fieldOf o 3 0

/-- R309: the object after an update that changed PEND, IN or OUT: a phase completes where all three are zero. -/
def barComplete (o : BitVec 128) : BitVec 128 :=
  if barPend o == 0 && barIn o == 0 && barOut o == 0 then
    let e := (barExpect o + 4096 - barDrop o) % 4096
    let o1 := barSet (barSet o 127 96 (fieldOf o 127 96 + 1)) 3 0 (barGen o + 1)
    barSet (barSet (barSet o1 15 4 e) 95 84 0) 27 16 e
  else o

/-- R310: the counts after an arrival, before any completion: none where the arrival has to wait. -/
def barCount (o : BitVec 128) : Option (BitVec 128) :=
  if barExpect o == 0 then some o
  else if barPend o == 0 then none
  else some (barSet o 27 16 (barPend o - 1))

-- The store of a core ------------------------------------------------------------------------------------------------

/-- Object `i` of a core. -/
def barObj (s : State) (core i : Nat) : BitVec 128 := (s.core core).bars.getD i 0

/-- How waits name an object of a core. -/
def barLoc (core i : Nat) : Nat := 256 * core + i

/-- A wait at an object, which ends once PHASES is no longer the value it tested (R310, R312). -/
def Wait.wake (w : Wait) (loc : Nat) (v : W32) : Wait :=
  if w.loc == loc && w.got.isNone && w.tested != v then { w with got := some v } else w

/-- Whether a wait at an object has not ended. -/
def waitsAt (w : Option Wait) (loc : Nat) : Bool := w.any (fun w => w.loc == loc && w.got.isNone)

/-- R309, R312: an object replaced; a changed PHASES ends the waits that tested another value. -/
def barPut (s : State) (core i : Nat) (o : BitVec 128) : State :=
  let s1 := s.updCore core (fun c => { c with bars := updAt c.bars i (fun _ => o) })
  if barPhases o == barPhases (barObj s core i) then s1
  else
    s1.updGroups (fun g => g.bwait.isSome || g.cbwait.isSome) (fun g => { g with
      bwait := g.bwait.map (fun w => w.wake (barLoc core i) (barPhases o)),
      cbwait := g.cbwait.map (fun w => w.wake (barLoc core i) (barPhases o)) })

/-- Whether a group is registered at an object. -/
def barRegistered (s : State) (core i : Nat) : Bool :=
  s.groups.any (fun g => g.core == core && g.st != .saved && g.bmap.any (fun e => e.kind != .unmapped && e.obj == i && e.reg))

/-- Whether a waiter waits at an object (R312 `bar.init`). -/
def barWaiter (s : State) (core i : Nat) : Bool :=
  s.groups.any (fun g => waitsAt g.bwait (barLoc core i) || waitsAt g.cbwait (barLoc core i))

/-- The object published under a key on a core, with a group of a context that names it (R308, R313). -/
def barPublished (s : State) (core key : Nat) (ctx : Option Nat) : Option Nat :=
  (List.range 256).find? (fun i =>
    let o := barObj s core i
    barPub o && barKey o == key &&
      s.groups.any (fun g => g.core == core && g.st != .saved && (ctx.isNone || ctx == some g.ctxid) &&
        g.bmap.any (fun e => e.kind != .unmapped && e.obj == i)))

/-- BARRIER_RANGE with a logical id (R312). -/
def barRange (b : Nat) : Exc := exc cBARRANGE b

/-- The map entry of a logical id of the group in focus: BARRIER_RANGE outside BARN and for an unmapped entry (R312,
R313). -/
def barEnt (s : State) (b : Nat) : Acc BEntry :=
  match s.grp.bmap[b]? with
  | none => .fault (barRange b) s
  | some e =>
    if e.kind == .unmapped then .fault (barRange b) s
    else if (s.core s.grp.core).badBar.contains e.obj then .fault { exc cMEMUNC b 1 with bar := true } s
    else .ok e s

/-- The map entry of a logical id changed. -/
def State.updBar (s : State) (b : Nat) (f : BEntry → BEntry) : State := s.updGrp (fun g => { g with bmap := updAt g.bmap b f })

/-- A scalar barrier instruction waits at an object (R312). -/
def barBlock (s : State) (core i : Nat) (tested : W32) : Acc Unit :=
  .wait (s.updGrp (fun g => { g with bwait := some { loc := barLoc core i, tested := tested, got := none } }))

/-- A scalar barrier instruction's wait is over. -/
def barDone (s : State) : State := s.updGrp (fun g => { g with bwait := none })

/-- The logical id of a register operand. -/
def barId (s : State) (a : BitVec 5) : Nat := fieldOf (s.x a) 7 0

-- The forms ----------------------------------------------------------------------------------------------------------

/-- `bar.init` (R312). -/
def execBarInit (a b : BitVec 5) (s : State) : Out :=
  sDo s (fun s =>
    let id := barId s a
    (barEnt s id).bind (fun e s =>
      let c := s.grp.core
      if e.kind == .attached || barRegistered s c e.obj || barWaiter s c e.obj then .fault (barRange id) s
      else
        let n := fieldOf (s.x b) 11 0
        let o := barSet (barSet (barObj s c e.obj &&& BitVec.ofNat 128 (0xFF * 2 ^ 76)) 15 4 n) 27 16 n
        .ok () ((barPut s c e.obj (barSet o 76 76 1)).advance 0)))

/-- `bar.reg` (R312). -/
def execBarReg (a : BitVec 5) (s : State) : Out :=
  sDo s (fun s =>
    let id := barId s a
    (barEnt s id).bind (fun e s =>
      let c := s.grp.core
      let o := barObj s c e.obj
      if !barInit o || e.reg || barExpect o == 4095 then .fault (barRange id) s
      else
        let s1 := barPut s c e.obj (barSet (barSet o 15 4 (barExpect o + 1)) 27 16 (barPend o + 1))
        .ok () ((s1.updBar id (fun e => { e with reg := true, last := none })).advance 0)))

/-- R310: an arrival through a map entry: none where it has to wait, else the state with the counts, a phase completed
where none is left, and the registered arrival recorded. -/
def barArrive (s : State) (id : Nat) (e : BEntry) (registered : Bool) : Option State :=
  let c := s.grp.core
  let o := barObj s c e.obj
  if registered && e.last == some (barPhases o) then none
  else
    match barCount o with
    | none => none
    | some o1 =>
      let counted := barPend o1 != barPend o
      let s1 := barPut s c e.obj (if counted then barComplete o1 else o1)
      some (if registered && counted then s1.updBar id (fun e => { e with last := some (barPhases o) }) else s1)

/-- `bar.arr` (R310 to R312). -/
def execBarArr (d a : BitVec 5) (n : BitVec 3) (s : State) : Out :=
  if noGroup s then .fault .noGroup
  else if n.toNat > 3 then .next (illegal s 0)
  else redGate s n.toNat (fun s => sDo s (fun s =>
    let id := barId s a
    (barEnt s id).bind (fun e s =>
      let c := s.grp.core
      if !barInit (barObj s c e.obj) then .fault (barRange id) s
      else if waitsAt s.grp.bwait (barLoc c e.obj) || (barArrive s id e e.reg).isNone then barBlock s c e.obj (barPhases (barObj s c e.obj))
      else (relG s n.toNat).bind (fun _ s =>
        let v := barPhases (barObj s c e.obj)
        match barArrive s id e e.reg with
        | some s1 => done (barDone s1) d (v.setWidth 64)
        | none => barBlock s c e.obj v))))

/-- `bar.wait` (R311, R312). -/
def execBarWait (d a b : BitVec 5) (n : BitVec 3) (s : State) : Out :=
  sDoIf s (n.toNat ≤ 3) (fun s =>
    let id := barId s a
    (barEnt s id).bind (fun e s =>
      let c := s.grp.core
      let o := barObj s c e.obj
      let t : W32 := (s.x b).setWidth 32
      if !barInit o then .fault (barRange id) s
      else
        let ended := match s.grp.bwait with
          | some w => if w.loc == barLoc c e.obj && w.tested == t then w.got else none
          | none => none
        match (if barPhases o != t then some (barPhases o) else ended) with
        | some v =>
          let v := ended.getD v
          (acqG (barDone s) n.toNat).bind (fun _ s => done s d (v.setWidth 64))
        | none => barBlock s c e.obj t))

/-- R312: DROP + 1 at an entry's object, and the group no longer registered there. -/
def barLeave (s : State) (id : Nat) (e : BEntry) : State :=
  let o := barObj s s.grp.core e.obj
  (barPut s s.grp.core e.obj (barSet o 95 84 (barDrop o + 1))).updBar id (fun e => { e with reg := false })

/-- R312 `bar.ard` at an entry: the registered arrival where the phase has none yet, with the phase it completes (R309), then the
drop: none where the arrival has to wait. -/
def barArd (s : State) (id : Nat) (e : BEntry) : Option State :=
  if e.last == some (barPhases (barObj s s.grp.core e.obj)) then some (barLeave s id e)
  else (barArrive s id e true).map (fun s => barLeave s id e)

/-- `bar.ard` (R312). -/
def execBarArd (a : BitVec 5) (n : BitVec 3) (s : State) : Out :=
  if noGroup s then .fault .noGroup
  else if n.toNat > 3 then .next (illegal s 0)
  else redGate s n.toNat (fun s => sDo s (fun s =>
    let id := barId s a
    (barEnt s id).bind (fun e s =>
      let c := s.grp.core
      if !e.reg then .fault (barRange id) s
      else if waitsAt s.grp.bwait (barLoc c e.obj) || (barArd s id e).isNone then barBlock s c e.obj (barPhases (barObj s c e.obj))
      else (relG s n.toNat).bind (fun _ s =>
        match barArd s id e with
        | some s1 => .ok () ((barDone s1).advance 0)
        | none => barBlock s c e.obj (barPhases (barObj s c e.obj))))))

/-- `bar.pub` (R312). -/
def execBarPub (a b : BitVec 5) (s : State) : Out :=
  sDo s (fun s =>
    let id := barId s a
    (barEnt s id).bind (fun e s =>
      let c := s.grp.core
      let o := barObj s c e.obj
      let key := fieldOf (s.x b) 5 0
      if e.kind == .attached || barPub o || (barPublished s c key none).isSome then .fault (barRange id) s
      else .ok () ((barPut s c e.obj (barSet (barSet o 77 77 1) 83 78 key)).advance 0)))

/-- `bar.att` (R312). -/
def execBarAtt (a b : BitVec 5) (s : State) : Out :=
  sDo s (fun s =>
    let id := barId s a
    (barEnt s id).bind (fun e s =>
      let c := s.grp.core
      let o := barObj s c e.obj
      if e.kind == .attached || barPub o || e.reg then .fault (barRange id) s
      else
        match barPublished s c (fieldOf (s.x b) 5 0) (some s.grp.ctxid) with
        | none => .wait s
        | some i =>
          .ok () (((barPut s c e.own 0).updBar id (fun e => { e with kind := .attached, obj := i, reg := false, last := none })).advance 0)))

/-- R312: the core and object that a live group of the context, by its handle, has published under a key. -/
def barSite (s : State) (h : W64) (key : Nat) : Option (Nat × Nat) :=
  (s.groupOf h).bind (fun g =>
    if g.ctxid != s.grp.ctxid || g.st == .saved then none
    else
      (g.bmap.find? (fun e => e.kind == .owned && barPub (barObj s g.core e.obj) && barKey (barObj s g.core e.obj) == key)).map
        (fun e => (g.core, e.obj)))

/-- `bar.rarr` (R312). -/
def execBarRarr (d a b : BitVec 5) (n : BitVec 3) (s : State) : Out :=
  if noGroup s then .fault .noGroup
  else if n.toNat > 3 then .next (illegal s 0)
  else redGate s n.toNat (fun s => sDo s (fun s =>
    let key := fieldOf (s.x b) 5 0
    match barSite s (s.x a) key with
    | none => (relG s n.toNat).bind (fun _ s => done (barDone s) d 1)
    | some p =>
      let o := barObj s p.1 p.2
      if (s.core p.1).badBar.contains p.2 then .fault { exc cMEMUNC key 1 with bar := true } s
      else if waitsAt s.grp.bwait (barLoc p.1 p.2) then .wait s
      else (relG s n.toNat).bind (fun _ s =>
        match barCount o with
        | none => barBlock s p.1 p.2 (barPhases o)
        | some o1 => done (barDone (barPut s p.1 p.2 (if barPend o1 != barPend o then barComplete o1 else o1))) d 0)))

/-- `bar.rdlo` (R312). -/
def execBarRdlo (d a : BitVec 5) (s : State) : Out :=
  sDo s (fun s => (barEnt s (barId s a)).bind (fun e s => done s d ((barObj s s.grp.core e.obj).setWidth 64)))

/-- `bar.rdhi` (R312). -/
def execBarRdhi (d a : BitVec 5) (s : State) : Out :=
  sDo s (fun s => (barEnt s (barId s a)).bind (fun e s => done s d ((barObj s s.grp.core e.obj >>> 64).setWidth 64)))

-- Counts of transfers ------------------------------------------------------------------------------------------------

/-- R250, R309: one count-down of IN (`out` false) or OUT at an object, modulo 2^24. -/
def barDown (s : State) (core i : Nat) (out : Bool) : State :=
  let o := barObj s core i
  let o1 := if out then barSet o 75 52 (barOut o + 2 ^ 24 - 1) else barSet o 51 28 (barIn o + 2 ^ 24 - 1)
  barPut s core i (barComplete o1)

/-- R263: a count added to IN (`out` false) or OUT at an object, modulo 2^24; an addition of 0 changes nothing (R309). -/
def barAdd (s : State) (core i : Nat) (out : Bool) (n : Nat) : State :=
  let o := barObj s core i
  if n == 0 then s
  else barPut s core i (barComplete (if out then barSet o 75 52 (barOut o + n) else barSet o 51 28 (barIn o + n)))

end Sys2Proof.Machine
end

