-- ==== Sys2Proof/Machine/VArith.lean ====
section
/-! DEFINITION. Vector arithmetic: floating and integer forms (R161, R162), logic and shifts (R163, R164), constants,
moves, selection and permutes (R165 to R168), and reductions (R176, R177). -/

namespace Sys2Proof.Machine

-- Elements -----------------------------------------------------------------------------------------------------------

/-- The format of a floating TYPE selector (R161). -/
def vFmt (t : Nat) : Fmt :=
  match t with
  | 0 => fmtF32
  | 1 => fmtBf16
  | _ => fmtH16

/-- Whether a code is a NaN of a format. -/
def fpIsNan (f : Fmt) (a : Nat) : Bool :=
  match fpDecode f a with
  | .nan => true
  | _ => false

/-- R155: the order of codes of a format for minimum and maximum: by value, -0 below +0. -/
def fpLess (f : Fmt) (a b : Nat) : Bool :=
  let s := 2 ^ (f.eb + f.fb)
  let key (x : Nat) : Int := if x ≥ s then -((x - s : Nat) : Int) - 1 else x
  key a < key b

/-- Table 9-2: an element result, on codes of a format. -/
def fpElem (f : Fmt) (op a b d : Nat) : Nat :=
  let x := fpDecode f a
  let y := fpDecode f b
  let z := fpDecode f d
  match op with
  | 1 => fpEncode f (fpSum x y)
  | 2 => fpEncode f (fpSum x (fpNeg y))
  | 3 => fpEncode f (fpProd x y)
  | 4 => fpEncode f (fpSum (fpProd x y) z)
  | 5 => fpEncode f (fpSum z (fpNeg (fpProd x y)))
  | 6 => if fpIsNan f a || fpIsNan f b then fpNan f else if fpLess f b a then b else a
  | _ => if fpIsNan f a || fpIsNan f b then fpNan f else if fpLess f a b then b else a

/-- R162: an element result of `w` bits. -/
def intElem (w : Nat) (signed : Bool) (op a b : Nat) : Nat :=
  let lo : Int := -(2 ^ (w - 1))
  let hi : Int := 2 ^ (w - 1) - 1
  let sat (v : Int) : Nat := (saturate v lo hi % 2 ^ w).toNat
  let x := toS w a
  let y := toS w b
  match op with
  | 8 => if signed then sat (x + y) else (a + b) % 2 ^ w
  | 9 => if signed then sat (x - y) else (a + 2 ^ w - b) % 2 ^ w
  | 10 => if signed then sat (x * y) else a * b % 2 ^ w
  | 11 => if signed then (x * y / 2 ^ w % 2 ^ w).toNat else a * b / 2 ^ w
  | 12 => if signed then (if y < x then b else a) else min a b
  | _ => if signed then (if x < y then b else a) else max a b

/-- R153: an operation on lanes of one 32-bit element or of two 16-bit elements. -/
def onElems (packed : Bool) (f : Nat → Nat → Nat → Nat) (a b d : W32) : W32 :=
  if packed then
    BitVec.ofNat 32 (f (a.toNat % 65536) (b.toNat % 65536) (d.toNat % 65536) +
      65536 * f (a.toNat / 65536) (b.toNat / 65536) (d.toNat / 65536))
  else BitVec.ofNat 32 (f a.toNat b.toNat d.toNat)

/-- A lane-by-lane instruction with three register operands under K (R154). -/
def vLanes (s : State) (legal : Bool) (p q : BitVec 3) (d a b : BitVec 5) (k : BitVec 3) (lam : Nat)
    (f : W32 → W32 → W32 → W32) : Out :=
  vExecIf s legal p q [d.toNat, a.toNat, b.toNat] lam (fun g =>
    let x := g.v a.toNat
    let y := g.v b.toNat
    let z := g.v d.toNat
    vres d (g.k k.toNat) (lanes (fun i => f (x.getD i 0) (y.getD i 0) (z.getD i 0))))

/-- R161: a floating instruction; TYPE 3 raises ILLEGAL. -/
def vFloat (s : State) (op : Nat) (p q : BitVec 3) (d a b : BitVec 5) (k : BitVec 3) (t : BitVec 2) : Out :=
  vLanes s (t != 3) p q d a b k 4 (onElems (t != 0) (fpElem (vFmt t.toNat) op))

/-- R162: an integer instruction. -/
def vInt (s : State) (op : Nat) (p q : BitVec 3) (d a b : BitVec 5) (k : BitVec 3) (t : BitVec 2) : Out :=
  vLanes s true p q d a b k 1
    (onElems (t.toNat ≥ 2) (fun x y _ => intElem (if t.toNat ≥ 2 then 16 else 32) (t.toNat % 2 == 0) op x y))

/-- `vadd` of floating types (R161). -/
def execVadd (p q : BitVec 3) (d a b : BitVec 5) (k : BitVec 3) (t : BitVec 2) (s : State) : Out := vFloat s 1 p q d a b k t
/-- `vsub` of floating types (R161). -/
def execVsub (p q : BitVec 3) (d a b : BitVec 5) (k : BitVec 3) (t : BitVec 2) (s : State) : Out := vFloat s 2 p q d a b k t
/-- `vmul` of floating types (R161). -/
def execVmul (p q : BitVec 3) (d a b : BitVec 5) (k : BitVec 3) (t : BitVec 2) (s : State) : Out := vFloat s 3 p q d a b k t
/-- `vfma` (R161). -/
def execVfma (p q : BitVec 3) (d a b : BitVec 5) (k : BitVec 3) (t : BitVec 2) (s : State) : Out := vFloat s 4 p q d a b k t
/-- `vfms` (R161). -/
def execVfms (p q : BitVec 3) (d a b : BitVec 5) (k : BitVec 3) (t : BitVec 2) (s : State) : Out := vFloat s 5 p q d a b k t
/-- `vmin` of floating types (R161). -/
def execVmin (p q : BitVec 3) (d a b : BitVec 5) (k : BitVec 3) (t : BitVec 2) (s : State) : Out := vFloat s 6 p q d a b k t
/-- `vmax` of floating types (R161). -/
def execVmax (p q : BitVec 3) (d a b : BitVec 5) (k : BitVec 3) (t : BitVec 2) (s : State) : Out := vFloat s 7 p q d a b k t
/-- `vadd` of integer types (R162). -/
def execVaddInteger (p q : BitVec 3) (d a b : BitVec 5) (k : BitVec 3) (t : BitVec 2) (s : State) : Out := vInt s 8 p q d a b k t
/-- `vsub` of integer types (R162). -/
def execVsubInteger (p q : BitVec 3) (d a b : BitVec 5) (k : BitVec 3) (t : BitVec 2) (s : State) : Out := vInt s 9 p q d a b k t
/-- `vmul` of integer types (R162). -/
def execVmulInteger (p q : BitVec 3) (d a b : BitVec 5) (k : BitVec 3) (t : BitVec 2) (s : State) : Out := vInt s 10 p q d a b k t
/-- `vmulh` (R162). -/
def execVmulh (p q : BitVec 3) (d a b : BitVec 5) (k : BitVec 3) (t : BitVec 2) (s : State) : Out := vInt s 11 p q d a b k t
/-- `vmin` of integer types (R162). -/
def execVminInteger (p q : BitVec 3) (d a b : BitVec 5) (k : BitVec 3) (t : BitVec 2) (s : State) : Out := vInt s 12 p q d a b k t
/-- `vmax` of integer types (R162). -/
def execVmaxInteger (p q : BitVec 3) (d a b : BitVec 5) (k : BitVec 3) (t : BitVec 2) (s : State) : Out := vInt s 13 p q d a b k t

-- Logic and shifts ---------------------------------------------------------------------------------------------------

/-- R163, R164: a 32-bit lane instruction of latency 1. -/
def vLogic (s : State) (p q : BitVec 3) (d a b : BitVec 5) (k : BitVec 3) (f : W32 → W32 → W32) : Out :=
  vLanes s true p q d a b k 1 (fun x y _ => f x y)

/-- `vand` (R163). -/
def execVand (p q : BitVec 3) (d a b : BitVec 5) (k : BitVec 3) (s : State) : Out := vLogic s p q d a b k (fun x y => x &&& y)
/-- `vor` (R163). -/
def execVor (p q : BitVec 3) (d a b : BitVec 5) (k : BitVec 3) (s : State) : Out := vLogic s p q d a b k (fun x y => x ||| y)
/-- `vxor` (R163). -/
def execVxor (p q : BitVec 3) (d a b : BitVec 5) (k : BitVec 3) (s : State) : Out := vLogic s p q d a b k (fun x y => x ^^^ y)
/-- `vshl` (R163). -/
def execVshl (p q : BitVec 3) (d a b : BitVec 5) (k : BitVec 3) (s : State) : Out :=
  vLogic s p q d a b k (fun x y => x <<< (y.toNat % 32))
/-- `vshr` (R163). -/
def execVshr (p q : BitVec 3) (d a b : BitVec 5) (k : BitVec 3) (s : State) : Out :=
  vLogic s p q d a b k (fun x y => x >>> (y.toNat % 32))
/-- `vsra` (R163). -/
def execVsra (p q : BitVec 3) (d a b : BitVec 5) (k : BitVec 3) (s : State) : Out :=
  vLogic s p q d a b k (fun x y => x.sshiftRight (y.toNat % 32))

/-- A lane-by-lane instruction with one register operand under K. -/
def vUnary (s : State) (legal : Bool) (p q : BitVec 3) (d a : BitVec 5) (k : BitVec 3) (lam : Nat) (f : W32 → W32) : Out :=
  vExecIf s legal p q [d.toNat, a.toNat] lam (fun g => vres d (g.k k.toNat) ((g.v a.toNat).map f))

/-- `vaddi` (R164). -/
def execVaddi (p q : BitVec 3) (d a : BitVec 5) (k : BitVec 3) (i : BitVec 7) (s : State) : Out :=
  vUnary s true p q d a k 1 (fun x => x + i.signExtend 32)
/-- `vandi` (R164). -/
def execVandi (p q : BitVec 3) (d a : BitVec 5) (k : BitVec 3) (i : BitVec 7) (s : State) : Out :=
  vUnary s true p q d a k 1 (fun x => x &&& i.signExtend 32)
/-- `vshli` (R164). -/
def execVshli (p q : BitVec 3) (d a : BitVec 5) (k : BitVec 3) (i : BitVec 5) (s : State) : Out :=
  vUnary s true p q d a k 1 (fun x => x <<< i.toNat)
/-- `vshri` (R164). -/
def execVshri (p q : BitVec 3) (d a : BitVec 5) (k : BitVec 3) (i : BitVec 5) (s : State) : Out :=
  vUnary s true p q d a k 1 (fun x => x >>> i.toNat)

-- Constants, moves and permutes --------------------------------------------------------------------------------------

/-- `vli` (R165). -/
def execVli (p q : BitVec 3) (d : BitVec 5) (i : BitVec 15) (s : State) : Out :=
  vExec s p q [d.toNat] 1 (fun _ => vres d (BitVec.allOnes 128) (lanes (fun _ => i.signExtend 32)))
/-- `vlih` (R165). -/
def execVlih (p q : BitVec 3) (d : BitVec 5) (i : BitVec 15) (s : State) : Out :=
  vExec s p q [d.toNat] 1 (fun g =>
    vres d (BitVec.allOnes 128) ((g.v d.toNat).map (fun x => BitVec.ofNat 32 (x.toNat * 32768 + i.toNat))))
/-- `vmov` (R166). -/
def execVmov (p q : BitVec 3) (d a : BitVec 5) (k : BitVec 3) (s : State) : Out := vUnary s true p q d a k 1 (fun x => x)
/-- `vlane` (R166). -/
def execVlane (p q : BitVec 3) (d a : BitVec 5) (k : BitVec 3) (n : BitVec 6) (s : State) : Out :=
  vExec s p q [d.toNat, a.toNat] 1 (fun g => vres d (g.k k.toNat) (lanes (fun _ => g.lane a.toNat n.toNat)))
/-- `vsel` (R167): K selects and does not govern. -/
def execVsel (p q : BitVec 3) (d a b : BitVec 5) (k : BitVec 3) (s : State) : Out :=
  vExec s p q [d.toNat, a.toNat, b.toNat] 1 (fun g =>
    vres d (BitVec.allOnes 128) (lanes (fun i => if bitAt (g.k k.toNat) i then g.lane a.toNat i else g.lane b.toNat i)))

/-- R168: a permute: lane `i` of the result from the three registers. -/
def vPermute (s : State) (p q : BitVec 3) (d a b : BitVec 5) (k : BitVec 3)
    (f : (Nat → W32) → (Nat → W32) → (Nat → W32) → Nat → W32) : Out :=
  vExec s p q [d.toNat, a.toNat, b.toNat] 1 (fun g =>
    let x := g.v a.toNat
    let y := g.v b.toNat
    let z := g.v d.toNat
    vres d (g.k k.toNat) (lanes (f (fun i => x.getD i 0) (fun i => y.getD i 0) (fun i => z.getD i 0))))

/-- `vperm` (R168). -/
def execVperm (p q : BitVec 3) (d a b : BitVec 5) (k : BitVec 3) (s : State) : Out :=
  vPermute s p q d a b k (fun x y _ i => x ((y i).toNat % 128))
/-- `vshuf` (R168). -/
def execVshuf (p q : BitVec 3) (d a b : BitVec 5) (k : BitVec 3) (s : State) : Out :=
  vPermute s p q d a b k (fun x y z i => if (y i).toNat / 128 % 2 == 1 then z ((y i).toNat % 128) else x ((y i).toNat % 128))
/-- `vrot` (R168). -/
def execVrot (p q : BitVec 3) (d a b : BitVec 5) (k : BitVec 3) (s : State) : Out :=
  vPermute s p q d a b k (fun x y _ i => x ((i + (y 0).toNat % 128) % 128))
/-- `vzip` (R168). -/
def execVzip (p q : BitVec 3) (d a b : BitVec 5) (k : BitVec 3) (s : State) : Out :=
  vPermute s p q d a b k (fun x y _ i => if i % 2 == 0 then x (i / 2) else y ((i - 1) / 2))

-- Reductions ---------------------------------------------------------------------------------------------------------

/-- One level of the tree of R176. -/
def pairUp (op : W32 → W32 → W32) : List W32 → List W32
  | x :: y :: r => op x y :: pairUp op r
  | l => l

/-- R176: the reduction tree over 128 values. -/
def tree128 (op : W32 → W32 → W32) (l : List W32) : W32 :=
  (pairUp op (pairUp op (pairUp op (pairUp op (pairUp op (pairUp op (pairUp op l))))))).headD 0

/-- R176: the operation and the identity of a reduction: 0 add, 1 max, 2 min; TYPE 0 `f32`, 1 `i32`, 2 `n32`. -/
def redOp (o t : Nat) : (W32 → W32 → W32) × W32 :=
  match o, t with
  | 0, 0 => (fp32Add, 0x80000000)
  | 0, _ => (fun x y => x + y, 0)
  | 1, 0 => (f32Max, 0xFF800000)
  | 1, 1 => (fun x y => if x.slt y then y else x, 0x80000000)
  | 1, _ => (fun x y => if x.ult y then y else x, 0)
  | _, 0 => (f32Min, 0x7F800000)
  | _, 1 => (fun x y => if y.slt x then y else x, 0x7FFFFFFF)
  | _, _ => (fun x y => if y.ult x then y else x, 0xFFFFFFFF)

/-- R176: a reduction into lane 0. -/
def vReduce (s : State) (o : Nat) (p q : BitVec 3) (d a : BitVec 5) (k : BitVec 3) (t : BitVec 2) : Out :=
  vExecIf s (t != 3) p q [d.toNat, a.toNat] 8 (fun g =>
    let r := redOp o t.toNat
    let x := g.v a.toNat
    let m := g.k k.toNat
    vres d 1 [tree128 r.1 (lanes (fun i => if bitAt m i then x.getD i 0 else r.2))])

/-- `vradd` (R176). -/
def execVradd (p q : BitVec 3) (d a : BitVec 5) (k : BitVec 3) (t : BitVec 2) (s : State) : Out := vReduce s 0 p q d a k t
/-- `vrmax` (R176). -/
def execVrmax (p q : BitVec 3) (d a : BitVec 5) (k : BitVec 3) (t : BitVec 2) (s : State) : Out := vReduce s 1 p q d a k t
/-- `vrmin` (R176). -/
def execVrmin (p q : BitVec 3) (d a : BitVec 5) (k : BitVec 3) (t : BitVec 2) (s : State) : Out := vReduce s 2 p q d a k t

/-- R177: whether a lane value exceeds the best one. -/
def rmaxiBetter (t : Nat) (best x : W32) : Bool :=
  match t with
  | 0 => !isNan best && (isNan x || f32Less best x)
  | 1 => best.slt x
  | _ => best.ult x

/-- R177: the lane of the maximum among the active lanes. -/
def rmaxiLane (t : Nat) (m : BitVec 128) (x : List W32) : Option Nat :=
  (List.range 128).foldl (fun best i =>
    if bitAt m i then
      match best with
      | none => some i
      | some j => if rmaxiBetter t (x.getD j 0) (x.getD i 0) then some i else some j
    else best) none

/-- `vrmaxi` (R177). -/
def execVrmaxi (p q : BitVec 3) (d a : BitVec 5) (k : BitVec 3) (t : BitVec 2) (s : State) : Out :=
  vExecIf s (t != 3) p q [d.toNat, a.toNat] 8 (fun g =>
    let x := g.v a.toNat
    match rmaxiLane t.toNat (g.k k.toNat) x with
    | none => vres d 3 [if t == 0 then 0xFF800000 else if t == 1 then 0x80000000 else 0, 0xFFFFFFFF]
    | some j => vres d 3 [if t == 0 && isNan (x.getD j 0) then nan32 else x.getD j 0, BitVec.ofNat 32 j])

end Sys2Proof.Machine
end

