-- ==== Sys2Proof/Machine/VMem.lean ====
section
/-! DEFINITION. Vector memory: loads and stores (R182 to R187), the multi-step gathers, scatters and look-ups (R188), the
full-empty forms (R197), `vrescale` (R181) and the accumulator drains (R203). A result of an interlocked instruction other
than `vld` is written in its issue cycle (log entry 25). -/

namespace Sys2Proof.Machine

-- Addresses ----------------------------------------------------------------------------------------------------------

/-- R182: the global address of lane `i` of an address pair. -/
def pairAddr (g : Group) (a : BitVec 5) (i : Nat) : Nat :=
  (g.lane a.toNat i).toNat + 2 ^ 32 * (g.lane (a.toNat + 1) i).toNat

/-- The address modulo 2^64 after a signed displacement. -/
def dispAddr (base : Nat) (d : Int) : Nat := (((base : Int) + d) % 2 ^ 64).toNat

/-- The registers that a memory instruction names. -/
def pairNames (d a : BitVec 5) : List Nat := [d.toNat, a.toNat, a.toNat + 1]

-- Loads and stores ---------------------------------------------------------------------------------------------------

/-- `vld` (R183, R185): its checks and its data come later. -/
def execVld (p q : BitVec 3) (d a : BitVec 5) (k : BitVec 3) (o : BitVec 7) (s : State) : Out :=
  if noGroup s then .fault .noGroup
  else if a.toNat % 2 == 1 then .next (illegal s 1)
  else
    match vGate (retireDue s) p q (pairNames d a) true false with
    | .ok _ s1 =>
      let op : VldOp :=
        { pc := s1.pc 1, word := s1.iw, num := d.toNat, addr := BitVec.ofNat 64 (dispAddr (pairAddr s1.grp a 0) (512 * o.toInt)),
          mask := s1.grp.k k.toNat, push := q }
      .next (vTick (((tokIssue s1 1 p q).updGrp (fun g => { g with vld := some op })).advance 1))
    | .fault e s1 => .next (raise s1 1 e none)
    | .wait s1 => .next (vWait s1)

/-- R184, R186: the checks of a store of the active lanes from `a`: the first failing check over all lanes, with its
lowest lane. No fault is found while a lane waits, since its own check may come first. Room for the writes of another module is part of them. -/
def storeLanesCheck (s : State) (a : Nat) (mask : BitVec 128) : Acc Unit :=
  if mask != 0 && a % 4 != 0 then .fault (exc cALIGN ((a + 4 * lowest 128 (bitAt mask)) % 2 ^ 64)) s
  else
    let r := (List.range 128).foldl (fun (acc : Option Exc × Bool × State) i =>
      if bitAt mask i then
        match storeCheck acc.2.2 ((a + 4 * i) % 2 ^ 64) 4 with
        | .ok t s =>
          let full := inRemote t.pa && ((s.dest (remoteMod t.pa)).open.filter (fun p => popWrites p.pop.toNat)).length > 128
          (acc.1, acc.2.1 || full, s)
        | .fault e s => (firstExc acc.1 e, acc.2.1, s)
        | .wait s => (acc.1, true, s)
      else acc) ((none : Option Exc), false, s)
    if r.2.1 then .wait r.2.2
    else
      match r.1 with
      | some e => .fault e r.2.2
      | none => .ok () r.2.2

/-- R187: the active lanes written in lane order; where one has to wait, none is written yet (R186). -/
def storeLanes (s : State) (a : Nat) (mask : BitVec 128) (vals : List W32) : Acc Unit :=
  match (List.range 128).foldl (fun (acc : Acc Unit) i =>
    if bitAt mask i then acc.bind (fun _ s => vaWrite s ((a + 4 * i) % 2 ^ 64) 4 (vals.getD i 0).toNat) else acc) (.ok () s) with
  | .wait _ => .wait s
  | r => r

/-- `vst` (R183, R186). -/
def execVst (p q : BitVec 3) (d a : BitVec 5) (k : BitVec 3) (o : BitVec 7) (s : State) : Out :=
  if noGroup s then .fault .noGroup
  else if a.toNat % 2 == 1 then .next (illegal s 1)
  else vHeld s p q (pairNames d a)
    (fun g => { addr := BitVec.ofNat 64 (dispAddr (pairAddr g a 0) (512 * o.toInt)), zero := 0, mask := g.k k.toNat, vals := g.v d.toNat })
    (fun x s => (storeLanesCheck s x.addr.toNat x.mask).bind (fun _ s =>
      (storeLanes s x.addr.toNat x.mask x.vals).bind (fun _ s => .ok () (s.advance 1))))

-- Multi-step instructions --------------------------------------------------------------------------------------------

/-- A multi-step vector instruction completes (R160, R61). -/
def endVCmd (s : State) (push : BitVec 3) : State :=
  ((tokDone s 1 push).updGrp (fun g => { g with vcmd := none, prgv := prgClear g.prgv })).advance 1

/-- R61, R188: the issue of a multi-step vector instruction: at ELEMENT without pops where `prgv` matches, else from
element 0. `mk` makes the checks and captures the operands; `count` is its number of elements; `fin` its completion. -/
def vMulti (s : State) (p q : BitVec 3) (names : List Nat) (mk : State → Nat → Acc (VCmd × Nat)) (fin : State → VCmd → State) : Out :=
  if noGroup s then .fault .noGroup
  else
    let s0 := retireDue s
    let res := prgMatch s0.grp.prgv (s0.pc 1)
    let p1 := if res then 0 else p
    let e0 := if res then prgElem s0.grp.prgv else 0
    match vGate s0 p1 q names true false with
    | .fault e s1 => .next (raise s1 1 e none)
    | .wait s1 => .next (vWait s1)
    | .ok _ s1 =>
      match mk s1 e0 with
      | .fault e s2 => .next (raise s2 1 e (some e0))
      | .wait s2 => .next (vWait s2)
      | .ok c s2 =>
        let cmd : VCmd := { c.1 with pc := s2.pc 1, word := s2.iw, pops := p, push := q, elem := e0, resumed := res }
        let s3 := (tokIssue s2 1 p1 q).updGrp (fun g => { g with prgv := if res then g.prgv else prgClear g.prgv })
        if e0 ≥ c.2 then .next (vTick (endVCmd (fin s3 cmd) q))
        else .next (vTick (s3.updGrp (fun g => { g with vcmd := some cmd })))

/-- A multi-step instruction with no operands captured. -/
def VCmd.new (k : VKind) : VCmd :=
  { kind := k, pc := 0, word := 0, vd := 0, addrs := [], vals := [], mask := 0, pops := 0, push := 0, elem := 0, resumed := false,
    s4 := false, step := 0, bstart := 0, bm := none, blen := 0, bnum := 0 }

/-- `vgather` and `vscatter` (R183). -/
def vIndexed (s : State) (kind : VKind) (p q : BitVec 3) (d a : BitVec 5) (k : BitVec 3) (o : BitVec 7) : Out :=
  if noGroup s then .fault .noGroup
  else if a.toNat % 2 == 1 then .next (illegal s 1)
  else
    vMulti s p q (pairNames d a) (fun s _ =>
      let g := s.grp
      let c : VCmd :=
        { VCmd.new kind with
          vd := d.toNat, addrs := tab 128 (fun i => BitVec.ofNat 64 (dispAddr (pairAddr g a i) (4 * o.toInt))),
          vals := g.v d.toNat, mask := g.k k.toNat }
      .ok (c, 128) s) (fun s _ => s)

/-- `vgather` (R183, R188). -/
def execVgather (p q : BitVec 3) (d a : BitVec 5) (k : BitVec 3) (o : BitVec 7) (s : State) : Out := vIndexed s .gather p q d a k o
/-- `vscatter` (R183, R188). -/
def execVscatter (p q : BitVec 3) (d a : BitVec 5) (k : BitVec 3) (o : BitVec 7) (s : State) : Out := vIndexed s .scatter p q d a k o
/-- `vlut` (R183, R188). -/
def execVlut (p q : BitVec 3) (d a : BitVec 5) (k : BitVec 3) (o : BitVec 7) (s : State) : Out :=
  vMulti s p q [d.toNat, a.toNat] (fun s _ =>
    let g := s.grp
    let c : VCmd :=
      { VCmd.new .lut with
        vd := d.toNat, addrs := (g.v a.toNat).map (fun x => (x + 4 * o.signExtend 32).setWidth 64), mask := g.k k.toNat }
    .ok (c, 128) s) (fun s _ => s)

/-- One element of a gather, scatter or look-up (R188). -/
def vElement (s : State) (c : VCmd) : Acc Unit :=
  let i := c.elem
  let a := (c.addrs.getD i 0).toNat
  let put (v : Nat) (s : State) : Acc Unit :=
    .ok () (s.updGrp (fun g => g.setV c.vd (BitVec.ofNat 128 (2 ^ i)) 0 (tab 128 (fun _ => BitVec.ofNat 32 v))))
  if !bitAt c.mask i then .ok () s
  else
    match c.kind with
    | .gather => (alignedTo s a 4).bind (fun _ s => (vaRead s 1 a 4).bind put)
    | .scatter => (alignedTo s a 4).bind (fun _ s => vaWrite s a 4 (c.vals.getD i 0).toNat)
    | .lut => (scrRead s a 4 4).bind put
    | .quant => .ok () s

/-- A fault at an element (R188, R103): before the first element of a fresh issue with pops these are undone and nothing is
recorded (log entry 28); else the instruction is cut at the element. -/
def vElementFault (s : State) (c : VCmd) (e : Exc) (el : Nat) : State :=
  let s1 := if el == 0 && !c.resumed && c.pops != 0 then
      (tokRelease s 1 c.push).updGrp (fun g => { g.updToks (popSet 1 c.pops) (fun t => min 63 (t + 1)) with vcmd := none })
    else cutVector s
  raise { s1 with iw := c.word } 1 e (some el)

/-- An element of a gather, scatter or look-up in execution (R188). -/
def execVectorElement (h : BitVec 64) (s : State) : Out :=
  let s := s.focus h
  match s.grp.vcmd with
  | none => .next s
  | some c =>
    if !(s.focused h && goesOn s 1) || c.kind == .quant then .next s
    else
      match vElement (retireDue s) c with
      | .fault e s1 => .next (vElementFault s1 c e c.elem)
      | .wait s1 => .next (vWait s1)
      | .ok _ s1 =>
        let s2 := clearRemote s1 1
        .next (vTick (if c.elem + 1 ≥ 128 then endVCmd s2 c.push
          else s2.updGrp (fun g => { g with vcmd := some { c with elem := c.elem + 1 } })))

-- Events of loads and results ----------------------------------------------------------------------------------------

/-- A result whose write cycle has come is written (R158). -/
def execVectorResultWrite (h : BitVec 64) (s : State) : Out :=
  let s := s.focus h
  if s.focused h && (s.grp.st == .running || s.grp.st == .retiring || s.grp.st == .stopping) then .next (retireDue s) else .next s

/-- A latch injected by `rett` whose cycle has come is written (R65). -/
def execLatchWrite (h : BitVec 64) (s : State) : Out := execVectorResultWrite h s

/-- R185: the checks of an undecided `vld` are decided: its data is written and it completes, or its fault is delivered; a save in
progress takes that fault in its turn. -/
def execVldChecksDecided (h : BitVec 64) (s : State) : Out :=
  let s := s.focus h
  match s.grp.vld with
  | none => .next s
  | some o =>
    if !s.focused h then .next s
    else
      match decideVld s with
      | .ok none s1 => .next (retireIfEnded s1)
      | .ok (some f) s1 =>
        if s1.grp.saving then .next s
        else .next (deliverWith (tokRelease s1 1 o.push) f (some o))
      | .fault _ s1 => .next s1
      | .wait s1 => .next s1

/-- R185: the replay of a failed `vld` takes one issue cycle once its pushes have room. -/
def execVldReplay (h : BitVec 64) (s : State) : Out :=
  let s := s.focus h
  match s.grp.vreplay with
  | none => .next s
  | some o =>
    if !(s.focused h && s.grp.st == .running) || held s s.grp || coreMoving s s.grp || s.grp.vld.isSome then .next s
    else
      let s := retireDue s
      if pushRoom s.grp (pushSet 1 o.push) 1 then
        .next (vTick ((tokIssue s 1 0 o.push).updGrp (fun g => { g with vld := some o, vreplay := none })))
      else .next (vTick s)

-- Full-empty forms ---------------------------------------------------------------------------------------------------

/-- R197: the local address. -/
def feAddr (g : Group) (a : BitVec 5) (o : BitVec 7) : Nat := (((g.lane a.toNat 0).toNat : Int) + 512 * o.toInt) % 2 ^ 32 |>.toNat

/-- The granules that have an active lane. -/
def feGranules (m : BitVec 128) : List Nat := (List.range 32).filter (fun j => fieldOf (m >>> (4 * j)) 3 0 != 0)

/-- R197: the checks of a full-empty vector form: ALIGN, ACCESS_FAULT, BANK_MODE; it waits for a bank that converts. With no
active lane a scratch form makes none. -/
def feCheck (s : State) (off : Nat) (m : BitVec 128) : Acc Unit :=
  if off < fifoBase && m == 0 then .ok () s
  else
    (Acc.guard (off % 16 != 0) (exc cALIGN off) s).bind (fun _ s =>
      if off < fifoBase then scrCheck s off 512 else fifoCheck s ((off - fifoBase) / bankBytes) off)

/-- `n` granules popped from a FIFO. -/
def Fifo.popN : Nat → Fifo → List (BitVec 128) × Fifo
  | 0, f => ([], f)
  | n + 1, f =>
    let r := Fifo.popN n f.pop
    (f.top :: r.1, r.2)

/-- `vldfe` (R197). -/
def execVldfe (p q : BitVec 3) (d a : BitVec 5) (k : BitVec 3) (o : BitVec 7) (s : State) : Out :=
  vDo s p q [d.toNat, a.toNat] true (fun s =>
    let off := feAddr s.grp a o
    let m := s.grp.k k.toNat
    (feCheck s off m).bind (fun _ s =>
      if off < fifoBase then
        let gs := (feGranules m).map (fun j => off / 16 + j)
        if !gs.all (fun j => s.grp.isFull j) then .wait s
        else
          match gs.find? (fun j => s.grp.badScr.contains j) with
          | some j => .fault (exc cMEMUNC (16 * j) 1) s
          | none =>
            let v := if m == 0 then 0 else s.grp.scr off 512
            .ok () ((s.updGrp (fun g => gs.foldl Group.drain
              (g.setV d.toNat m 0 (tab 128 (fun i => BitVec.ofNat 32 (v / 2 ^ (32 * i))))))).advance 1)
      else
        let f := (off - fifoBase) / bankBytes
        if (s.grp.fifo f).count < 32 then .wait s
        else if (s.grp.fifo f).badTop 32 then .fault (exc cMEMUNC off 1) s
        else
          let r := Fifo.popN 32 (s.grp.fifo f)
          .ok () (((s.updFifo f (fun _ => r.2)).updGrp (fun g =>
            g.setV d.toNat m 0 (tab 128 (fun i => ((r.1.getD (i / 4) 0) >>> (32 * (i % 4))).setWidth 32)))).advance 1)))

/-- `vstfe` (R197). -/
def execVstfe (p q : BitVec 3) (d a : BitVec 5) (k : BitVec 3) (o : BitVec 7) (s : State) : Out :=
  vDo s p q [d.toNat, a.toNat] true (fun s =>
    let off := feAddr s.grp a o
    let m := s.grp.k k.toNat
    let x := s.grp.v d.toNat
    (feCheck s off m).bind (fun _ s =>
      if off < fifoBase then
        let gs := (feGranules m).map (fun j => off / 16 + j)
        if gs.any (fun j => s.grp.isFull j) then .wait s
        else
          let s1 := (List.range 128).foldl (fun s i => if bitAt m i then s.setScr (off + 4 * i) 4 (x.getD i 0).toNat else s) s
          .ok () ((s1.updGrp (fun g => gs.foldl Group.fill g)).advance 1)
      else
        let f := (off - fifoBase) / bankBytes
        if (s.grp.fifo f).count > 8160 then .wait s
        else
          let gran (j : Nat) : BitVec 128 :=
            BitVec.ofNat 128 (packNat 32 ((List.range 4).map (fun i => if bitAt m (4 * j + i) then (x.getD (4 * j + i) 0).toNat else 0)))
          .ok () ((s.updFifo f (fun z => (List.range 32).foldl (fun z j => z.push (gran j)) z)).advance 1)))

-- `vrescale` ---------------------------------------------------------------------------------------------------------

/-- R35: the rescaled value of an accumulator value by a table entry. -/
def rescale (za : W32) (entry : Nat) (acc : W32) : W32 :=
  let fld (i : Nat) : W32 := BitVec.ofNat 32 (entry / 2 ^ (32 * i))
  fp32Add (fp32Mul (fld 0) (fp32Sub acc (fp32Mul za (fld 2)))) (fld 1)

/-- `vrescale` (R181). -/
def execVrescale (p q : BitVec 3) (d a : BitVec 5) (k : BitVec 3) (t : BitVec 5) (s : State) : Out :=
  vHeld s p q [d.toNat, a.toNat, t.toNat]
    (fun g => { addr := (g.lane t.toNat 0).setWidth 64, zero := fp32 ((g.lane t.toNat 1).setWidth 16).toInt 0, mask := g.k k.toNat,
                vals := g.v a.toNat })
    (fun x s => (scrRead s x.addr.toNat 2048 16).bind (fun v s =>
      .ok () ((s.updGrp (fun g => g.setV d.toNat x.mask 0 (tab 128 (fun i =>
        if bitAt x.mask i then rescale x.zero (v / 2 ^ (128 * i) % 2 ^ 128) (x.vals.getD i 0) else 0)))).advance 1)))

-- Accumulator drains -------------------------------------------------------------------------------------------------

/-- The cell number of (row, column) of a physical accumulator bank. -/
def cellOf (phys row col : Nat) : Nat := phys * 8192 + row * 64 + col

/-- A cell of the accumulator memory of a core; an unlisted cell is +0.0. -/
def cellGet (s : State) (core cell : Nat) : W32 := getA (s.core core).acc cell 0

/-- A cell written; +0.0 is kept unlisted. -/
def cellSet (s : State) (core cell : Nat) (v : W32) : State :=
  s.updCore core (fun c => { c with
    acc := if v == 0 then delA c.acc cell else setA c.acc cell v, badAcc := c.badAcc.filter (fun x => x != cell) })

/-- The accumulator map entry of a logical bank. -/
def Group.amapAt (g : Group) (b : Nat) : Option AEntry := (g.amap.getD b none)

/-- ACCUNALLOC of `sstat` set (R199). -/
def setUnalloc (s : State) : State := s.updGrp (fun g => { g with sstat := g.sstat ||| 1 })

/-- R203: row and column of lane `i` in a column or a row form. -/
def vaccCell (row : Bool) (x i : Nat) : Nat × Nat :=
  if row then (if i < 64 then (x, i) else (x + 1, i - 64)) else (i, x)

/-- R199, R203: the checks of a drain on the active lanes; `none` for a read of an unallocated bank. DESIGN CHOICE: with no active lane nothing is
checked, whatever *x* and the bank, and ACCUNALLOC is not set (log entry 167). -/
def vaccCheck (s : State) (row write : Bool) (b x : Nat) (m : BitVec 128) : Acc (Option Nat) :=
  let first := lowest 128 (bitAt m)
  if m == 0 then .ok none s
  else
    match s.grp.amapAt b with
    | none =>
      if write then .fault (exc cACCUN (256 * b + (vaccCell row x first).1)) s
      else if (row && x > 126) || (!row && x > 63) then .fault (exc cACCBAND (256 * b + if row then x else first)) s
      else .ok none (setUnalloc s)
    | some e =>
      if (row && x > 126) || (!row && x > 63) then .fault (exc cACCBAND (256 * b + if row then x else first)) s
      else
        let badRows := ((List.range 128).filter (fun i => bitAt m i && !bitAt e.band ((vaccCell row x i).1 / 32))).map (fun i => (vaccCell row x i).1)
        match badRows with
        | r :: rs => .fault (exc cACCBAND (256 * b + rs.foldl min r)) s
        | [] => .ok (some e.phys) s

/-- R203: a drain that writes or reads cells: `f` gives the new lane value and the new cell value from the cell and the lane. -/
def vAcc (s : State) (row write reads : Bool) (p q : BitVec 3) (d a : BitVec 5) (k : BitVec 3) (f : W32 → W32 → W32 × Option W32) : Out :=
  vDo s p q [d.toNat, a.toNat] false (fun s =>
    let w := (s.grp.lane a.toNat 0).toNat
    let b := w % 16
    let x := w / 16 % 128
    let m := s.grp.k k.toNat
    (vaccCheck s row write b x m).bind (fun phys s =>
      let c := s.grp.core
      let cell (i : Nat) : Nat := cellOf (phys.getD 0) (vaccCell row x i).1 (vaccCell row x i).2
      match (if !reads then none else (List.range 128).find? (fun i => bitAt m i && phys.isSome && (s.core c).badAcc.contains (cell i))) with
      | some i => .fault (exc cMEMUNC (256 * b + (vaccCell row x i).1) 1) s
      | none =>
        let old := s.grp.v d.toNat
        let r := (List.range 128).foldl (fun (acc : List W32 × State) i =>
          if bitAt m i then
            match phys with
            | none => (acc.1 ++ [0], acc.2)
            | some _ =>
              let z := f (cellGet acc.2 c (cell i)) (old.getD i 0)
              (acc.1 ++ [z.1], match z.2 with
                | some v => cellSet acc.2 c (cell i) v
                | none => acc.2)
          else (acc.1 ++ [0], acc.2)) (([] : List W32), s)
        .ok () ((if write then r.2 else r.2.updGrp (fun g => g.setV d.toNat m 0 r.1)).advance 1)))

/-- `vacc.col` (R203). -/
def execVaccCol (p q : BitVec 3) (d a : BitVec 5) (k : BitVec 3) (s : State) : Out :=
  vAcc s false false true p q d a k (fun cell _ => (cell, none))
/-- `vacc.colz` (R203). -/
def execVaccColz (p q : BitVec 3) (d a : BitVec 5) (k : BitVec 3) (s : State) : Out :=
  vAcc s false false true p q d a k (fun cell _ => (cell, some 0))
/-- `vacc.row` (R203). -/
def execVaccRow (p q : BitVec 3) (d a : BitVec 5) (k : BitVec 3) (s : State) : Out :=
  vAcc s true false true p q d a k (fun cell _ => (cell, none))
/-- `vacc.rowz` (R203). -/
def execVaccRowz (p q : BitVec 3) (d a : BitVec 5) (k : BitVec 3) (s : State) : Out :=
  vAcc s true false true p q d a k (fun cell _ => (cell, some 0))
/-- `vacc.wcol` (R203). -/
def execVaccWcol (p q : BitVec 3) (d a : BitVec 5) (k : BitVec 3) (s : State) : Out :=
  vAcc s false true false p q d a k (fun _ x => (0, some x))
/-- `vacc.acol` (R203). -/
def execVaccAcol (p q : BitVec 3) (d a : BitVec 5) (k : BitVec 3) (s : State) : Out :=
  vAcc s false true true p q d a k (fun cell x => (0, some (fp32Add cell x)))

end Sys2Proof.Machine
end

