-- ==== Sys2Proof/Machine/Tile.lean ====
section
/-! DEFINITION. What a tile command reads and computes (chapters 2 and 12): the format word, descriptors, segments and
windows (R29, R235), slices and alignment (R26, R27), the window sum and its rescale (R30 to R32), and the frame fields of
the preamble (R213). -/

namespace Sys2Proof.Machine

-- The format word (Table 12-2) ---------------------------------------------------------------------------------------

/-- AFMT. -/
def fwA (w : W64) : Nat := fieldOf w 63 60
/-- BFMT. -/
def fwB (w : W64) : Nat := fieldOf w 59 56
/-- *L*. -/
def fwL (w : W64) : Nat := 4 * 2 ^ fieldOf w 54 52
/-- *T*. -/
def fwT (w : W64) : Nat := fieldOf w 51 46 + 1
/-- RSH. -/
def fwRsh (w : W64) : Nat := fieldOf w 45 42
/-- ROWLIM. -/
def fwRowlim (w : W64) : Nat := fieldOf w 41 34
/-- STR. -/
def fwStr (w : W64) : Nat := fieldOf w 33 31
/-- ROLE. -/
def fwRole (w : W64) : Nat := fieldOf w 30 29
/-- AHDR. -/
def fwAhdr (w : W64) : Bool := bitAt w 26
/-- ABM. -/
def fwAbm (w : W64) : Bool := bitAt w 25
/-- BHDR. -/
def fwBhdr (w : W64) : Bool := bitAt w 24
/-- BBM. -/
def fwBbm (w : W64) : Bool := bitAt w 23
/-- SPN. -/
def fwSpn (w : W64) : Nat := fieldOf w 22 20

/-- Width in bits of an element format (Table 12-3). -/
def fmtWidth (f : Nat) : Nat := if f < 2 then 4 else if f < 6 then 8 else 16
/-- Whether an element format is a block format (Table 12-3). -/
def fmtBlock (f : Nat) : Bool := f < 2
/-- *K*_el (R232). -/
def kEl (w : W64) : Nat := 2048 / max (fmtWidth (fwA w)) (fmtWidth (fwB w))
/-- Number of groups of 16 elements of a row. -/
def kGroups (w : W64) : Nat := kEl w / 16

/-- R28: the passes as pairs of an activation and a weight slice. -/
def passes (w : W64) : List (Nat × Nat) :=
  match fmtBlock (fwA w), fmtBlock (fwB w) with
  | true, true => [(0, 0)]
  | true, false => [(0, 0), (0, 1)]
  | false, true => [(0, 0), (1, 0)]
  | false, false => if bitAt w 55 then [(0, 0), (0, 1), (1, 0)] else [(0, 0), (0, 1), (1, 0), (1, 1)]

/-- Table 2-2: the slice shift of slice `i` of a format. -/
def sliceShift (f i : Nat) : Nat := if f == 0 then 1 else if f == 1 then 0 else if i == 0 then 4 else 8

/-- *N* of an NF field. -/
def tileN (nf : Nat) : Nat := 16 * (nf + 1)

-- Descriptors (Table 12-4) -------------------------------------------------------------------------------------------

/-- BASE. -/
def dBaseN (d : BitVec 128) : Nat := fieldOf d 31 0
/-- STRIDE, in bytes. -/
def dStride (d : BitVec 128) : Nat := 16 * fieldOf d 47 32
/-- MSTR, in bytes. -/
def dMstr (d : BitVec 128) : Nat := 16 * fieldOf d 63 48
/-- META. -/
def dMeta (d : BitVec 128) : Nat := fieldOf d 95 64
/-- Scratch offset of the boundary bitmap. -/
def dBitmap (d : BitVec 128) : Nat := dMeta d + 16 * fieldOf d 103 96
/-- Scratch offset of the mask bytes of record `j`. -/
def dMasks (d : BitVec 128) (j : Nat) : Nat := dMeta d + dMstr d * j + 16 * fieldOf d 111 104

-- Segments and windows -----------------------------------------------------------------------------------------------

/-- R20: the block starts that a bitmap at an offset gives for the groups of a row; group 0 always starts one. A row of a
tile command has at most 32 groups, so no block reaches 64. -/
def bitmapAt (g : Group) (off n : Nat) : Nat := (g.scr off ((n + 7) / 8) ||| 1) % 2 ^ n

/-- The activation block starts of the group's own operand (R213 ABND, R229). -/
def ownAbnd (g : Group) (w : W64) (da : BitVec 128) : Nat :=
  if fmtBlock (fwA w) && fwAbm w then bitmapAt g (dBitmap da) (kGroups w) else 1

/-- The weight block starts (R229). -/
def ownBbnd (g : Group) (w : W64) (db : BitVec 128) : Nat :=
  if fmtBlock (fwB w) && fwBbm w then bitmapAt g (dBitmap db) (kGroups w) else 1

/-- The positions below `n` of the set bits of a number. -/
def setBits (n bits : Nat) : List Nat := (List.range n).filter (fun i => bits.testBit i)

/-- R29: segments cut at the block starts, each split into windows of up to `lt` elements: first element and length. -/
def windowsOf (k cuts lt : Nat) : List (Nat × Nat) :=
  let ss := (setBits (k / 16) cuts).map (fun i => 16 * i)
  (ss.zip (ss.drop 1 ++ [k])).flatMap (fun ab =>
    (List.range ((ab.2 - ab.1 + lt - 1) / lt)).map (fun i => (ab.1 + i * lt, min lt (ab.2 - ab.1 - i * lt))))

/-- R235: the windows of a format word under the activation and the weight boundaries. -/
def tileWindows (w : W64) (bbnd abnd : Nat) : List (Nat × Nat) := windowsOf (kEl w) (abnd ||| bbnd) (fwL w * fwT w)

/-- R235: *E*, the number of elements of a command. -/
def tileCount (w : W64) (nf bbnd abnd : Nat) : Nat := (tileWindows w bbnd abnd).length * (passes w).length * tileN nf

/-- R235, R242: the number of active rows of this core: local rows 0 and up. -/
def activeRows (w : W64) (mf half : Nat) : Nat :=
  let rows := if mf == 0 then 64 else 128
  if fwRowlim w == 0 then rows else min rows (fwRowlim w - (if mf == 2 then 128 * half else 0))

/-- One bit of a CRC-16 with polynomial 0x1021. -/
def crc16Step (c : Nat) : Nat := if c ≥ 0x8000 then (c * 2 % 0x10000) ^^^ 0x1021 else c * 2
/-- One byte of a CRC-16. -/
def crc16Byte (c b : Nat) : Nat :=
  crc16Step (crc16Step (crc16Step (crc16Step (crc16Step (crc16Step (crc16Step (crc16Step (c ^^^ (b * 256)))))))))
/-- R213: SEGH. -/
def segh (ws : List (Nat × Nat)) : Nat :=
  ws.foldl (fun c w => crc16Byte (crc16Byte c (w.2 % 256)) (w.2 / 256)) 0xFFFF

-- Elements -----------------------------------------------------------------------------------------------------------

/-- The code of element `i` of a packed row (R17). -/
def codeAt (g : Group) (base width i : Nat) : Nat :=
  g.scr (base + i * width / 8) ((width + 7) / 8) / 2 ^ (i * width % 8) % 2 ^ width

/-- The codes of elements `start` to `start + len - 1` of a dense row; `start` is a multiple of 4. -/
def denseCodes (g : Group) (base width start len : Nat) : List Nat :=
  let v := g.scr (base + start * width / 8) ((len * width + 7) / 8)
  (List.range len).map (fun i => v / 2 ^ (i * width) % 2 ^ width)

/-- Number of set bits of a byte below bit `n`. -/
def popBelow (b n : Nat) : Nat := ((List.range n).filter (fun i => b.testBit i)).length

/-- R36: the codes of a weight row, expanded where the operand is sparse. -/
def weightCodes (g : Group) (w : W64) (d : BitVec 128) (j start len : Nat) : List Nat :=
  let width := fmtWidth (fwB w)
  let base := dBaseN d + dStride d * j
  if fwSpn w == 0 then denseCodes g base width start len
  else
    (List.range len).map (fun i =>
      let e := start + i
      let mb := g.scr (dMasks d j + e / 8) 1
      if mb.testBit (e % 8) then codeAt g base width (e / 8 * fwSpn w + popBelow mb (e % 8)) else 0)

/-- The 16-bit header of block `b` of record `j`; SCALE 127 and no special value where headers are absent (R229). -/
def headerOf (g : Group) (d : BitVec 128) (present : Bool) (j b : Nat) : Nat :=
  if present then g.scr (dMeta d + dMstr d * j + 2 * b) 2 else 127 * 256

/-- The number of the block that holds an element, by the block starts. -/
def blockOf (starts el : Nat) : Nat := (setBits (el / 16 + 1) starts).length - 1

/-- R21: an E2M1 code in halves of the block scale. -/
def e2m1Halves (hdr code : Nat) : Int :=
  if code == 8 then
    let m : Int := hdr / 8 % 16
    if hdr / 128 % 2 == 1 then -m else m
  else
    let m : Int := [0, 1, 2, 3, 4, 6, 8, 12].getD (code % 8) 0
    if code ≥ 8 then -m else m

/-- A signed slice of an 8-bit magnitude (R26): slice 0 is its bits 7:4 and up, slice 1 its bits 3:0. -/
def sliceOf (neg : Bool) (m i : Nat) : Int :=
  let q : Int := if i == 0 then m / 16 else m % 16
  if neg then -q else q

/-- The exponent floor(log2 |x|) of a nonzero finite value (R27). -/
def fpExp : Fp → Option Int
  | .fin _ m e => if m == 0 then none else some ((m.log2 : Int) + e)
  | _ => none

/-- R27: the aligned magnitude. -/
def alignMag (emax : Int) : Fp → Nat
  | .fin _ m e => min 255 (rneInt m (e + 7 - emax)).toNat
  | _ => 0

/-- Whether a value is negative. -/
def fpSign : Fp → Bool
  | .fin s _ _ => s
  | .inf s => s
  | .nan => false

/-- Whether a value is not finite. -/
def fpSpecial : Fp → Bool
  | .fin _ _ _ => false
  | _ => true

/-- The floating format of a format code 2, 3 or 6. -/
def fmtOfCode (f : Nat) : Fmt := if f == 2 then fmtE4m3 else if f == 3 then fmtE5m2 else fmtBf16

/-- R26, R27: block exponent and symbol integers of slice `i` of a window's elements; none where R23 or R27 makes the
window NaN. -/
def sideOf (f hdr i : Nat) (codes : List Nat) : Option (Int × List Int) :=
  if f < 2 then
    if hdr / 256 == 0xFF then none
    else some ((hdr / 256 : Int) - 127, codes.map (fun c => if f == 0 then e2m1Halves hdr c else toS 4 c))
  else if f == 4 then some (8, codes.map (fun c => sliceOf (c ≥ 128) (toS 8 c).natAbs i))
  else if f == 5 then some (8, codes.map (fun c => sliceOf false c i))
  else
    let xs := codes.map (fun c => fpDecode (fmtOfCode f) c)
    if xs.any fpSpecial then none
    else
      let emax := (xs.foldl (fun acc x => maxOpt acc (fpExp x)) none).getD (-1)
      some (emax + 1, xs.map (fun x => sliceOf (fpSign x) (alignMag emax x) i))

/-- R30: the architectural sum. -/
def windowSum (a b : List Int) : Int := (a.zip b).foldl (fun acc p => acc + p.1 * p.2) 0

/-- What one row gets from a window: its value and whether it saturated (R30 to R32; a NaN sets no flag, R23). -/
def rowValue (w : W64) (sp : Nat) (a b : Option (Int × List Int)) (up : Bool) : W32 × Bool :=
  match a, b with
  | some x, some y =>
    let r := deliverCode (windowSum x.2 y.2) (fwRsh w) up
    (codeValue r.1 ((fwRsh w : Int) + x.1 + y.1 - sp), r.2)
  | _, _ => (nan32, false)

-- Elements of a command ----------------------------------------------------------------------------------------------

/-- Window, pass and column of element `e` (R235). -/
def elemAt (c : TileCmd) : Nat × Nat × Nat :=
  let n := tileN c.nf
  let p := (passes c.fw).length
  (c.elem / (p * n), c.elem / n % p, c.elem % n)

/-- The windows of a started command, by the boundaries that it has read (R235, R243). -/
def TileCmd.windows (c : TileCmd) : List (Nat × Nat) := tileWindows c.fw c.bbnd c.abnd

/-- The number of elements of a started command. -/
def TileCmd.count (c : TileCmd) : Nat := tileCount c.fw c.nf c.bbnd c.abnd

/-- A window: first position and length. -/
def windowAt (c : TileCmd) (w : Nat) : Nat × Nat := c.windows.getD w (0, 0)

/-- Whether the headers and weights of the window of the next element have been read (R238). -/
def TileCmd.staged (c : TileCmd) : Bool := c.stWin == some (elemAt c).1

/-- R238, R243: what a member reads for the window of its next element, where it has not yet: the activation headers of every column, and
header and codes of the active weight rows. -/
def stageWindow (g : Group) (c : TileCmd) (sends listens : Bool) : TileCmd :=
  if c.staged then c
  else
    let w := (elemAt c).1
    let win := windowAt c w
    { c with
      stWin := some w,
      stHdr := if sends then (List.range (tileN c.nf)).map (fun n => headerOf g c.da (fwAhdr c.fw) n (blockOf c.abnd win.1)) else [],
      stRows := if listens then (List.range (activeRows c.fw c.mf g.half)).map (fun j =>
        (headerOf g c.db (fwBhdr c.fw) j (blockOf c.bbnd win.1), weightCodes g c.fw c.db j win.1 win.2)) else [] }

/-- The activation side of an element, from the sender's own scratch (R26, R27, R232). -/
def activation (g : Group) (c : TileCmd) : Option (Int × List Int) :=
  let e := elemAt c
  let win := windowAt c e.1
  let f := fwA c.fw
  let codes := denseCodes g (dBaseN c.da + dStride c.da * e.2.2) (fmtWidth f) win.1 win.2
  sideOf f (c.stHdr.getD e.2.2 0) ((passes c.fw).getD e.2.1 (0, 0)).1 codes

/-- The weight side of an element for row `j` (R26, R27, R232), as it was staged. -/
def weights (c : TileCmd) (j : Nat) : Option (Int × List Int) :=
  let x := c.stRows.getD j (0, [])
  sideOf (fwB c.fw) x.1 ((passes c.fw).getD (elemAt c).2.1 (0, 0)).2 x.2

/-- R32, R33: the values that an element gives the active rows of a listening member, in row order, and whether each
saturated. Each row's choice under R31 is a free value of its own number from `fresh` on. -/
def elementRows (g : Group) (c : TileCmd) (fresh : Nat) (act : Option (Int × List Int)) : List (W32 × Bool) :=
  let ps := (passes c.fw).getD (elemAt c).2.1 (0, 0)
  let sp := sliceShift (fwA c.fw) ps.1 + sliceShift (fwB c.fw) ps.2
  (List.range (activeRows c.fw c.mf g.half)).map (fun j => rowValue c.fw sp act (weights c j) (Config.tieUp (fresh + j)))

/-- Table 12-5: bank and row, and column, that local row `r` and column `n` of the command address. -/
def accCell (dc : BitVec 128) (r n : Nat) : Nat × Nat × Nat :=
  (fieldOf dc 3 0 + (fieldOf dc 9 4 + n) / 64, fieldOf dc 16 10 + r, (fieldOf dc 9 4 + n) % 64)

-- Reads of a window (R238, R243) -------------------------------------------------------------------------------------

/-- Whether an operand's block is checked at a window: it is first used there, or the frame starts or resumes there. -/
def headerDue (starts start : Nat) (entry : Bool) : Bool := entry || (start % 16 == 0 && starts.testBit (start / 16))

/-- The bytes, as (offset, size), that `n` units of `bits` bits from unit `i` of a packed row at an offset take up. -/
def packedSpan (base bits i n : Nat) : Nat × Nat := (base + i * bits / 8, ((i + n) * bits + 7) / 8 - i * bits / 8)

/-- The sparse groups that a window's elements lie in: first and number (R36). -/
def sparseGroups (win : Nat × Nat) : Nat × Nat := (win.1 / 8, (win.1 + win.2 + 7) / 8 - win.1 / 8)

/-- The local weight rows that a listening member reads. -/
def weightRowsOf (g : Group) (c : TileCmd) (listens : Bool) : List Nat := if listens then List.range (activeRows c.fw c.mf g.half) else []

/-- The headers that a member reads at the first element of a window (R238, R243). -/
def headerReads (g : Group) (c : TileCmd) (sends listens : Bool) : List (Nat × Nat) :=
  let win := windowAt c (elemAt c).1
  (if sends && fwAhdr c.fw then (List.range (tileN c.nf)).map (fun n => (dMeta c.da + dMstr c.da * n + 2 * blockOf c.abnd win.1, 2)) else []) ++
  if fwBhdr c.fw then (weightRowsOf g c listens).map (fun j => (dMeta c.db + dMstr c.db * j + 2 * blockOf c.bbnd win.1, 2)) else []

/-- The sparsity mask bytes that a member reads at the first element of a window. -/
def maskReads (g : Group) (c : TileCmd) (listens : Bool) : List (Nat × Nat) :=
  let gs := sparseGroups (windowAt c (elemAt c).1)
  if fwSpn c.fw == 0 then [] else (weightRowsOf g c listens).map (fun j => (dMasks c.db j + gs.1, gs.2))

/-- The weight data that a member reads at the first element of a window (R232). -/
def weightReads (g : Group) (c : TileCmd) (listens : Bool) : List (Nat × Nat) :=
  let win := windowAt c (elemAt c).1
  let gs := sparseGroups win
  let wb := fmtWidth (fwB c.fw)
  (weightRowsOf g c listens).map (fun j =>
    let base := dBaseN c.db + dStride c.db * j
    if fwSpn c.fw == 0 then packedSpan base wb win.1 win.2 else packedSpan base (fwSpn c.fw * wb) gs.1 gs.2)

/-- The activation data that a member reads in each element that sends it (R243). -/
def activationReads (c : TileCmd) (sends : Bool) : List (Nat × Nat) :=
  let e := elemAt c
  let win := windowAt c e.1
  if sends then [packedSpan (dBaseN c.da + dStride c.da * e.2.2) (fmtWidth (fwA c.fw)) win.1 win.2] else []

/-- R22: the first header, of the activations and then of the weights, whose TAG is wrong: its offset and the tag that was
expected. DESIGN CHOICE: where several are wrong, that of the lowest column, or row, is named (log entry 146). -/
def skewAt (g : Group) (c : TileCmd) (sends listens : Bool) (entry : Bool) : Option (Nat × Nat) :=
  let win := windowAt c (elemAt c).1
  let check (d : BitVec 128) (starts count : Nat) : Option (Nat × Nat) :=
    let b := blockOf starts win.1
    if !headerDue starts win.1 entry then none
    else ((List.range count).find? (fun j => headerOf g d true j b % 8 != b % 8)).map (fun j => (dMeta d + dMstr d * j + 2 * b, b % 8))
  match (if sends && fwAhdr c.fw then check c.da c.abnd (tileN c.nf) else none) with
  | some x => some x
  | none => if listens && fwBhdr c.fw then check c.db c.bbnd (activeRows c.fw c.mf g.half) else none

/-- R36: the first mask byte of the window whose count of set bits is wrong: its offset. DESIGN CHOICE: where several are wrong, the lowest row's
is named, and in it the lowest (log entry 157). -/
def maskBad (g : Group) (c : TileCmd) : Option Nat :=
  let win := windowAt c (elemAt c).1
  if fwSpn c.fw == 0 then none
  else
    ((List.range (activeRows c.fw c.mf g.half)).flatMap (fun j =>
      (List.range ((win.1 + win.2 + 7) / 8 - win.1 / 8)).map (fun i => dMasks c.db j + win.1 / 8 + i))).find? (fun o =>
        popBelow (g.scr o 1) 8 != fwSpn c.fw)

end Sys2Proof.Machine
end

