-- ==== Sys2Proof/Machine/Session.lean ====
section
/-! DEFINITION. Strings and sessions (chapter 11): channel maps (R204), admission of joins and calibrations (R211), members
and talkers (R210), leaving a session (Table 11-2, R223), calibration (R221) and the notices between modules (R205). -/

namespace Sys2Proof.Machine

/-- `f` applied with the group of handle `h` in focus, and the focus returned. -/
def onGroup (s : State) (h : W64) (f : State → State) : State :=
  if (s.groupOf h).isNone then s else (f (s.focus h)).focus s.grp.handle

-- Channels (R204) ----------------------------------------------------------------------------------------------------

/-- The lowest working unused spare. -/
def Str.spare (t : Str) : Option Nat := [64, 65, 66, 67].find? (fun p => !t.chmap.contains p && !bitAt t.failed p)

/-- Whether a program channel is on a working channel. -/
def Str.works (t : Str) (l : Nat) : Bool := !bitAt t.failed (t.chmap.getD l 0)

/-- A failed program channel moved onto a spare, where there is one. -/
def Str.move (t : Str) (l : Nat) : Str :=
  if t.works l then t
  else
    match t.spare with
    | some p => { t with chmap := updAt t.chmap l (fun _ => p) }
    | none => t

/-- Every failed program channel moved, in ascending λ. -/
def Str.remap (t : Str) : Str := (List.range 64).foldl Str.move t

/-- DEGRADED: a program channel is on a failed channel and no working spare is left for it. -/
def Str.degraded (t : Str) : Bool := (List.range 64).any (fun l => !t.remap.works l)

/-- The live width of a string. -/
def Str.liveWidth (t : Str) : Nat :=
  if !t.degraded then 64
  else ([32, 16, 8, 4].find? (fun w => (List.range w).all (fun l => t.remap.works l))).getD 0

/-- The program channels that another map has moved. -/
def movedChannels (a b : Str) : List Nat := (List.range 64).filter (fun l => a.chmap.getD l 0 != b.chmap.getD l 0)

/-- The trims and drive levels of some channels of a core unset, by 64 × string + program channel (R204, R221). -/
def Core.unsetTrims (which : Nat → Bool) (c : Core) : Core :=
  { c with
    trims := c.trims.filter (fun x => !which x.1), modTrims := c.modTrims.filter (fun x => !which x.1),
    drives := c.drives.filter (fun x => !which x.1) }

/-- A string's map renewed under a mask of failed channels; the trims of a moved channel are unset in every core. -/
def remapStr (s : State) (n : Nat) (failed : BitVec 68) : State :=
  let t := s.str n
  let t1 := { t with failed := failed }.remap
  let moved := movedChannels t t1
  let s1 := s.updStr n (fun _ => t1)
  if moved.isEmpty then s1
  else { s1 with cores := s1.cores.map (Core.unsetTrims (fun k => k / 64 == n && moved.contains (k % 64))) }

-- Members ------------------------------------------------------------------------------------------------------------

/-- The groups of this module that are members of the session on a string. -/
def membersOf (s : State) (n : Nat) : List Group := s.groups.filter (fun g => g.onStr n)

/-- The role of a group's membership. -/
def Group.role (g : Group) : Nat := (g.memb.map (fun m => m.role)).getD 4

/-- Whether a role sends activations. -/
def roleSends (r : Nat) : Bool := r == 0 || r == 2 || r == 3
/-- Whether a role listens. -/
def roleListens (r : Nat) : Bool := r == 1 || r == 2 || r == 3

/-- The talker of a string's session, where it is a group of this module. -/
def talkerOf (s : State) (n : Nat) : Option Group := (membersOf s n).find? (fun g => g.role == 0 || g.role == 3)

/-- Whether a string is fed by another module (R205). -/
def Str.isIn (t : Str) : Bool := t.mode == 2

/-- The string that lights a group: its session's, or for `local` that of its core (R210). -/
def Group.strNo (g : Group) : Nat :=
  match g.memb with
  | some m => if m.role == 2 then g.core % 8 else m.str
  | none => g.core % 8

/-- The member id of a group of this module. -/
def memberId (s : State) (g : Group) : Nat := 256 * s.modid + g.core

/-- A notice for another module added to a string with a fibre port in use (R205). -/
def addNote (s : State) (n : Nat) (k : SNote) : State := s.updStr n (fun t => if t.mode == 0 then t else { t with notes := t.notes ++ [k] })

/-- The module whose string lights fibre string `n` of module `m` (R205). -/
def feederOf (m n : Nat) : Nat := Config.feeder m (n - 6) % 64

/-- What an OUT string tells the modules that it feeds of a session, its talker, KEY and context, and of its comb (R205): SEQ in bits 15:0 of
the fields, a code in bits 18:16 (1 the session is there, 2 it has been SAVED, 4 a SAVED one is over, 0 the string has none), DIV, comb state
and failovers above (log entry 26). -/
def tell (s : State) (n code seq talker key c : Nat) : State :=
  let t := s.str n
  if t.mode != 1 then s
  else
    addNote s n { kind := 3, member := if talker / 256 == s.modid then talker else 256 * s.modid, key := key, ctx := c,
                  fields := BitVec.ofNat 64 (seq % 2 ^ 16 + code * 2 ^ 16 + t.div % 4 * 2 ^ 19 + t.combWord.toNat % 4 * 2 ^ 21 +
                    min 255 t.failovers * 2 ^ 23) }

/-- The state of an OUT string's session told to the modules that it feeds (R205). -/
def tellSession (s : State) (n seq : Nat) : State :=
  let t := s.str n
  tell s n (b2n (t.sess != .free)) seq t.talker t.key t.ctx

/-- The notice by which an IN string asks the feeding module for the state of its string (R205). -/
def askComb (modid : Nat) : SNote := { kind := 3, member := 256 * modid, key := 0, ctx := 0, fields := 0 }

-- Admission (R211) ---------------------------------------------------------------------------------------------------

/-- Whether a waiting entry can be admitted now. A listener of a string fed by another module is admitted by that module's arbiter (R205); a
string is granted once it is READY (R367). A join of a sending role waits while the session of its KEY and context is SAVED, whose string others
may hold (Table 11-2; DEDUCED, log entry 164). -/
def grantable (s : State) (n : Nat) (w : SWait) : Bool :=
  let t := s.str n
  let ofCtx (c : Nat) : Bool := (s.groupOf w.handle).any (fun g => g.ctxid == c)
  if strDown s n then false
  else if w.kind == 3 then t.sess == .opened && t.key == w.key && t.ctx == w.role
  else if w.kind == 0 && w.role == 1 then
    (if t.isIn then w.ok && t.sess != .free else t.sess == .opened) && t.key == w.key && ofCtx t.ctx
  else if w.kind == 0 && t.saved.any (fun p => p.key == w.key && ofCtx p.ctx) then false
  else t.sess == .free && t.cal.isNone && !(w.kind == 1 && t.comb == .dark)

/-- The membership that a group gets (R222). -/
def joined (g : Group) (n : Nat) (w : SWait) (seq : BitVec 16) : Group :=
  { g with memb := some { str := n, role := w.role, key := w.key, div := w.div, state := 2, parked := false }, seq := seq }

/-- The number of the next frame that a string's talker will start (R211): `seq` advances once more for a command whose frame has ended and
which completes at its re-issue (R213). -/
def nextSeqOf (s : State) (n : Nat) : BitVec 16 :=
  match talkerOf s n with
  | some g => if g.owed && g.prgm.getLsbD 63 then g.seq + 1 else g.seq
  | none => (s.str n).nextSeq

/-- Whether a group is a member of the SAVED session of a string, a KEY and a context (Table 11-2). -/
def Group.parkedIn (n key c : Nat) (g : Group) : Bool := g.ctxid == c && g.memb.any (fun m => m.parked && m.str == n && m.key == key)

/-- Whether a waiting entry is the next to be admitted: none that came earlier and would hold the string can be (R211). -/
def turnOf (s : State) (n : Nat) (w : SWait) : Bool :=
  grantable s n w && ((w.kind == 0 && w.role == 1) || w.kind == 3 ||
    !((s.str n).waiting.takeWhile (fun x => x != w)).any (grantable s n))

/-- An `mjoin` of the group in focus completes, as does an `mcal` without effect: tokens and the next word. -/
def endJoin (s : State) (w : SWait) : State := (tokBoth s 2 w.pops w.push).advance 2

/-- A string that has started anew or changed its mode: an OUT string tells the modules it feeds, and an IN string asks its feeding module (R205). -/
def tellComb (s : State) (n : Nat) : State :=
  if (s.str n).isIn then addNote s n (askComb s.modid) else tellSession s n (nextSeqOf s n).toNat

/-- A waiting entry admitted: a join makes the group a member and completes; a calibration issues and takes the string; a SAVED
session returns with its state before the save. -/
def grant (s : State) (n : Nat) (w : SWait) : State :=
  let s0 := s.updStr n (fun t => { t with waiting := t.waiting.erase w })
  match w.kind with
  | 0 =>
    onGroup s0 w.handle (fun s =>
      let seq : BitVec 16 := if w.role == 1 then nextSeqOf s n else 0
      let s1 := endJoin (s.updGrp (fun g => joined g n w seq)) w
      if w.role == 1 then s1
      else tellSession (s1.updStr n (fun t => { t with
        sess := .opened, talker := memberId s s.grp, key := w.key, ctx := s.grp.ctxid, div := w.div, members := [] })) n 0)
  | 1 =>
    ((onGroup s0 w.handle (fun s => tokIssue s 2 w.pops w.push)).updStr n (fun t => { t with cal := some w })).postE (.calibrationDone (BitVec.ofNat 3 n) (0, []))
  | 2 =>
    match (s0.str n).saved.find? (fun p => p.key == w.key && p.ctx == w.role && p.talker == w.div) with
    | none => s0
    | some p =>
      let s1 := (s0.updStr n (fun t => { t with
        sess := p.before, talker := p.talker, key := p.key, ctx := p.ctx, div := p.div, members := p.members,
        nextSeq := p.nextSeq, saved := t.saved.erase p })).updGroups (Group.parkedIn n p.key p.ctx)
        (fun g => { g with memb := g.memb.map (fun m => { m with parked := false }) })
      tellSession s1 n (nextSeqOf s1 n).toNat
  | _ =>
    addNote (s0.updStr n (fun t => { t with members := t.members ++ [{ id := w.div, handle := 0, role := 1, ready := false }] })) n
      { kind := 1, member := (s0.str n).talker, key := w.key, ctx := w.role,
        fields := BitVec.ofNat 64 (2 + (nextSeqOf s n).toNat * 2 ^ 16 + w.div * 2 ^ 40) }

/-- SAVED sessions and listeners of other modules that wait for a string are admitted in order of arrival (R211); a join or calibration of this
module is at its stream's next issue (R97, R100). -/
def letIn (s : State) (n : Nat) : State :=
  (s.str n).waiting.foldl (fun s w => if w.kind ≥ 2 && turnOf s n w then grant s n w else s) s

/-- A listener's join sent to the arbiter of the module that feeds its string (R205, R211). -/
def askJoin (s : State) (n : Nat) (g : Group) (key : Nat) : State :=
  addNote s n { kind := 1, member := memberId s g, key := key, ctx := g.ctxid, fields := 0 }

/-- A join or calibration arrives at a string's arbiter; a group that already waits keeps its place. -/
def arrive (s : State) (n : Nat) (w : SWait) : State :=
  let t := s.str n
  if t.waiting.any (fun x => x.handle == w.handle) || t.cal.any (fun x => x.handle == w.handle) then s
  else
    let s1 := s.updStr n (fun t => { t with waiting := t.waiting ++ [w] })
    if w.kind == 0 && w.role == 1 && t.isIn then askJoin s1 n s.grp w.key else s1

/-- R211: SAVED sessions and remote joins are admitted when their string is released. -/
def execJoinAdmitted (n : BitVec 3) (s : State) : Out := .next (letIn s n.toNat)

/-- The admission event of a string posted, where something waits. -/
def postAdmit (s : State) (n : Nat) : State :=
  if (s.str n).waiting.isEmpty then s else { s with agenda := .event (.joinAdmitted (BitVec.ofNat 3 n)) :: s.agenda }

-- Leaving ------------------------------------------------------------------------------------------------------------

/-- The tile command of the group in focus, whose word is given, stops with a fault before or at its element (R214, R215,
R239). A half that its partner's trap has just stopped is left to fault at its re-issue (R64, R96), but for a SAT_TRAP, whose element
stands (R240): it waits. -/
def tileFault (s : State) (word : W32) (e : Exc) (el : Option Nat) : State :=
  if s.grp.st != .running && !s.grp.mcmd.any (fun c => c.passed.isSome) then s
  else if !s.grp.pairHold then raise (cutTile { s with iw := word }) 2 e el
  else if e.code == cSAT then
    let f := faultOf { s with iw := word } 2 e el
    s.updGrp (fun g => pendTrap g { code := e.code, stream := 2, info := BitVec.ofNat 32 (el.getD 0), fault := some f, vld := none })
  else s

/-- A fault of a member's tile command: the group's handle, its word, the fault and the element that it names. -/
structure TileExc where
  h : W64
  word : W32
  e : Exc
  el : Option Nat
deriving DecidableEq, Repr

/-- Faults of members of one frame, each raised in its group; the first pauses the frame (Table 11-2). -/
def tileFaults (s : State) (xs : List TileExc) : State :=
  xs.foldl (fun s x => onGroup s x.h (fun s => tileFault s x.word x.e x.el)) s

/-- The faults that `f` finds in the commands of some groups. -/
def faultsIn (gs : List Group) (f : Group → TileCmd → Option (Exc × Option Nat)) : List TileExc :=
  gs.filterMap (fun g => g.mcmd.bind (fun c => (f g c).map (fun x => { h := g.handle, word := c.word, e := x.1, el := x.2 })))

/-- R215: the element that a session mismatch names: none before element 0. -/
def mismatchEl (e : Nat) : Option Nat := if e == 0 then none else some e

/-- A session's end at a string: no listener of an IN string is admitted to it any more. -/
def Str.closed (t : Str) : Str := { t with sess := .free, waiting := t.waiting.map (fun w => { w with ok := false }) }

/-- Table 11-2: the talker of a string has left: listeners are orphaned, held commands fault with reason 3, the string is
FREE. -/
def talkerLeft (s : State) (n : Nat) : State :=
  let bad := faultsIn ((membersOf s n).filter (fun g => !g.mcmd.any (fun c => c.inFrame))) (fun _ c => some (exc cSESSMM 3, mismatchEl c.elem))
  let s1 := (pauseStr s n).updGroups (fun g => g.onStr n) (fun g => { g with memb := g.memb.map (fun m => { m with state := 5 }) })
  let s2 := tellSession (s1.updStr n (fun t => { t.closed with members := [] })) n 0
  postAdmit (tileFaults s2 bad) n

/-- Table 11-2: the SAVED session of a string, a KEY and a context is over: its listeners are orphaned, and held commands fault with reason 3. -/
def strand (s : State) (n key c : Nat) : State :=
  let mine := Group.parkedIn n key c
  let bad := faultsIn (s.groups.filter mine) (fun _ c => some (exc cSESSMM 3, mismatchEl c.elem))
  tileFaults (s.updGroups mine (fun g => { g with memb := g.memb.map (fun x => { x with state := 5, parked := false }) })) bad

/-- Table 11-2: once every member of a SAVED session is placed again, the session asks its string's arbiter. -/
def readmit (s : State) (n key c : Nat) : State :=
  let ms := s.groups.filter (Group.parkedIn n key c)
  if ms.any (fun g => g.st == .saved) then s
  else
    match ms.find? (fun g => roleSends g.role) with
    | none => s
    | some t =>
      let id := memberId s t
      let s1 := s.updStr n (fun x => { x with saved := x.saved.map (fun k => if k.key == key && k.ctx == c then { k with talker := id } else k) })
      letIn (arrive s1 n { handle := t.handle, kind := 2, role := c, key := key, div := id, pops := 0, push := 0 }) n

/-- A remote listener of the group in focus leaves a session, or its SAVED one, at the feeding module (R205). -/
def tellLeave (s : State) (n : Nat) (g : Group) (key : Nat) : State :=
  if (s.str n).isIn then addNote s n { kind := 1, member := memberId s g, key := key, ctx := g.ctxid, fields := 1 } else s

/-- Table 11-2, R223: the group in focus leaves its membership; `seq` keeps its value. -/
def leaveSession (s : State) : State :=
  match s.grp.memb with
  | none => s
  | some m =>
    let s1 := s.updGrp (fun g => { g with memb := none })
    if m.role == 2 || m.state == 5 then s1
    else if m.parked then
      let c := s.grp.ctxid
      if m.role == 1 then readmit (tellLeave s1 m.str s.grp m.key) m.str m.key c
      else
        strand (tell (s1.updStr m.str (fun t => { t with
          saved := t.saved.filter (fun p => !(p.key == m.key && p.ctx == c)),
          waiting := t.waiting.filter (fun w => !(w.kind == 2 && w.key == m.key && w.role == c)) })) m.str 4 0 (memberId s s.grp) m.key c)
          m.str m.key c
    else if m.role == 1 then tellLeave s1 m.str s.grp m.key
    else talkerLeft s1 m.str

-- The instructions ---------------------------------------------------------------------------------------------------

/-- Whether an earlier tile command of the matrix stream has not completed. -/
def tileBusy (s : State) : Bool := s.grp.mcmd.isSome

/-- R236: whether a tile command has begun its last element: an attempt at it has been made, and it is run again. -/
def TileCmd.lastBegun (c : TileCmd) : Bool := c.inFrame && c.begun && c.elem + 1 ≥ c.count && c.attempt != 0

/-- Whether an earlier tile command keeps a matrix-stream instruction from issuing (R236). -/
def tileBars (s : State) : Bool := s.grp.mcmd.any (fun c => !c.lastBegun)

/-- A join or calibration of the group in focus waits, BLOCKED, or is admitted: a join completes, a calibration begins. -/
def waitAt (s : State) (n : Nat) (w : SWait) : Out :=
  let s1 := arrive s n w
  match (s1.str n).waiting.find? (fun x => x.handle == w.handle) with
  | some x => .next (if !turnOf s1 n x then s1.block 2 else if x.kind == 0 then grant s1 n x else (grant s1 n x).block 2)
  | none => .next (s1.block 2)

/-- A matrix-stream instruction that issues only after every earlier command of the stream has completed (R222 to R226). -/
def mAlone (s : State) (legal : Bool) (p q : BitVec 3) (body : State → Acc Unit) : Out :=
  if noGroup s then .fault .noGroup
  else if !legal then .next (illegal s 2)
  else if tileBusy s then .next (s.block 2)
  else tDo s 2 p q body

/-- `mjoin` (R210, R211, R222). -/
def execMjoin (p q st : BitVec 3) (r : BitVec 2) (k : BitVec 6) (v : BitVec 2) (s : State) : Out :=
  let role := r.toNat
  if noGroup s then .fault .noGroup
  else if (role == 2 && (st != 0 || k != 0)) || (role == 1 && v != 0) then .next (illegal s 2)
  else if tileBusy s then .next (s.block 2)
  else
    match tokCheck s 2 p q with
    | .fault e s1 => .next (raise s1 2 e none)
    | .wait s1 => .next (s1.block 2)
    | .ok _ s1 =>
      let g := s1.grp
      let n := if role == 2 then g.core % 8 else st.toNat
      let w : SWait := { handle := g.handle, kind := 0, role := role, key := k.toNat, div := v.toNat, pops := p, push := q }
      if g.memb.isSome then .next (raise s1 2 (exc cSESSMM 6) none)
      else if (roleSends role && !g.talk) || (roleListens role && !g.listen) then .next (raise s1 2 (exc cSESSMM 7) none)
      else if role != 1 && (s1.str n).isIn then .next (raise s1 2 (exc cSESSMM 8) none)
      else if role == 2 then .next (endJoin (s1.updGrp (fun g => joined g 0 w 0)) w)
      else waitAt s1 n w

/-- `mleave` (R223). -/
def execMleave (p q : BitVec 3) (s : State) : Out := mAlone s true p q (fun s => .ok () (leaveSession s))

/-- `mcal` (R221, R224). -/
def execMcal (p q st : BitVec 3) (r : BitVec 2) (s : State) : Out :=
  if noGroup s then .fault .noGroup
  else if r == 3 then .next (illegal s 2)
  else if tileBusy s then .next (s.block 2)
  else
    match tokCheck s 2 p q with
    | .fault e s1 => .next (raise s1 2 e none)
    | .wait s1 => .next (s1.block 2)
    | .ok _ s1 =>
      let t := s1.str st.toNat
      let w : SWait := { handle := s1.grp.handle, kind := 1, role := r.toNat, key := s1.grp.core, div := 0, pops := p, push := q }
      if s1.grp.memb.isSome then .next (raise s1 2 (exc cSESSMM 6) none)
      else if t.isIn || t.comb == .dark then
        .next (endJoin (s1.updStr st.toNat (fun t => { t with waiting := t.waiting.filter (fun x => x.handle != w.handle) })) w)
      else waitAt s1 st.toNat w

/-- A delay trim within its range of 8 symbols either way, in 1/64 symbol (R207). -/
def trimOf (d : BitVec 16) : Int := saturate d.toInt (-512) 512

/-- The trims of a core for a string set to the delays found on its program channels, from channel 0, first those of its receivers, then of its
modulators (R207); `only` restricts them to those already set. -/
def setTrims (s : State) (core n : Nat) (ds : List (BitVec 16)) (only : Bool) : State :=
  let put (ds : List (BitVec 16)) (l : List (Nat × Int)) : List (Nat × Int) := (ds.take 64).zipIdx.foldl (fun l x =>
    if only && (l.lookup (64 * n + x.2)).isNone then l else setA l (64 * n + x.2) (trimOf x.1)) l
  if ds.isEmpty then s else s.updCore core (fun c => { c with trims := put ds c.trims, modTrims := put (ds.drop 64) c.modTrims })

/-- The drive levels of a core's modulators for a string set (R221). -/
def setDrives (s : State) (core n : Nat) (vs : List (BitVec 16)) : State :=
  s.updCore core (fun c => { c with drives := (vs.take 64).zipIdx.foldl (fun l x => setA l (64 * n + x.2) x.1) c.drives })

/-- A calibration finishes (R221): `map` and `full` test the channels and renew the map, `trim` and `full` set the core's
trims and drive levels; the `mcal` completes and the string is released. `found` gives the channels without light, and the 64 delays measured
at the receivers, the 64 of the modulators and the 64 drive levels, 0 where none is given. -/
def execCalibrationDone (n : BitVec 3) (found : BitVec 68 × List (BitVec 16)) (s : State) : Out :=
  match (s.str n.toNat).cal with
  | none => .next s
  | some w =>
    let s1 := if w.role == 0 then s else remapStr s n.toNat found.1
    let s2 := if w.role == 1 then s1 else setDrives (setTrims s1 w.key n.toNat ((List.range 128).map (fun l => found.2.getD l 0)) false) w.key n.toNat
      ((List.range 64).map (fun l => found.2.getD (128 + l) 0))
    let s3 := s2.updStr n.toNat (fun t => { t with cal := none })
    .next (postAdmit (if w.handle == 0 then s3 else onGroup s3 w.handle (fun s => (tokDone s 2 w.push).advance 2)) n.toNat)

/-- The failover of a string ends: it runs on its standby comb (R219). -/
def execCombFailoverDone (n : BitVec 3) (s : State) : Out :=
  let t := s.str n.toNat
  if t.failing && !t.isIn then
    .next (tellSession (s.updStr n.toNat (fun t => { t with failing := false, comb := .standby, failovers := t.failovers + 1 })) n.toNat
      (nextSeqOf s n.toNat).toNat)
  else .next s

/-- The comb state that a notice gives. -/
def combOf (fields : BitVec 64) : Comb :=
  match fieldOf fields 22 21 with
  | 0 => .primary
  | 1 => .standby
  | _ => .dark

/-- R205, R211: a notice of kind 1. A listener elsewhere joins, or leaves or withdraws (bit 0); or the feeding module admits a listener of this one
(bit 1, SEQ in bits 31:16, its core in bits 47:40), whose `mjoin` then completes, and which answers that it is gone where it no longer waits. -/
def takeJoin (s : State) (n member key c : Nat) (fields : BitVec 64) : State :=
  let t := s.str n
  if bitAt fields 1 then
    let core := fieldOf fields 47 40
    if !t.isIn then s
    else
      match t.waiting.find? (fun w => w.kind == 0 && w.role == 1 && w.key == key && (s.groupOf w.handle).any (fun g => g.core == core && g.ctxid == c)) with
      | some w => s.updStr n (fun t => { t with
          nextSeq := (fields >>> 16).setWidth 16, waiting := t.waiting.map (fun x => if x == w then { x with ok := true } else x) })
      | none => addNote s n { kind := 1, member := 256 * s.modid + core, key := key, ctx := c, fields := 1 }
  else if bitAt fields 0 then
    let out (l : List SMember) : List SMember := l.filter (fun m => m.id != member)
    s.updStr n (fun t => { t with
      members := if t.key == key && t.ctx == c then out t.members else t.members,
      saved := t.saved.map (fun p => if p.key == key && p.ctx == c then { p with members := out p.members } else p),
      waiting := t.waiting.filter (fun w => !(w.kind == 3 && w.div == member)) })
  else if t.mode == 1 && !t.waiting.any (fun w => w.kind == 3 && w.div == member) then
    letIn (s.updStr n (fun t => { t with
      waiting := t.waiting ++ [{ handle := 0, kind := 3, role := c, key := key, div := member, pops := 0, push := 0 }] })) n
  else s

/-- R205, Table 11-2: a notice of kind 3 at an IN string: the comb and the session of the feeding module's string. A SAVED session's listeners
here are kept apart from the next session's, until it is back. -/
def takeSession (s : State) (n member key c : Nat) (fields : BitVec 64) : State :=
  let t := s.str n
  let mine := t.sess != .free && t.key == key && t.ctx == c
  let s0 := s.updStr n (fun t => { t with
    comb := combOf fields, failovers := fieldOf fields 30 23, failing := t.failing && combOf fields == t.comb && combOf fields == .primary })
  match fieldOf fields 18 16 with
  | 0 => if mine then talkerLeft s0 n else s0
  | 1 =>
    let s1 := (s0.updStr n (fun t => { t with
      sess := if t.sess == .free then .opened else t.sess, talker := member, key := key, ctx := c, div := fieldOf fields 20 19 })).updGroups
      (Group.parkedIn n key c) (fun g => { g with memb := g.memb.map (fun m => { m with parked := false }) })
    let joins := (t.waiting.filterMap (fun w => if w.kind == 0 && w.role == 1 && w.key == key then s.groupOf w.handle else none)).filter
      (fun g => g.ctxid == c)
    if t.sess == .free then joins.foldl (fun s g => askJoin s n g key) s1 else s1
  | 2 =>
    if !mine then s0
    else (s0.updGroups (fun g => g.onStr n) (fun g => { g with memb := g.memb.map (fun m => { m with parked := true }) })).updStr n
      Str.closed
  | _ => strand s0 n key c

/-- A notice about a session from another module (R205; its format is the model's own, log entry 26): readiness of a remote
listener (kind 0) or its end (bit 0), joins and leavings (kind 1), a pause (kind 2), the state of the session that the feeding module runs
(kind 3), for which a string so fed asks. `member` names a listener by 256 × module + core to the talker's module, and the sender to an IN string, which takes notices from
its feeding module alone. -/
def execSessionControlFlit (n : BitVec 3) (kind : BitVec 2) (member : BitVec 14) (key : BitVec 6) (c : BitVec 8) (fields : BitVec 64)
    (s : State) : Out :=
  let i := n.toNat
  let t := s.str i
  let mine := t.key == key.toNat && t.ctx == c.toNat
  if t.isIn && member.toNat / 256 != feederOf s.modid i then .next s
  else
    match kind.toNat with
    | 0 => .next (if mine then s.updStr i (fun t => { t with
        members := t.members.map (fun m => if m.id == member.toNat then { m with ready := !bitAt fields 0 } else m) }) else s)
    | 1 => .next (takeJoin s i member.toNat key.toNat c.toNat fields)
    | 2 => .next (if mine then pauseStr s i else s)
    | _ => .next (if t.isIn then takeSession s i member.toNat key.toNat c.toNat fields else tellComb s i)

end Sys2Proof.Machine
end

