-- ==== Sys2Proof/Machine/Frame.lean ====
section
/-! DEFINITION. Tile commands (chapters 11 and 12): their start and its checks (R236, R237), frames (R213 to R215), elements
with re-run, failover, accumulation, status and summary (R216 to R220, R238 to R240), and their completion. -/

namespace Sys2Proof.Machine

-- The start of a command ---------------------------------------------------------------------------------------------

/-- The value of an optical configuration register that a command taking it up sees: staged, else applied (R209). -/
def Group.ocNew (g : Group) (i : Nat) : W32 := (g.staged.getD i none).getD (g.ocs.getD i 0)

/-- R209: whether the optical configuration is one that FMT_INVALID rejects. -/
def ocBad (g : Group) : Bool :=
  let c := g.ocNew 1
  fieldOf c 1 0 == 3 || (fieldOf c 1 0 != 0 && fieldOf c 7 4 < 4) || fieldOf c 3 2 != 0 || fieldOf c 31 8 != 0 ||
  fieldOf (g.ocNew 2) 31 20 != 0 || fieldOf (g.ocNew 3) 31 2 != 0

/-- Table 12-1: whether a command admits a ROLE. -/
def roleAdmitted (op role : Nat) : Bool :=
  match op with
  | 1 => role == 1 || role == 2
  | 2 => role == 0
  | _ => role == 3

/-- R237 check 2. -/
def fmtBad (g : Group) (r : MReq) (w : W64) : Bool :=
  let role := fwRole w
  let b := r.op == 2
  fwA w > 6 || fwB w > 6 || fieldOf w 54 52 > 4 || (!b && fwSpn w > 4) || fieldOf w 19 0 != 0 ||
  (!fmtBlock (fwA w) && (fwAhdr w || fwAbm w)) || (!fmtBlock (fwB w) && (fwBhdr w || fwBbm w)) ||
  !roleAdmitted r.op role || (!b && fwRowlim w > (if r.mf == 0 then 64 else if r.mf == 1 then 128 else 256)) ||
  (r.mf == 2 && (g.partner == 0 || role == 2)) ||
  (roleSends role && fieldOf (g.d r.a) 127 112 != 0) || ((!b || fwBbm w) && fieldOf (g.d r.b) 127 112 != 0) ||
  (!b && fieldOf (g.d r.c) 31 17 != 0) || ocBad g

/-- R237 check 3: the reason of the session mismatch. A half of a pair needs its partner in its session whatever its command. DESIGN CHOICE:
reason 3 of a fresh command of an orphaned listener (R215) is found here (log entry 170). -/
def sessionBad (s : State) (w : W64) : Option Nat :=
  match s.grp.memb with
  | none => some 5
  | some m =>
    if m.role != fwRole w || (m.role != 2 && m.str != fwStr w) then some 5
    else if m.state == 5 then some 3
    else if s.grp.partner != 0 && !(match s.groupOf s.grp.partner with
        | some p => p.memb.any (fun x => x.role != 2 && x.str == m.str && x.key == m.key && x.state != 5)
        | none => false) then some 5
    else none

/-- A list of scratch regions as (offset, size). -/
abbrev Regions := List (Nat × Nat)

/-- The activation regions of a command (R232). -/
def actRegions (g : Group) (w : W64) (da : BitVec 128) (nf : Nat) : Regions :=
  let n := tileN nf
  let blocks := (setBits (kGroups w) (ownAbnd g w da)).length
  (List.range n).map (fun j => (dBaseN da + dStride da * j, kEl w * fmtWidth (fwA w) / 8)) ++
  (if fwAhdr w then (List.range n).map (fun j => (dMeta da + dMstr da * j, 2 * blocks)) else []) ++
  if fwAbm w then [(dBitmap da, (kGroups w + 7) / 8)] else []

/-- The weight bitmap of a command. -/
def bitmapRegion (w : W64) (db : BitVec 128) : Regions := if fwBbm w then [(dBitmap db, (kGroups w + 7) / 8)] else []

/-- The weight regions of the active rows and the weight bitmap (R232, R237). -/
def weightRegions (g : Group) (w : W64) (db : BitVec 128) (mf : Nat) : Regions :=
  let n := activeRows w mf g.half
  let blocks := (setBits (kGroups w) (ownBbnd g w db)).length
  let bytes := if fwSpn w == 0 then kEl w * fmtWidth (fwB w) / 8 else kEl w / 8 * fwSpn w * fmtWidth (fwB w) / 8
  (List.range n).map (fun j => (dBaseN db + dStride db * j, bytes)) ++
  (if fwBhdr w then (List.range n).map (fun j => (dMeta db + dMstr db * j, 2 * blocks)) else []) ++
  (if fwSpn w != 0 then (List.range n).map (fun j => (dMasks db j, kEl w / 8)) else []) ++ bitmapRegion w db

/-- The BASE and META offsets that a command's reads of an operand start from. -/
def alignList (d : BitVec 128) (data side : Bool) : List Nat := (if data then [dBaseN d] else []) ++ if side then [dMeta d] else []

/-- The least number of a list. -/
def least : List Nat → Option Nat
  | [] => none
  | x :: xs => some (xs.foldl min x)

/-- The logical banks that a region touches. -/
def regionBanks (r : Nat × Nat) : List Nat :=
  if r.2 == 0 then [] else (List.range ((r.1 + r.2 - 1) / bankBytes + 1 - r.1 / bankBytes)).map (fun i => r.1 / bankBytes + i)

/-- The lowest offset of a list of regions that lies outside the group's scratch. -/
def regionOut (s : State) (rs : Regions) : Option Nat :=
  least ((rs.filter (fun r => r.2 != 0 && r.1 + r.2 > s.grp.scratchSize)).map (fun r => max r.1 s.grp.scratchSize))

/-- The banks that regions touch, each with the lowest offset in it that a region touches. -/
def regionTouched (rs : Regions) : List (Nat × Nat) := rs.flatMap (fun r => (regionBanks r).map (fun b => (max r.1 (b * bankBytes), b)))

/-- The lowest offset of a list of regions that lies in a bank of another mode. -/
def regionWrong (s : State) (rs : Regions) : Option Nat :=
  least (((regionTouched rs).filter (fun x => match bankStand s x.2 .scratch with
    | .other _ => true
    | _ => false)).map (fun x => x.1))

/-- The mode that BANK_MODE reports for a bank that ought to be in mode `m`. -/
def modeFound (s : State) (b : Nat) (m : BankMode) : Nat :=
  match bankStand s b m with
  | .other k => k
  | _ => 0

/-- R237 check 4 for one operand: ALIGN, ACCESS_FAULT, BANK_MODE, each at its lowest offending offset; it waits for a bank
that converts. -/
def regionCheck (s : State) (al : List Nat) (rs : Regions) : Acc Unit :=
  match least (al.filter (fun o => o % 16 != 0)) with
  | some o => .fault (exc cALIGN o) s
  | none =>
    match regionOut s rs with
    | some o => .fault (exc cACCESS o) s
    | none =>
      match regionWrong s rs with
      | some o => .fault (exc cBANKMODE o (modeFound s (o / bankBytes) .scratch)) s
      | none => if (regionTouched rs).any (fun x => bankStand s x.2 .scratch == .waits) then .wait s else .ok () s

/-- R237 check 5: the lowest weight offset in a bank group that also holds activations. -/
def conflictAt (act wgt : Regions) : Option Nat :=
  let groups := act.flatMap (fun r => (regionBanks r).map (fun b => b % 4))
  least (wgt.flatMap (fun r => ((regionBanks r).filter (fun b => groups.contains (b % 4))).map (fun b => max r.1 (b * bankBytes))))

/-- R237 check 6: the cells that a listening command writes (R199, R233). -/
def accCheck (s : State) (w : W64) (dc : BitVec 128) (nf mf : Nat) : Acc Unit :=
  let rows := activeRows w mf s.grp.half
  let b0 := (accCell dc 0 0).1
  let banks := (List.range ((accCell dc 0 (tileN nf - 1)).1 + 1 - b0)).map (fun i => b0 + i)
  let row (j : Nat) : Nat := (accCell dc j 0).2.1
  if rows == 0 then .ok () s
  else
    match banks.find? (fun b => (s.grp.amapAt b).isNone) with
    | some b => .fault (exc cACCUN (256 * b + row 0)) s
    | none =>
      match (banks.flatMap (fun b => (List.range rows).map (fun j => (b, row j)))).find? (fun x =>
        x.2 > 127 || !(s.grp.amapAt x.1).any (fun e => bitAt e.band (x.2 / 32))) with
      | some x => .fault (exc cACCBAND (256 * x.1 + x.2)) s
      | none => .ok () s

/-- The status ring that a command writes (R209). -/
def ringOf (base ctl : W32) : Regions := [(base.toNat, 8 * 2 ^ fieldOf ctl 7 4)]

/-- R332: the lowest offset of a bad granule of the bitmaps that a command reads at its start (R243). -/
def bitmapBad (s : State) (w : W64) (da db : BitVec 128) : Option Nat :=
  least (((if roleSends (fwRole w) && fwAbm w then [dBitmap da] else []) ++ (if fwBbm w then [dBitmap db] else [])).filterMap (fun o =>
    (scrBad s o ((kGroups w + 7) / 8)).map (fun k => max o (16 * k))))

/-- R237 checks 2 to 6. DESIGN CHOICE: an uncorrectable error of a bitmap that the command reads comes between checks 4 and 5 (log entry 171). -/
def tileChecks (s : State) (r : MReq) (w : W64) : Acc Unit :=
  let g := s.grp
  let role := fwRole w
  let da := g.d r.a
  let db := g.d r.b
  if fmtBad g r w then .fault (exc cFMTINV w.toNat) s
  else
    match sessionBad s w with
    | some n => .fault (exc cSESSMM n) s
    | none =>
      let act := if roleSends role then actRegions g w da r.nf else []
      let wgt := if r.op == 2 then bitmapRegion w db else weightRegions g w db r.mf
      let rows := r.op != 2 && activeRows w r.mf g.half != 0
      (regionCheck s (if roleSends role then alignList da true (fwAhdr w || fwAbm w) else []) act).bind (fun _ s =>
        (regionCheck s (alignList db rows ((rows && (fwBhdr w || fwSpn w != 0)) || fwBbm w)) wgt).bind (fun _ s =>
          (if fieldOf (g.ocNew 1) 1 0 == 0 then .ok () s
            else regionCheck s [(g.ocNew 0).toNat] (ringOf (g.ocNew 0) (g.ocNew 1))).bind (fun _ s =>
            match bitmapBad s w da db, (if role == 2 || role == 3 then conflictAt act wgt else none) with
            | some o, _ => .fault (exc cMEMUNC o 1) s
            | none, some o => .fault (exc cBANKCONF o (o / bankBytes % 4)) s
            | none, none => if r.op == 2 then .ok () s else accCheck s w (g.d r.c) r.nf r.mf)))

/-- R220, R334: whether a string is closed to tile commands: it is DARK, or fenced (log entry 134). -/
def strShut (s : State) (n : Nat) : Bool := (s.str n).comb == .dark || s.ready.getD (144 + n) 0 == 2

/-- R237 check 7: a string that is closed to tile commands, or *L* above the live width of the session's string. -/
def windowBad (s : State) (w : W64) : Bool :=
  strShut s s.grp.strNo || fwL w > (s.str s.grp.strNo).liveWidth

/-- The command that a request becomes at its start: word, descriptors and optical configuration are captured (R236). -/
def newTile (s : State) (r : MReq) (w : W64) (res : Bool) (e0 : Nat) : TileCmd :=
  let g := s.grp
  { pc := s.pc 2, word := r.word, op := r.op, nf := r.nf, mf := r.mf, fw := w, da := g.d r.a, db := g.d r.b, dc := g.d r.c,
    stbase := g.ocNew 0, stctl := g.ocNew 1, frtmo := g.ocNew 2, rerun := g.ocNew 3, pops := r.pops, push := r.push, elem := e0,
    resumed := res, inFrame := false, begun := false, since := s.cycle,
    abnd := if roleSends (fwRole w) then ownAbnd g w (g.d r.a) else if res then g.lastAbnd else 1,
    bbnd := ownBbnd g w (g.d r.b), stWin := none, stHdr := [], stRows := [], entry := false, attempt := 0, seen := 0 }

/-- A tile command completes: its pushes, `seq`, the progress register, the next word where the stream has not gone on before (R213, R236). -/
def endTile (s : State) (push : BitVec 3) : State :=
  let s1 := (tokDone s 2 push).updGrp (fun g => { g with
    mcmd := none, seq := g.seq + 1, owed := false, prgm := prgClear g.prgm, memb := g.memb.map (fun m => { m with state := 2 }) })
  if s.grp.mcmd.any (fun c => c.passed.isSome) then s1 else s1.advance 2

/-- The group in focus takes part in a frame that starts or resumes (R213); a resumed element goes on with the attempts made at it (R220). -/
def beginFrame (s : State) (abnd : Nat) (rerun : W32) (div : Nat) : State :=
  match s.grp.mcmd with
  | none => s
  | some c =>
    let a := if c.resumed then s.grp.again else (0, 0)
    s.updGrp (fun g => { g with
      lastAbnd := abnd, again := (0, 0),
      mcmd := some { c with inFrame := true, entry := true, abnd := abnd, stWin := none, rerun := rerun, attempt := a.1, seen := a.2 },
      memb := g.memb.map (fun m => { m with state := 3, div := div }) })

/-- The group in focus begins the first element that its command performs since its issue (R209, R218, R236): staged configuration is
applied, and a command at element 0 resets the summary. -/
def beginTile (s : State) : State :=
  match s.grp.mcmd with
  | none => s
  | some c =>
    if c.begun then s
    else
      s.updGrp (fun g =>
        let ocs := if c.resumed then g.ocs else (List.range 64).map (fun i => g.ocNew i)
        let ocs := if c.elem == 0 then updAt (updAt (updAt (updAt ocs 60 (fun _ => 0)) 61 (fun _ => 0)) 62 (fun _ => 0xFFFFFFFF)) 63 (fun _ => 0) else ocs
        { g with
          ocs := ocs, staged := if c.resumed then g.staged else List.replicate 64 none, owed := false,
          prgm := if c.resumed then g.prgm else prgClear g.prgm, mcmd := some { c with begun := true } })

/-- R204, R206: the channels of a string moved at a preamble, `dark` having been found without light; every such move leaves a record of its own
(R337). DESIGN CHOICE: an IN string's map is its own and moves at no preamble here (log entry 163). -/
def preambleMoves (s : State) (n : Nat) (dark : BitVec 68) : State :=
  let t := s.str n
  if t.isIn then s
  else
    let moved := movedChannels t { t with failed := t.failed ||| dark }.remap
    let s1 := remapStr s n (t.failed ||| dark)
    if moved.isEmpty then s1 else eventRecord s1 6 n 0 moved.length 0 0

/-- R236, R237: the tile command that the matrix stream has reached starts: tokens, format word, checks; then it waits for its frame. -/
def startTile (s0 : State) : State :=
  match s0.grp.mreq with
  | none => s0
  | some r =>
    let s := { s0 with iw := r.word }
    let res := prgMatch s.grp.prgm (s.pc 2)
    let p := if res then 0 else r.pops
    let stop (s : State) : State := s.updGrp (fun g => { g with mreq := none })
    match tokCheck s 2 p r.push with
    | .fault e s1 => raise (stop s1) 2 e none
    | .wait s1 => s1.block 2
    | .ok _ s1 =>
      match (if res then some s1.grp.fmtcur else s1.grp.fmtq.head?) with
      | none => raise (stop s1) 2 (exc cFMTUNDER 0) none
      | some w =>
        let e0 := if res then prgElem s1.grp.prgm else 0
        match tileChecks s1 r w with
        | .fault e s2 => raise (stop s2) 2 e (if e.code == cSESSMM && e.addr == 3 then mismatchEl e0 else none)
        | .wait s2 => s2.block 2
        | .ok _ s2 =>
          let c := newTile s2 r w res e0
          let s3 := (tokIssue (stop s2) 2 p r.push).updGrp (fun g => { g with fmtq := if res then g.fmtq else g.fmtq.drop 1 })
          if res && e0 ≥ c.count then endTile s3 r.push
          else if windowBad s2 w then raise (stop s2) 2 (exc cWINFAIL 0) (some e0)
          else
            let s4 := (s3.updGrp (fun g => { g with mcmd := some c })).updStream 2 (fun t => { t with run := .ready })
            s4

/-- A tile command is reached (R227): MF 3 is ILLEGAL (R43); it starts once the earlier command has ended (R236). -/
def tileReq (s : State) (r : MReq) : Out :=
  if noGroup s then .fault .noGroup
  else if r.mf == 3 then .next (illegal s 2)
  else if tileBusy s then .next (s.block 2)
  else .next (startTile (s.updGrp (fun g => { g with mreq := some r })))

/-- `mtile` (R227). -/
def execMtile (p q : BitVec 3) (n : BitVec 6) (m : BitVec 2) (a b c : BitVec 4) (s : State) : Out :=
  tileReq s { word := s.iw, op := 1, nf := n.toNat, mf := m.toNat, a := a.toNat, b := b.toNat, c := c.toNat, pops := p, push := q }
/-- `mbcast` (R227). -/
def execMbcast (p q : BitVec 3) (n : BitVec 6) (a b : BitVec 4) (s : State) : Out :=
  tileReq s { word := s.iw, op := 2, nf := n.toNat, mf := 0, a := a.toNat, b := b.toNat, c := 0, pops := p, push := q }
/-- `mtile.t` (R227). -/
def execMtileT (p q : BitVec 3) (n : BitVec 6) (m : BitVec 2) (a b c : BitVec 4) (s : State) : Out :=
  tileReq s { word := s.iw, op := 3, nf := n.toNat, mf := m.toNat, a := a.toNat, b := b.toNat, c := c.toNat, pops := p, push := q }

/-- `msync` (R244): it issues under R236, waits for the tile command before it, and completes. -/
def execMsync (p q : BitVec 3) (s : State) : Out :=
  if noGroup s then .fault .noGroup
  else if tileBars s || (s.grp.msync.isSome && tileBusy s) then .next (s.block 2)
  else
    match s.grp.msync with
    | some x => .next ((tokDone (s.updGrp (fun g => { g with msync := none })) 2 x.2).advance 2)
    | none =>
      if !tileBusy s then tDo s 2 p q (fun s => .ok () s)
      else
        match tokCheck s 2 p q with
        | .ok _ s1 => .next (((tokIssue s1 2 p q).updGrp (fun g => { g with msync := some (p, q) })).block 2)
        | .fault e s1 => .next (raise s1 2 e none)
        | .wait s1 => .next (s1.block 2)

/-- A tile command that waits to start is tried again (R236, R237). -/
def execTileCommandStart (h : BitVec 64) (s : State) : Out :=
  let s := s.focus h
  if s.focused h && s.grp.st == .running && goesOn s 2 && !tileBusy s then .next (startTile s) else .next s

-- Frames -------------------------------------------------------------------------------------------------------------

/-- Whether a member's command has started and waits for its frame. -/
def Group.frameReady (g : Group) : Bool := g.mcmd.any (fun c => !c.inFrame)

/-- Whether a member holds at its element boundary: its streams stop (R64), or its core is being taken over (R335). -/
def holds (s : State) (g : Group) : Bool := held s g || coreMoving s g

/-- R213: whether every member of a session that listens, and its talker where it is a group of this module, has a command
waiting for the frame. -/
def frameDue (s : State) (n : Nat) : Bool :=
  let t := s.str n
  (t.sess == .opened || t.sess == .paused) && (membersOf s n).all (fun g => g.frameReady && !holds s g) && t.members.all (fun m => m.ready) &&
  (if t.isIn then !(membersOf s n).isEmpty else (talkerOf s n).isSome)

/-- R213: the frame fields of a started command under activation boundaries: SEQ, START, AFMT, *P*, *L*, *T*, NF, *W*, SEGH. -/
def frameFields (g : Group) (c : TileCmd) (abnd : Nat) : List Nat :=
  let ws := tileWindows c.fw c.bbnd abnd
  [g.seq.toNat, c.elem, fwA c.fw, (passes c.fw).length, fwL c.fw, fwT c.fw, c.nf, ws.length, segh ws]

/-- The preamble of a talker: its frame fields, DIV, `rerun` and ABND (R213). -/
def preambleOf (g : Group) : List Nat :=
  match g.mcmd with
  | none => []
  | some c => frameFields g c c.abnd ++ [(g.memb.map (fun m => m.div)).getD 0, c.rerun.toNat, c.abnd]

/-- R215: the reason for which a listener's frame fields differ from a preamble. -/
def mismatchOf (g : Group) (pre : List Nat) : Option Nat :=
  match g.mcmd with
  | none => none
  | some c =>
    let f := frameFields g c (pre.getD 11 1)
    let ne (i : Nat) : Bool := f.getD i 0 != pre.getD i 0
    if (List.range 6).any (fun i => ne (i + 2)) then some 1
    else if ne 0 || ne 1 then some 2
    else if ne 8 then some 4
    else none

/-- R204, R213: the frame of a `local` command starts or resumes, once its preamble has been checked for channels without light. -/
def localStart (s : State) (m : Memb) (c : TileCmd) (dark : BitVec 68) : State :=
  let s2 := preambleMoves s s.grp.strNo dark
  if windowBad s2 c.fw then tileFaults s2 (faultsIn [s2.grp] (fun _ c => some (exc cWINFAIL 0, some c.elem)))
  else beginFrame s2 c.abnd c.rerun m.div

/-- R213, R215: the preamble of a talker on another module, whose command has started, reaches the listeners here that wait: each compares its
fields; one that differs faults, and the talker's module is told of the others' readiness (R205). -/
def showPreamble (s : State) (n : Nat) (pre : List Nat) : State :=
  let ms := (membersOf s n).filter (fun g => g.frameReady && !holds s g)
  let s1 := (ms.filter (fun g => (mismatchOf g pre).isNone)).foldl (fun s g =>
    addNote s n { kind := 0, member := memberId s g, key := (g.memb.map (fun m => m.key)).getD 0, ctx := g.ctxid, fields := 0 }) s
  tileFaults s1 (faultsIn ms (fun g c => (mismatchOf g pre).map (fun r => (exc cSESSMM r, mismatchEl c.elem))))

/-- Table 11-2, R205: a member here cannot take part in a frame that has begun at the talker's module, which is told to pause it. -/
def tellPause (s : State) (n : Nat) : State :=
  if (s.str n).isIn then addNote s n { kind := 2, member := 256 * s.modid, key := (s.str n).key, ctx := (s.str n).ctx, fields := 0 } else s

/-- R213, R204: a frame starts or resumes: the comb monitor remaps channels, listeners compare their fields, and where all
match every member begins. `dark` gives the mapped channels found without light; `pre` is the preamble of a talker on
another module, as its light brings it (R205): its twelve fields, with a thirteenth while the talker waits for its listeners. -/
def execFrameStart (h : BitVec 64) (dark : BitVec 68) (pre : List (BitVec 64)) (s : State) : Out :=
  let s := s.focus h
  match s.grp.memb with
  | none => .next s
  | some m =>
    let n := m.str
    let t := s.str n
    if m.role == 2 then
      match s.grp.mcmd with
      | some c => .next (if !s.focused h || c.inFrame || holds s s.grp || strDown s s.grp.strNo then s else localStart s m c dark)
      | none => .next s
    else if !s.focused h || !s.grp.onStr n || (!t.isIn && m.role == 1) || strDown s n then .next s
    else if t.isIn && pre.length == 13 then .next (showPreamble s n (pre.map (fun x => x.toNat)))
    else if t.isIn && pre.length != 12 then .next s
    else if !frameDue s n then .next (if t.sess == .frame then s else tellPause s n)
    else
      let p := if t.isIn then pre.map (fun x => x.toNat) else preambleOf s.grp
      let s2 := preambleMoves s n dark
      let ms := membersOf s2 n
      let narrow := strShut s2 n || (!t.isIn && p.getD 4 4 > (s2.str n).liveWidth)
      if narrow then .next (tileFaults s2 (faultsIn ms (fun _ c => some (exc cWINFAIL 0, some c.elem))))
      else
        let bad := faultsIn ms (fun g c => if roleListens g.role then (mismatchOf g p).map (fun r => (exc cSESSMM r, mismatchEl c.elem)) else none)
        if !bad.isEmpty then .next (tileFaults (tellPause s2 n) bad)
        else
          let s3 := s2.updStr n (fun t => { t with sess := .frame, members := t.members.map (fun m => { m with ready := false }) })
          .next (ms.foldl (fun s g => onGroup s g.handle (fun s =>
            beginFrame s (p.getD 11 1) (BitVec.ofNat 32 (p.getD 10 0)) (p.getD 9 0))) s3)

/-- R214: whether a waiting command has reached its frame wait limit. -/
def frameLate (s : State) (g : Group) : Bool :=
  g.role != 2 && g.mcmd.any (fun c => !c.inFrame && fieldOf c.frtmo 19 0 != 0 && s.cycle ≥ c.since + fieldOf c.frtmo 19 0 * 1024)

/-- R214: the address of a SESSION_TIMEOUT: for a talker the lowest listener that is not ready. -/
def lateMember (s : State) (g : Group) : Nat :=
  match g.memb with
  | none => 0
  | some m =>
    if m.role == 1 then 0
    else (least (((membersOf s m.str).filter (fun x => roleListens x.role && !x.frameReady)).map (fun x => x.core) ++
      ((s.str m.str).members.filter (fun x => !x.ready)).map (fun x => x.id))).getD 0

/-- A command's frame wait ends in SESSION_TIMEOUT (R214), unless its frame starts in that cycle; a frame of a string fed by another module starts
when its light comes. -/
def execSessionTimeout (h : BitVec 64) (s : State) : Out :=
  let s := s.focus h
  if s.focused h && frameLate s s.grp && !((s.grp.onStr s.grp.strNo) && !(s.str s.grp.strNo).isIn && frameDue s s.grp.strNo) then
    .next (tileFaults s (faultsIn [s.grp] (fun g c => some (exc cSESSTO (lateMember s g), mismatchEl c.elem))))
  else .next s

-- Elements -----------------------------------------------------------------------------------------------------------

/-- The accumulator cell that a listening member's row `j` writes in an element, where its bank is mapped (R233). -/
def elemCell (g : Group) (c : TileCmd) (j : Nat) : Option Nat :=
  let x := accCell c.dc j (elemAt c).2.2
  (g.amapAt x.1).map (fun e => cellOf e.phys x.2.1 x.2.2)

/-- Whether an element overwrites (R33, R241). -/
def overwrites (c : TileCmd) : Bool := bitAt c.fw 28 && (elemAt c).1 == 0 && (elemAt c).2.1 == 0

/-- The lowest offset of a bad granule in the first of some reads that holds one (R332). -/
def readsBad (s : State) (rs : List (Nat × Nat)) : Option Nat := rs.findSome? (fun r => (scrBad s r.1 r.2).map (fun k => max r.1 (16 * k)))

/-- R238, R239: the fault of the group in focus at its next element before the window runs, in the order of R238's code, and the element that
it names. DESIGN CHOICE: SCALE_SKEW and a mask's FMT_INVALID name the first element of the window, also where the command goes on in the
middle of it (log entry 147). -/
def elementFault (s : State) (c : TileCmd) : Option (Exc × Nat) :=
  let g := s.grp
  let sends := roleSends g.role
  let listens := roleListens g.role
  let win := (elemAt c).1 * (passes c.fw).length * tileN c.nf
  let bad (rs : List (Nat × Nat)) : Option (Exc × Nat) := (readsBad s rs).map (fun o => (exc cMEMUNC o 1, c.elem))
  let staging : List (Option (Exc × Nat)) := if c.staged then [] else
    [bad (headerReads g c sends listens),
     (skewAt g c sends listens c.entry).map (fun x => (exc cSKEW x.1 x.2, win)),
     bad (maskReads g c listens),
     (if listens then maskBad g c else none).map (fun o => (exc cFMTINV o, win)),
     bad (weightReads g c listens)]
  (staging ++ [bad (activationReads c sends)]).findSome? id

/-- R201, R239, R332: the fault of the group in focus at the accumulators of an element whose window has run: it comes behind WINDOW_FAIL
(R238). -/
def accFault (s : State) (c : TileCmd) : Option (Exc × Nat) :=
  let g := s.grp
  let bank (j : Nat) : Nat := let x := accCell c.dc j (elemAt c).2.2; 256 * x.1 + x.2.1
  if !roleListens g.role then none
  else
    ((List.range (activeRows c.fw c.mf g.half)).findSome? (fun j =>
      match elemCell g c j with
      | none => some (exc cACCUN (bank j))
      | some k => if !overwrites c && (s.core g.core).badAcc.contains k then some (exc cMEMUNC (bank j) 1) else none)).map (fun e => (e, c.elem))

/-- A 16-bit count of the summary, one more where an element counts; NLASER saturates, and what the other counts hold past
65,535 is open (R218). -/
def bump (v : Nat) (sat hit : Bool) (fresh : Nat) : Nat :=
  if !hit then v else if v < 65535 then v + 1 else if sat then v else Config.countOver fresh % 65536

/-- R218: the summary after an element: flags SAT, LASER, SKEW, RXFAIL, FAILOVER and re-runs made. -/
def summarise (ocs : List W32) (e : Nat) (sat las skew rx fo : Bool) (reruns fresh : Nat) : List W32 :=
  let l (i : Nat) : W32 := ocs.getD (60 + i) 0
  let any := sat || las || skew || rx
  let b (x : Bool) (k : Nat) : Nat := if x then 2 ^ k else 0
  let firstHit := l 2 == 0xFFFFFFFF && any
  let l0 := bump (fieldOf (l 0) 31 16) true las fresh * 2 ^ 16 + bump (fieldOf (l 0) 15 0) false sat (fresh + 1)
  let l1 := bump (fieldOf (l 1) 31 16) false rx (fresh + 2) * 2 ^ 16 + bump (fieldOf (l 1) 15 0) false skew (fresh + 3)
  let l2 := if firstHit then BitVec.ofNat 32 e else l 2
  let ff := if firstHit then b sat 0 + b las 1 + b skew 2 + b rx 3 else fieldOf (l 3) 7 0
  let l3 := (if fo || bitAt (l 3) 16 then 2 ^ 16 else 0) + min 255 (fieldOf (l 3) 15 8 + reruns) * 2 ^ 8 + ff
  updAt (updAt (updAt (updAt ocs 60 (fun _ => BitVec.ofNat 32 l0)) 61 (fun _ => BitVec.ofNat 32 l1)) 62 (fun _ => l2)) 63 (fun _ => BitVec.ofNat 32 l3)

/-- R217: a status entry. -/
def statusEntry (e reruns satrows firstsat : Nat) (seen : BitVec 4) (sat : Bool) : Nat :=
  let b (x : Bool) (k : Nat) : Nat := if x then 2 ^ k else 0
  e % 2 ^ 32 + satrows * 2 ^ 32 + firstsat * 2 ^ 40 + reruns * 2 ^ 48 + b (bitAt seen 0) 50 + b (bitAt seen 1) 51 + b (bitAt seen 2) 52 +
  b sat 53 + b (bitAt seen 3) 54

/-- R33, R217, R218: the group in focus accepts an element: accumulators, status entry, summary, the next element. The status
entry is answered where SAT_TRAP is due (R240). -/
def acceptElement (s : State) (act : Option (Int × List Int)) : Option Nat × State :=
  match s.grp.mcmd with
  | none => (none, s)
  | some c =>
    let g := s.grp
    let rows := if roleListens g.role then elementRows g c s.fresh act else []
    let s1 := (rows.zip (List.range rows.length)).foldl (fun s x =>
      match elemCell g c x.2 with
      | some k => cellSet s g.core k (if overwrites c then x.1.1 else fp32Add (cellGet s g.core k) x.1.1)
      | none => s) s
    let sats := (List.range rows.length).filter (fun j => (rows.getD j (0, false)).2)
    let sat := !sats.isEmpty
    let entry := statusEntry c.elem c.attempt sats.length (sats.headD 0xFF) c.seen sat
    let mode := fieldOf c.stctl 1 0
    let s2 := if mode == 2 || (mode == 1 && (sat || c.seen != 0)) then
        (s1.setScr (c.stbase.toNat + 8 * (g.stwr.toNat % 2 ^ fieldOf c.stctl 7 4)) 8 entry).updGrp (fun g => { g with stwr := g.stwr + 1 })
      else s1
    let s3 := s2.updGrp (fun g => { g with
      ocs := summarise g.ocs c.elem sat (bitAt c.seen 0) (bitAt c.seen 1) (bitAt c.seen 2) (bitAt c.seen 3) c.attempt (s.fresh + 128),
      mcmd := some { c with elem := c.elem + 1, attempt := 0, seen := 0, entry := false } })
    (if sat && bitAt c.fw 27 then some entry else none, { s3 with fresh := s.fresh + 132 })

/-- What the members of a frame find in an attempt: by group handle, or for a member of another module by 2^38 more than its member id;
SKEW (bit 0) of a member elsewhere and RXFAIL (bit 1), and the delays of the program channels in 1/64 symbol, from channel 0, first at its
receivers, then of its modulators. -/
abbrev Obs := List (BitVec 64 × BitVec 2 × List (BitVec 16))

/-- The delays that a group of this module finds. -/
def delaysOf (g : Group) (obs : Obs) : List (BitVec 16) := (obs.lookup g.handle).elim [] (fun o => o.2)

/-- R207: the residual skew of a group in 1/64 symbol: the largest channel error after trimming; an unset trim counts as 0. DESIGN CHOICE: only
the channels below *L* of the running command count (log entry 169). -/
def residual (s : State) (g : Group) (obs : Obs) : Nat :=
  let l := (g.mcmd.map (fun c => fwL c.fw)).getD 64
  ((delaysOf g obs).take l).zipIdx.foldl (fun m x =>
    max m (x.1.toInt - ((s.core g.core).trims.lookup (64 * g.strNo + x.2)).getD 0).natAbs) 0

/-- The flags SKEW and RXFAIL that a member reports for an attempt: SKEW where the residual skew exceeds 1/16 symbol (R207); a talker that
does not listen reports none (R216). -/
def obsOf (s : State) (obs : Obs) (g : Group) : BitVec 2 :=
  if roleListens g.role then
    (if residual s g obs > 4 then 1 else 0) ||| (if (obs.lookup g.handle).any (fun o => bitAt o.1 1) then 2 else 0)
  else 0

/-- Whether a member elsewhere reports a flag, so that no member may accept the attempt (R216): a listener of the string's session, or on an
IN string any member that is not of this module. -/
def flaggedAfar (s : State) (n : Nat) (obs : Obs) : Bool :=
  let t := s.str n
  obs.any (fun o => o.2.1 != 0 && o.1.toNat / 2 ^ 38 == 1 && o.1.toNat % 2 ^ 14 / 256 != s.modid &&
    (t.isIn || t.members.any (fun m => m.id == o.1.toNat % 2 ^ 14)))

/-- The flags of an attempt at a member: LASER 0, SKEW 1, RXFAIL 2 (R216). -/
def attemptFlags (las : Bool) (o : BitVec 2) : BitVec 4 := (if las then 1 else 0) ||| (o.setWidth 4 <<< 1)

/-- The window is run again in every member (R220): flags gathered, one more attempt; `fo` where the string fails over. -/
def noteAttempt (las fo : Bool) (obs : Group → BitVec 2) (g : Group) : Group :=
  { g with mcmd := g.mcmd.map (fun c => { c with
      attempt := c.attempt + 1, seen := c.seen ||| attemptFlags las (obs g) ||| (if fo then 8 else 0) }) }

/-- R335: an element with RXFAIL at a core is noted; the eighth within 2^24 cycles is a core fault. -/
def noteRx (s : State) (core : Nat) : State :=
  let ts := ((s.core core).rxTimes ++ [s.cycle]).filter (fun t => s.cycle < t + 2 ^ 24)
  if ts.length ≥ 8 then (s.updCore core (fun c => { c with rxTimes := [] })).postE (.coreFault (BitVec.ofNat 7 core) [])
  else s.updCore core (fun c => { c with rxTimes := ts })

/-- R219: a PRIMARY string whose attempt is flagged LASER begins to switch to its standby comb. On an IN string the feeding module's string
fails over, and its notice ends the wait (R205). -/
def failOver (s : State) (n : Nat) : State :=
  let s1 := s.updStr n (fun t => { t with failing := true })
  if (s.str n).isIn then s1 else s1.postE (.combFailoverDone (BitVec.ofNat 3 n))

/-- R220, R334: re-runs exhausted: the string goes DARK where LASER finds it STANDBY and fails over where it finds it PRIMARY (R14, R219), it is
fenced, and every member faults with WINDOW_FAIL; a later issue of the element has its re-runs anew. -/
def windowFail (s : State) (n : Nat) (hs : List W64) (las : Bool) (obs : Group → BitVec 2) : State :=
  let dark := las && (s.str n).comb == .standby && !(s.str n).isIn
  let s0 := if dark then tellSession (s.updStr n (fun t => { t with comb := .dark })) n (nextSeqOf s n).toNat
    else if las && (s.str n).comb == .primary then failOver s n else s
  let s1 : State := { s0 with ready := updAt s0.ready (144 + n) (fun _ => 2) }
  let s2 := eventRecord s1 6 n 4 1 0 (hs.headD 0)
  let ms := s2.groups.filter (fun g => hs.contains g.handle)
  let bad := faultsIn ms (fun g c => some (exc cWINFAIL (2 * (attemptFlags las (obs g)).toNat) (c.attempt + 1), some c.elem))
  let s3 := s2.updGroups (fun g => hs.contains g.handle) (fun g => { g with mcmd := g.mcmd.map (fun c => { c with attempt := 0, seen := 0 }) })
  (tileFaults s3 bad).post ((ms.filter (fun g => bitAt (obs g) 1)).map (fun g => .event (.coreFault (BitVec.ofNat 7 g.core) [])))

/-- A flagged attempt (R219, R220): re-run with failover or retrim, or the end of the re-runs. -/
def flagged (s : State) (n : Nat) (hs : List W64) (c : TileCmd) (las : Bool) (obs : Obs) : State :=
  let o := obsOf s obs
  if c.attempt == fieldOf c.rerun 1 0 then windowFail s n hs las o
  else
    let fo := las && (s.str n).comb == .primary
    let ms := s.groups.filter (fun g => hs.contains g.handle)
    let rx := (ms.filter (fun g => bitAt (o g) 1 && g.mcmd.any (fun c => !bitAt c.seen 2))).map (fun g => g.core)
    let s1 := rx.foldl noteRx (s.updGroups (fun g => hs.contains g.handle) (noteAttempt las fo o))
    if fo then failOver s1 n
    else (ms.filter (fun g => bitAt (o g) 0)).foldl (fun s g => setTrims s g.core g.strNo (delaysOf g obs) false) s1

/-- The activation side that a talker on another module sends: its exponent, 0x8000 for NaN, and the symbols. -/
def lightOf (light : List (BitVec 16)) : Option (Int × List Int) :=
  match light with
  | [] => none
  | x :: xs => if x == 0x8000 then none else some (x.toInt, xs.map (fun y => y.toInt))

/-- R238: an accepted element in every member; after the last one the frame ends and commands complete, but for a member
with a SAT_TRAP (R240). -/
def accepted (s : State) (n : Nat) (hs : List W64) (sender : Group) (c : TileCmd) (act : Option (Int × List Int)) : State :=
  let s0 := if c.attempt == 0 then s else noteCorrected s 6 n (if bitAt c.seen 3 then 2 else 1) c.attempt
  let r := hs.foldl (fun (acc : List TileExc × State) h =>
    let s := acc.2.focus h
    let x := acceptElement s act
    (match x.1 with
      | some e => acc.1 ++ faultsIn [s.grp] (fun _ c => some (exc cSAT e, some c.elem))
      | none => acc.1, x.2)) (([] : List TileExc), s0)
  let last := c.elem + 1 ≥ c.count
  let s1 := r.2.focus s.grp.handle
  if !last then tileFaults s1 r.1
  else
    let s2 := s1.updGroups (fun g => hs.contains g.handle) (fun g => { g with
      owed := true, mcmd := g.mcmd.map (fun c => { c with inFrame := false }), memb := g.memb.map (fun m => { m with state := 2 }) })
    let s3 := if sender.role == 2 then s2 else s2.updStr n (fun t => { t with sess := .opened })
    let s4 := (hs.filter (fun h => !r.1.any (fun x => x.h == h))).foldl (fun s h =>
      onGroup s h (fun s => endTile s ((s.grp.mcmd.map (fun c => c.push)).getD 0))) s3
    postAdmit (tileFaults s4 r.1) n

/-- R238: one element of a frame in every member: each begins its command, its reads are checked, the window is staged at its first
element, and the attempt is accepted or flagged. `laser` is the comb monitor's finding, on an IN string that of the feeding module (R205), and
the physical channels that fail during the window (R204), `obs` what the members find, `light` the activation side where the talker is on another module. -/
def execTileElement (h : BitVec 64) (laser : BitVec 1 × BitVec 68) (obs : List (BitVec 64 × BitVec 2 × List (BitVec 16)))
    (light : List (BitVec 16)) (s : State) : Out :=
  let s := s.focus h
  match s.grp.mcmd with
  | none => .next s
  | some c =>
    let n := s.grp.strNo
    let lone := s.grp.role == 2
    let ms := if lone then [s.grp] else (membersOf s n).filter (fun g => g.mcmd.any (fun c => c.inFrame))
    let hs := ms.map (fun g => g.handle)
    if !s.focused h || !c.inFrame || (s.str n).failing || (ms.any (holds s) && !framePassed s) then .next s
    else
      let s1 := hs.foldl (fun s h => onGroup s h beginTile) (if (s.str n).isIn then s else s.updStr n (fun t => { t with failed := t.failed ||| laser.2 }))
      let found (s : State) (f : State → TileCmd → Option (Exc × Nat)) : List TileExc :=
        faultsIn (s.groups.filter (fun g => hs.contains g.handle)) (fun g c => (f (s.focus g.handle) c).map (fun x => (x.1, some x.2)))
      let faults := found s1 elementFault
      if !faults.isEmpty then .next (tileFaults s1 faults)
      else
        let s2 := s1.updGroups (fun g => hs.contains g.handle) (fun g => { g with
          mcmd := g.mcmd.map (fun c => stageWindow g c (roleSends g.role) (roleListens g.role)) })
        let las := laser.1 == 1 || (!(s2.str n).isIn && (List.range (fwL c.fw)).any (fun l => !(s2.str n).works l))
        let ms := s2.groups.filter (fun g => hs.contains g.handle)
        let c1 := s2.grp.mcmd.getD c
        let late := found s2 accFault
        if las || ms.any (fun g => obsOf s2 obs g != 0) || flaggedAfar s2 n obs then .next (flagged s2 n hs c1 las obs)
        else if !late.isEmpty then .next (tileFaults s2 late)
        else
          let sender := (ms.find? (fun g => roleSends g.role)).getD s2.grp
          let act := if roleSends sender.role then (sender.mcmd.bind (fun c => activation sender c)) else lightOf light
          let s3 := ms.foldl (fun s g => setTrims s g.core g.strNo (delaysOf g obs) true) s2
          .next (accepted s3 n hs sender ((sender.mcmd).getD c1) act)

end Sys2Proof.Machine
end

