-- ==== Sys2Proof/Machine/CacheOps.lean ====
section
/-! DEFINITION. Cache range operations (R149, R150), far-tier cache maintenance (R151, R152), bank modes (R196), and the
page and TLB instructions (R324 to R326). -/

namespace Sys2Proof.Machine

/-- A piece of a range that lies in one page: virtual address, length, translation. -/
structure Piece where
  va : Nat
  len : Nat
  tr : Tr
deriving DecidableEq, Repr

/-- R150: every page of a range translated, in ascending address, before anything is affected; 64 KiB at a time. The
first argument bounds the number of pieces. -/
def piecesN : Nat → State → Nat → Nat → Want → Acc (List Piece)
  | 0, s, _, _, _ => .ok [] s
  | k + 1, s, va, n, w =>
    if n == 0 then .ok [] s
    else
      let m := min n (65536 - va % 65536)
      (translate s s.grp.core s.grp.ctxid va w).bind (fun t s =>
        (piecesN k s (va + m) (n - m) w).bind (fun ps s => .ok ({ va := va, len := m, tr := t } :: ps) s))

/-- The pieces of a range (R150). -/
def pieces (s : State) (va n : Nat) (w : Want) : Acc (List Piece) := piecesN (n / 65536 + 2) s va n w

/-- The first and the last line of a piece. -/
def Piece.lines (p : Piece) : Nat × Nat := (p.tr.pa / 128, (p.tr.pa + p.len - 1) / 128)

/-- Whether a line lies in a piece. -/
def Piece.hasLine (p : Piece) (line : Nat) : Bool := p.lines.1 ≤ line && line ≤ p.lines.2

/-- R150: the frame of every range operation: length 0 does nothing, more than 2^30 is ACCESS_FAULT, then the pages;
pages of another module are skipped. It acts after the group's earlier reductions to the range, and on the whole range at once: where a
part of it has to wait nothing is affected yet (R126). -/
def rangeOp (s : State) (a b : BitVec 5) (w : Want) (op : State → Piece → Acc Unit) : Out :=
  sDo s (fun s =>
    let va := (s.x a).toNat
    let n := (s.x b).toNat
    if n == 0 then .ok () (s.advance 0)
    else if n > 2 ^ 30 then .fault (exc cACCESS va) s
    else
      (pieces s va n w).bind (fun ps s =>
        if (s.die (dieOf s.grp.core)).reds.any (fun r => r.handle == s.grp.handle && ps.any (fun p => p.hasLine (r.pa / 128))) then .wait s else
        match (ps.filter (fun p => !inRemote p.tr.pa)).foldl (fun (acc : Acc Unit) p => acc.bind (fun _ s => op s p)) (.ok () s) with
        | .ok _ s1 => .ok () (s1.advance 0)
        | .fault e s1 => .fault e s1
        | .wait _ => .wait s))

/-- The numbers of the L1 lines of a core that lie in a piece. -/
def l1In (s : State) (p : Piece) (c : Nat) : List Nat := ((s.core c).l1.map (fun x => x.line)).filter (fun l => p.hasLine l)
/-- The numbers of the L2 lines of a die that lie in a piece. -/
def l2In (s : State) (p : Piece) (d : Nat) : List Nat := ((s.die d).l2.map (fun x => x.line)).filter (fun l => p.hasLine l)

/-- What has been done, or the wait of the state before. -/
def orWait (s : State) (r : Option State) : Acc Unit :=
  match r with
  | some s1 => .ok () s1
  | none => .wait s

/-- FN 0: dirty L1 lines of the piece written to L2. -/
def pieceWb1 (s : State) (p : Piece) : Option State :=
  allOf ((l1Dirty s s.grp.core).filter (fun x => p.hasLine x.line)) s (fun s cl => l1Wb s s.grp.core cl)
/-- FN 1: L1 lines of the piece discarded. -/
def pieceInv1 (s : State) (p : Piece) : State := (l1In s p s.grp.core).foldl (fun s l => s.updCore s.grp.core (fun x => { x with l1 := dropLine x.l1 l })) s
/-- FN 2: L1 lines of the piece written back and discarded. -/
def pieceWbi1 (s : State) (p : Piece) : Option State := allOf (l1In s p s.grp.core) s (fun s l => l1Flush s s.grp.core l)
/-- Dirty L2 lines of the piece written to their home; none where a promotion waits (R297). -/
def pieceWb2 (s : State) (p : Piece) : Option State := homeClean s (dieOf s.grp.core) (l2In s p (dieOf s.grp.core))
/-- L2 lines of the piece discarded. -/
def pieceInv2 (s : State) (p : Piece) : State :=
  (l2In s p (dieOf s.grp.core)).foldl (fun s l => s.updDie (dieOf s.grp.core) (fun x => { x with l2 := dropLine x.l2 l })) s

/-- `cline.wb.l1`, `cline.wb.l2` (R149). -/
def execClineWb (a b : BitVec 5) (l : BitVec 1) (s : State) : Out :=
  rangeOp s a b .load (fun s p => orWait s ((pieceWb1 s p).bind (fun s => if l == 0 then some s else pieceWb2 s p)))
/-- `cline.inv.l1`, `cline.inv.l2` (R149): needs writable pages (R150). -/
def execClineInv (a b : BitVec 5) (l : BitVec 1) (s : State) : Out :=
  rangeOp s a b .store (fun s p => .ok () (if l == 0 then pieceInv1 s p else pieceInv2 (pieceInv1 s p) p))
/-- `cline.wbi.l1`, `cline.wbi.l2` (R149). -/
def execClineWbi (a b : BitVec 5) (l : BitVec 1) (s : State) : Out :=
  rangeOp s a b .load (fun s p =>
    orWait s ((pieceWbi1 s p).bind (fun s => if l == 0 then some s else (pieceWb2 s p).map (fun s => pieceInv2 s p))))

/-- R273: a dirty zero line put into the L2 of a die and journaled. -/
def zeroLine (s : State) (c : Nat) (t : Tr) (line : Nat) : Option State :=
  if awaitsHome s (dieOf c) line then none else
  let z : CLine := { line := line, data := 0, present := 15, dirty := BitVec.allOnes 128, bad := 0, slot := 0, zero := true,
                     gen := (s.die (dieOf c)).gen, bank := 0, home := homeOf (128 * line) (some t.hq), vol := t.vol }
  journalAdd (l2Put s (dieOf c) z) c line

/-- R149, R257: bytes `off` to `off + n - 1` of a line made zero in L2 as dirty bytes, without a fill, and journaled. -/
def zeroPart (s : State) (c : Nat) (t : Tr) (line off n : Nat) : Option State :=
  if awaitsHome s (dieOf c) line then none else
  journalAdd (l2Merge s (dieOf c) line (homeOf (128 * line) (some t.hq)) t.vol (byteMask off n) 0) c line

/-- R149, R257: a piece made zero in L2: whole lines as zero lines, partly covered ones byte by byte. -/
def zeroPiece (s : State) (c : Nat) (p : Piece) : Option State :=
  allOf (List.range (p.lines.2 + 1 - p.lines.1)) s (fun s k =>
    let line := p.lines.1 + k
    let lo := max (128 * line) p.tr.pa
    let hi := min (128 * line + 128) (p.tr.pa + p.len)
    if hi - lo == 128 then zeroLine s c p.tr line else zeroPart s c p.tr line (lo - 128 * line) (hi - lo))

/-- `cline.zero` (R149): L1 copies first written back and discarded. -/
def execClineZero (a b : BitVec 5) (s : State) : Out :=
  rangeOp s a b .store (fun s p => orWait s ((pieceWbi1 s p).bind (fun s => zeroPiece s s.grp.core p)))

-- Far-tier cache maintenance -----------------------------------------------------------------------------------------

/-- R151, R380: an operation on every slot line of a far-tier piece that holds a line of the range, or that is unreadable
and may hold it, each by the entry of its line in the write queue, after the requests that came before (R276). -/
def ftcPiece (s : State) (p : Piece) (op : State → Nat → Nat → Nat → State) : State :=
  if !farRange p.tr.pa then s
  else
    (List.range (p.lines.2 + 1 - p.lines.1)).foldl (fun s k =>
      let hn := p.tr.home
      let s := atEntry s hn (p.lines.1 + k)
      let n := s.ndie hn
      if !ftcOn n then s
      else
        let s := touchSlot s hn (ftcWhere n (p.lines.1 + k)).1
        let w := ftcWhere n (p.lines.1 + k)
        let bad := ftcUnreadable s (ftcLine n w.1 w.2.2)
        if ftcHit s n w.1 w.2.1 w.2.2 || (bad && (ftcTag s n w.1).getD w.2.1 == w.2.1) then op s hn w.1 w.2.2 else s) s

/-- `ftc.wb` (R151). -/
def execFtcWb (a b : BitVec 5) (s : State) : Out := rangeOp s a b .load (fun s p => .ok () (ftcPiece s p ftcWriteOut))
/-- `ftc.inv` (R151): needs writable pages. -/
def execFtcInv (a b : BitVec 5) (s : State) : Out := rangeOp s a b .store (fun s p => .ok () (ftcPiece s p ftcDrop))
/-- `ftc.wbi` (R151). -/
def execFtcWbi (a b : BitVec 5) (s : State) : Out :=
  rangeOp s a b .load (fun s p => .ok () (ftcPiece s p ftcWbi))

/-- The state after a probe has read its slot, in the order of the write queue (R276, R278). -/
def ftcLook (s : State) (t : Tr) : State :=
  if !farRange t.pa || (s.ndie t.home).ftcSize == 0 then s
  else
    let s1 := atEntry s t.home (t.pa / 128)
    touchSlot s1 t.home (ftcWhere (s1.ndie t.home) (t.pa / 128)).1

/-- R152: the result of `ftc.probe` for a translation. DESIGN CHOICE: VALID and DIRTY of a slot line that cannot be read are 0 (log entry 156). -/
def ftcProbe (s : State) (t : Tr) : W64 :=
  if !farRange t.pa then 0
  else
    let n := s.ndie t.home
    let line := t.pa / 128
    let w := ftcWhere n line
    let i := line % 16
    if n.ftcSize == 0 then BitVec.ofNat 64 (2 ^ 62)
    else
      let m (j : Nat) : Nat × Nat := ftcMeta s (ftcLine n w.1 j)
      let cur (j : Nat) : Bool := !ftcUnreadable s (ftcLine n w.1 j) && ftcCurrent n (m j)
      let valid := maskOf 16 (fun j => cur j && (m j).1 % 2 == 1)
      let dirty := maskOf 16 (fun j => cur j && (m j).2 / 2 ^ 15 == 1)
      let hit := ftcTag s n w.1 == some w.2.1
      BitVec.ofNat 64 ((if hit then 2 ^ 63 else 0) + 2 ^ 62 + 2 ^ 61 + valid * 2 ^ 32 + dirty * 2 ^ 16 + i)

/-- `ftc.probe` (R152). -/
def execFtcProbe (d a : BitVec 5) (s : State) : Out :=
  sDo s (fun s => (translate s s.grp.core s.grp.ctxid (s.x a).toNat .load).bind (fun t s => done (ftcLook s t) d (ftcProbe (ftcLook s t) t)))

-- Bank modes ---------------------------------------------------------------------------------------------------------

/-- `bmode.reset` (R196). -/
def execBmodeReset (a : BitVec 5) (s : State) : Out :=
  sDo s (fun s =>
    let f := (s.x a).toNat
    if f ≥ s.grp.fifob then .fault (exc cACCESS f) s
    else if bankStand s (s.grp.scrb + f) .fifo == .waits then .wait s
    else .ok () ((s.updFifo f (fun x => { x with head := 0, tail := 0 })).advance 0))

/-- R196: every granule of a scratch range changed, after the checks; a bank that converts is waited for (log entry 24). -/
def bmodeRange (s : State) (a b : BitVec 5) (k : Group → Nat → Group) : Out :=
  sDo s (fun s =>
    let off := (s.x a).toNat
    let n := (s.x b).toNat
    if n == 0 then .ok () (s.advance 0)
    else if off % 16 != 0 then .fault (exc cALIGN off) s
    else if n % 16 != 0 then .fault (exc cALIGN n) s
    else (scrCheck s off n).bind (fun _ s =>
      .ok () ((s.updGrp (fun g => (List.range (n / 16)).foldl (fun g i => k g (off / 16 + i)) g)).advance 0)))

/-- `bmode.empty` (R196). -/
def execBmodeEmpty (a b : BitVec 5) (s : State) : Out := bmodeRange s a b Group.drain
/-- `bmode.full` (R196). -/
def execBmodeFull (a b : BitVec 5) (s : State) : Out := bmodeRange s a b Group.fill

/-- R196: the result of `bmode.query`. DESIGN CHOICE: of a bank that the group does not hold, or a *gA* above 31, it is MODE 7 with every other
field 0 (log entry 168). -/
def bmodeState (s : State) (b : Nat) : W64 :=
  if b ≥ s.grp.scrb + s.grp.fifob then 7
  else
    let p := s.grp.lmap.getD b 0
    let k := bankOf s b
    let fifo := b ≥ s.grp.scrb
    let drain := k.mode == .drainF || k.mode == .drainW
    let count := if fifo then (s.grp.fifo (b - s.grp.scrb)).count else 0
    BitVec.ofNat 64 (count * 2 ^ 16 + p / 8 * 2 ^ 9 + p * 2 ^ 4 + (if drain then 8 else 0) + if fifo then 2 else 1)

/-- `bmode.query` (R196). -/
def execBmodeQuery (d a : BitVec 5) (s : State) : Out := sAlu s d (bmodeState s (s.x a).toNat)

-- Pages and translations ---------------------------------------------------------------------------------------------

/-- R324: a device-scope release, then an appended entry; the sequence number goes to gD. -/
def tlbAppend (s : State) (d : BitVec 5) (kind va : Nat) : Out :=
  redGate s 3 (fun s => sDo s (fun s =>
    (Acc.guard (highVa va) (exc cPAGE va 16) s).bind (fun _ s => (relG s 3).bind (fun _ s =>
      done (ilAppend s kind s.grp.ctxid (if kind == 0 then va else 0)) d (s.ilSeq.setWidth 64)))))

/-- `tlb.inv` (R324). -/
def execTlbInv (d a : BitVec 5) (s : State) : Out := tlbAppend s d 0 (s.x a).toNat
/-- `tlb.invall` (R324). -/
def execTlbInvall (d : BitVec 5) (s : State) : Out := tlbAppend s d 1 0
/-- `tlb.sync` (R324): every die applies every entry appended so far. -/
def execTlbSync (s : State) : Out := sDo s (fun s => .ok () ((ilApplyAll s).advance 0))

/-- R325: the result of `pg.probe`, and the state after (it may fill TLBs). -/
def pgProbe (s : State) (va : Nat) : W64 × State :=
  if highVa va then (0, s)
  else
    let r := findLeaf s s.grp.core s.grp.ctxid va
    match r.1 with
    | .leaf lvl e _ =>
      let pa := leafPa lvl e va
      if !populated r.2 pa then (0, r.2)
      else
        (BitVec.ofNat 64 (2 ^ 63 + (if lvl == 4 then 0 else if lvl == 3 then 1 else 2) * 2 ^ 61 + fieldOf e 4 4 * 2 ^ 60 +
          fieldOf e 5 5 * 2 ^ 59 + fieldOf e 6 6 * 2 ^ 58 + fieldOf e 7 7 * 2 ^ 57 + fieldOf e 10 10 * 2 ^ 56 +
          fieldOf e 9 8 * 2 ^ 54 + fieldOf e 12 11 * 2 ^ 52 + pa / 65536 * 65536), r.2)
    | _ => (0, r.2)

/-- `pg.probe` (R325): never faults. -/
def execPgProbe (d a : BitVec 5) (s : State) : Out :=
  if noGroup s then .fault .noGroup
  else if walkWaits s s.grp.core s.grp.ctxid (s.x a).toNat then
    .next ((findLeaf s s.grp.core s.grp.ctxid (s.x a).toNat).2.block 0)
  else
    let r := pgProbe s (s.x a).toNat
    .next ((r.2.setX d r.1).advance 0)

/-- Bytes of a page of a leaf at a level. -/
def pageSize (lvl : Nat) : Nat := 2 ^ lvlShift lvl

/-- R326: what the submission of a migration request block answers, and the state with the request queued; 5 while the walk waits for another
module (R346). `b` is the 32-byte block, `c` the core whose translation caches are used. -/
def migSubmit (s : State) (c ctx b : Nat) : Nat × State :=
  let va := b % 2 ^ 64
  let dst := b / 2 ^ 64 % 2 ^ 64
  let ctr := b / 2 ^ 128 % 2 ^ 64
  let stat := b / 2 ^ 192
  if va ≥ 2 ^ 57 || dst ≥ 2 ^ 52 || ctr ≥ 2 ^ 57 || stat ≥ 2 ^ 57 || ctr % 4 != 0 || stat % 8 != 0 || va % 65536 != 0 || dst % 65536 != 0
  then (1, s)
  else
    let r := findLeaf s c ctx va
    match r.1 with
    | .leaf lvl e pa =>
      let s := r.2
      if fieldOf e 12 11 != 0 then (2, s)
      else if va % pageSize lvl != 0 || dst % pageSize lvl != 0 then (1, s)
      else
        let src := fieldOf e 51 16 * 65536
        let region := s.ndies.any (fun n => n.ftcSize != 0 && n.ftcBase < dst + pageSize lvl && dst < n.ftcBase + ftcBytes n.ftcSize)
        if !ownMem s dst || !ownMem s (dst + pageSize lvl - 1) || region || dst == src then (3, s)
        else
          let eng := if homeOf dst (some (fieldOf e 9 8)) < 2 then 0 else 1
          let m : Migr := { ctx := ctx, va := BitVec.ofNat 64 va, dst := dst, ctr := BitVec.ofNat 64 ctr, stat := BitVec.ofNat 64 stat,
                            step := 1, status := 0, level := lvl, src := src, leafPa := pa, leaf := e, done := 0 }
          if (s.migActive.getD eng []).length < 16 then
            (0, { s with migActive := updAt s.migActive eng (fun l => l ++ [m]) })
          else if (s.migQueued.getD eng []).length < 64 then
            (0, { s with migQueued := updAt s.migQueued eng (fun l => l ++ [m]) })
          else (4, s)
    | .wait => (5, r.2)
    | _ => (2, r.2)

/-- A read of `n` bytes within one line at device scope through the group's context (R124, R326). -/
def devLoad (s : State) (va n : Nat) : Acc Nat :=
  (translate s s.grp.core s.grp.ctxid va .load).bind (fun t s =>
    if inRemote t.pa then remoteRead s 0 t.pa va n 3
    else
      let r := homeRead s t.home (t.pa / 128)
      if r.bad &&& blocksOf (t.pa % 128) n != 0 then .fault (uncorrectable va (memSource s t.home t.pa)) r.st
      else .ok (lineRead r.data (t.pa % 128) n) r.st)

/-- `pg.mig` (R326). -/
def execPgMig (d a : BitVec 5) (s : State) : Out :=
  sDo s (fun s =>
    let va := (s.x a).toNat
    (alignedTo s va 32).bind (fun _ s => (devLoad s va 32).bind (fun b s =>
      let r := migSubmit s s.grp.core s.grp.ctxid b
      if r.1 == 5 then .wait r.2
      else done r.2 d (BitVec.ofNat 64 r.1))))

end Sys2Proof.Machine
end

