-- ==== Sys2Proof/Machine/Sync.lean ====
section
/-! DEFINITION. Tokens and the format queue from the scalar stream (R106, R107), the end of a scalar stream and `exit`
(R109, R110), launches and signals (R124, R125), traps and the return from them (R67, R68), `hint.save` (R69), and the
system registers (R70). -/

namespace Sys2Proof.Machine

/-- The peers that a `toksend` or `tokwait` names: V, M, C as 0, 1, 2. -/
def sPeers (v m c : BitVec 1) : List Nat :=
  (if v == 1 then [0] else []) ++ (if m == 1 then [1] else []) ++ (if c == 1 then [2] else [])

/-- `toksend` (R106): a job-scope release comes with it (R104), so reductions of job scope are waited for (R148). -/
def execToksend (v m c : BitVec 1) (n : BitVec 6) (s : State) : Out :=
  let cs := sPeers v m c
  if noGroup s then .fault .noGroup
  else if cs.isEmpty || n == 0 || s.grp.hmode then .next (illegal s 0)
  else redGate s 0 (fun s => sDo s (fun s =>
    if pushRoom s.grp cs n.toNat then .ok () ((s.updGrp (fun g => g.pushToks cs n.toNat)).advance 0) else .wait s))

/-- `tokwait` (R106). -/
def execTokwait (v m c : BitVec 1) (n : BitVec 6) (s : State) : Out :=
  let cs := (sPeers v m c).map (fun y => 3 * y + 3)
  sDoIf s (!cs.isEmpty && n != 0 && !s.grp.hmode) (fun s =>
    match orphan s.grp cs n.toNat with
    | some i => .fault (exc cORPHAN i) s
    | none =>
      if popsReady s.grp cs n.toNat then .ok () ((s.updGrp (fun g => g.updToks cs (fun t => t - n.toNat))).advance 0) else .wait s)

/-- `fmtq` (R107). -/
def execFmtq (a : BitVec 5) (s : State) : Out :=
  sDoIf s (!s.grp.hmode) (fun s =>
    if s.grp.ended 2 then .ok () ((s.updGrp (fun g => { g with fmtres := min 255 (g.fmtres + 1) })).advance 0)
    else if s.grp.fmtq.length ≥ 16 then .wait s
    else .ok () ((s.updGrp (fun g => { g with fmtq := g.fmtq ++ [s.x a] })).advance 0))

/-- R109: the stream enters DRAINING with the result and the pushes it will make. -/
def startDrain (s : State) (st : Nat) (res : BitVec 16) (q : BitVec 3) : State :=
  s.updStream st (fun t => { t with run := .draining, pendResult := res, pendPush := q })

/-- The scalar stream ends (R109, R148). -/
def sEnd (s : State) (res : BitVec 16) : Out :=
  if noGroup s then .fault .noGroup
  else if s.grp.hmode || res == 0xFFFF then .next (illegal s 0)
  else redGate s 4 (fun s => .next (startDrain s 0 res 0))

/-- The scalar `end` (R109). -/
def execEndS (s : State) : Out := sEnd s 0
/-- The scalar `rend` (R109). -/
def execRend (i : BitVec 16) (s : State) : Out := sEnd s i
/-- `exit` (R110): the scalar stream's result is 0xFFFF, also where its own `end` came before the trap. -/
def execExit (i : BitVec 16) (s : State) : Out :=
  redGate s 4 (fun s => .next (stopBoth (s.updStream 0 (fun t => { t with result := 0xFFFF })) .exited (i.setWidth 32) []))

/-- `launch` (R124). -/
def execLaunch (d a b : BitVec 5) (s : State) : Out :=
  redGate s 3 (fun s => sDo s (fun s =>
    let va := (s.x b).toNat
    (alignedTo s va 128).bind (fun _ s => (relG s 3).bind (fun _ s => (devLoad s va 128).bind (fun pkt s =>
      let qn := (s.x a).toNat
      let q := s.queue qn
      let fin (st seq : Nat) (s : State) : Acc Unit := done s d (BitVec.ofNat 64 (st * 2 ^ 32 + seq))
      if qn ≥ 2 ^ 15 then fin 3 0 s
      else if !(q.st == .ready || q.st == .paused) || q.ctx != s.grp.ctxid || !q.devok then fin 1 0 s
      else if (q.tail + 65536 - q.head) % 65536 == 2 ^ q.log2n then fin 2 0 s
      else
        let slot := q.ring.toNat + 128 * (q.tail % 2 ^ q.log2n)
        (devTr q.ctx s.grp.handle .store s slot).bind (fun t s =>
          if inRemote t.pa && tentative s s.grp.handle then .wait s
          else (devWrite s q.ctx slot 128 pkt s.grp.handle).bind (fun _ s =>
            fin 0 q.tail (s.updQueue qn (fun q => { q with tail := (q.tail + 1) % 65536 })))))))))

/-- R125: the checks on a counter's address: ALIGN, translation, the package's own memory. -/
def sigAddr (s : State) (va : Nat) (w : Want) : Acc Tr :=
  (alignedTo s va 4).bind (fun _ s => (translate s s.grp.core s.grp.ctxid va w).bind (fun t s =>
    if inRemote t.pa then .fault (exc cACCESS va) s else .ok t s))

/-- `sig.add` and `sig.set`: a device-scope release, then the atomic at the counter's home (R125). -/
def sigUpdate (s : State) (d a : BitVec 5) (f : Nat → Nat) : Out :=
  redGate s 3 (fun s => sDo s (fun s =>
    let va := (s.x a).toNat
    (sigAddr s va .store).bind (fun t s =>
      let r := homeRead s t.home (t.pa / 128)
      if r.bad &&& blocksOf (t.pa % 128) 4 != 0 then .fault (uncorrectable va (memSource s t.home t.pa)) r.st
      else (relG r.st 3).bind (fun _ s =>
        match homeAtomic s t.home t.pa 4 f with
        | some r => done r.2 d (zextN r.1)
        | none => .fault (uncorrectable va (memSource s t.home t.pa)) (atomicMissed s t.home t.pa)))))

/-- `sig.add` (R125). -/
def execSigAdd (d a b : BitVec 5) (s : State) : Out := sigUpdate s d a (fun c => (c + fieldOf (s.x b) 31 0) % 2 ^ 32)
/-- `sig.set` (R125). -/
def execSigSet (d a b : BitVec 5) (s : State) : Out := sigUpdate s d a (fun _ => fieldOf (s.x b) 31 0)

/-- `sig.wait` (R125): the first value found to satisfy the test ends the wait, whatever happens to the counter or to its page then. -/
def execSigWait (d a b : BitVec 5) (s : State) : Out :=
  sDo s (fun s =>
    let va := (s.x a).toNat
    let θ : W32 := (s.x b).setWidth 32
    let fin (v : W32) (s : State) : Acc Unit :=
      (acqG s 3).bind (fun _ s => done (s.updGrp (fun g => { g with swait := none })) d (v.setWidth 64))
    match s.grp.swait.bind (fun w => w.got) with
    | some v => fin v s
    | none =>
      (sigAddr s va .load).bind (fun t s =>
        let r := homeRead s t.home (t.pa / 128)
        if r.bad &&& blocksOf (t.pa % 128) 4 != 0 then .fault (uncorrectable va (memSource s t.home t.pa)) r.st
        else
          let v : W32 := BitVec.ofNat 32 (lineRead r.data (t.pa % 128) 4)
          if reached v θ then fin v r.st
          else .wait (r.st.updGrp (fun g => { g with swait := some { loc := t.pa, tested := θ, got := none } }))))

/-- R63, R125: an interrupt raised on a live group of this module with a context: whether it was found. -/
def interruptGroup (s : State) (h : W64) (ctx : Nat) (v : W32) : Bool × State :=
  match s.groupOf h with
  | some g => if g.ctxid == ctx then (true, s.updGroup h (fun g => g.interrupt v)) else (false, s)
  | none => (false, s)

/-- `sig.int` (R125): local, or an interrupt packet to the module that the handle names. DESIGN CHOICE: the whole value of gA is compared with
the handles, so one whose RSV bits 41:38 are not zero names no group (log entry 152). -/
def execSigInt (d a b : BitVec 5) (s : State) : Out :=
  sDo s (fun s =>
    let h := s.x a
    let m := fieldOf h 37 32
    let v : W32 := (s.x b).setWidth 32
    if m == s.modid then
      let r := interruptGroup s h s.grp.ctxid v
      done r.2 d (if r.1 then 0 else 1)
    else
      let p := { packet0 m 14 0 with arg := BitVec.ofNat 8 s.grp.ctxid, data := toBytes h 8 ++ toBytes v 4 }
      (remoteAsk s 0 p (remoteBase + m * 2 ^ 45) h.toNat 1).bind (fun r s => done s d (zextN (leNat r % 2))))

-- Pre-emption hints --------------------------------------------------------------------------------------------------

/-- The words of a liveness descriptor from `va`: three, then NRANGE more (Table 4-5); none where a read faults. -/
def livenessWords : Nat → State → Nat → Acc (Option (List W64))
  | 0, s, _ => .ok (some []) s
  | k + 1, s, va =>
    match (alignedTo s va 8).bind (fun _ s => vaRead s 0 va 8) with
    | .ok v s1 =>
      match livenessWords k s1 (va + 8) with
      | .ok (some ws) s2 => .ok (some (BitVec.ofNat 64 v :: ws)) s2
      | .ok none s2 => .ok none s2
      | .fault _ s2 => .ok none s2
      | .wait s2 => .wait s2
    | .fault _ s1 => .ok none s1
    | .wait s1 => .wait s1

/-- Table 4-5, R69: whether a liveness descriptor can be used. -/
def livenessOk (g : Group) (ws : List W64) : Bool :=
  let w1 := ws.getD 1 0
  let w2 := ws.getD 2 0
  fieldOf w1 15 8 == 0 && fieldOf w2 63 20 == 0 && fieldOf w2 19 16 ≤ 8 &&
  (ws.drop 3).all (fun r =>
    fieldOf r 63 32 % 16 == 0 && fieldOf r 31 0 % 16 == 0 && fieldOf r 31 0 + fieldOf r 63 32 ≤ g.scratchSize)

/-- `hint.save` (R69): without a pre-emption request it does nothing; else the group is saved after it, with the liveness
descriptor where it can be read and used. -/
def execHintSave (b : BitVec 5) (i : BitVec 20) (s : State) : Out :=
  sDo s (fun s =>
    if !s.grp.preq || s.grp.hmode then .ok () (s.advance 0)
    else
      let va := (s.x b + 8 * sext64 i).toNat
      let fin (h : Option (List W64)) (s : State) : Acc Unit :=
        let s1 := (s.updGrp (fun g => { g with hint := h })).advance 0
        .ok () { s1 with agenda := .event (.groupSave s.grp.handle) :: s1.agenda }
      (livenessWords 3 s va).bind (fun ws s =>
        match ws with
        | none => fin none s
        | some w3 =>
          let n := fieldOf (w3.getD 2 0) 19 16
          if n > 8 then fin none s
          else (livenessWords n s (va + 24)).bind (fun rs s =>
            match rs with
            | none => fin none s
            | some r => fin (if livenessOk s.grp (w3 ++ r) then some (w3 ++ r) else none) s)))

-- Traps --------------------------------------------------------------------------------------------------------------

/-- `trap` (R67): the return PC is the next instruction; without a handler, or in handler mode, the group ends with status
TRAP. -/
def execTrap (i : BitVec 16) (s : State) : Out :=
  if noGroup s then .fault .noGroup
  else if s.grp.tvec == 0 || s.grp.hmode then .next (stopBoth s .trap (i.setWidth 32) [])
  else .next (takeTrap (s.advance 0) { code := 0xFF, stream := 0, info := i.setWidth 32, fault := none, vld := none })

/-- `rett` (R68). -/
def execRett (s : State) : Out :=
  if noGroup s then .fault .noGroup
  else if !s.grp.hmode then .next (illegal s 0)
  else
    match frameRead 36 s s.grp.tframe.toNat with
    | .ok fr s1 => .next (if s1.grp.pendld && (frameFlush s1).isNone then s1.block 0 else leaveTrap (clearRemote s1 0) fr)
    | .fault e s1 => .next (raise s1 0 e none)
    | .wait s1 => .next (s1.block 0)

/-- `sysr` (R70): ILLEGAL for an unknown register, and for a handler register outside handler mode. -/
def execSysr (d : BitVec 5) (r : BitVec 9) (s : State) : Out :=
  let ok := match sysAcc r.toNat with
    | none => false
    | some .r => true
    | some .rw => true
    | some .h => s.grp.hmode
    | some .hr => s.grp.hmode
  sDoIf s ok (fun s => done s d (sysRead s r.toNat))

/-- `sysw` (R70): ILLEGAL besides for a read-only register. -/
def execSysw (a : BitVec 5) (r : BitVec 9) (s : State) : Out :=
  let ok := match sysAcc r.toNat with
    | some .rw => true
    | some .h => s.grp.hmode
    | _ => false
  sDoIf s ok (fun s => .ok () ((s.updGrp (fun g => sysWrite g r.toNat (s.x a))).advance 0))

end Sys2Proof.Machine
end

