-- ==== Sys2Proof/Machine/Copy.lean ====
section
/-! DEFINITION. The copy stream (chapter 13): address registers and tensor handles (R252 to R254), copy commands with their
checks and elements (R245 to R251, R255 to R262), barrier accounting (R263), signals (R264), prefetch (R265), and the posting
of collectives (R266, R349 to R351). -/

namespace Sys2Proof.Machine

-- Global accesses of the copy engine ---------------------------------------------------------------------------------

/-- A copy read of `n` bytes within one line: the issuing core's L1, then the die's L2 (R248). -/
def copyReadLine (s : State) (t : Tr) (va n : Nat) : Acc Nat :=
  let c := s.grp.core
  let line := t.pa / 128
  let off := t.pa % 128
  let take (s : State) (cl : CLine) : Acc Nat :=
    if cl.bad &&& blocksOf off n != 0 then .fault (uncorrectable va (cl.source t.pa n)) s else .ok (lineRead cl.data off n) s
  if inRemote t.pa then remoteRead s 3 t.pa va n 4
  else if l1Draining s c line then .wait s
  else
    match (l1Find s c line).bind (fun cl => if cl.has off n then some cl else none) with
    | some cl => take s cl
    | none =>
      match (match l1Find s c line with
        | some cl => if cl.dirty != 0 then l1Wb s c cl else some s
        | none => some s) with
      | none => .wait s
      | some s1 =>
        if l2Down s1 (dieOf c) then .wait s1 else
        let s2 := l2Ensure s1 (dieOf c) t (sectorsOf off n)
        match l2Find s2 (dieOf c) line with
        | some cl => take s2 cl
        | none => .wait s2

/-- R279, R280: whether a line lies in the near tier of this module and is held in neither the core's L1 nor the die's L2. -/
def nearOnly (s : State) (pa : Nat) : Bool :=
  nearPop pa && (findLine (s.core s.grp.core).l1 (pa / 128)).isNone && (l2Find s (dieOf s.grp.core) (pa / 128)).isNone

/-- R279, R280: a read in the base die of a stack, which allocates nothing. -/
def stackRead (s : State) (t : Tr) (va n : Nat) : Acc Nat :=
  let r := homeRead s t.home (t.pa / 128)
  if r.bad &&& blocksOf (t.pa % 128) n != 0 then .fault (uncorrectable va (memSource s t.home t.pa)) r.st else .ok (lineRead r.data (t.pa % 128) n) r.st

/-- The parts of a range of `n` bytes by line: address, length, offset in the range. -/
def lineParts (va n : Nat) : List (Nat × Nat × Nat) :=
  (List.range (n / 128 + 2)).filterMap (fun k =>
    let lo := max va (128 * (va / 128 + k))
    let hi := min (va + n) (128 * (va / 128 + k + 1))
    if lo < hi then some (lo % 2 ^ 64, hi - lo, lo - va) else none)

/-- A copy read of a range; with `stencil`, lines of the near tier that no cache of the core holds are read in their stacks. -/
def copyRead (s : State) (va n : Nat) (stencil : Bool) : Acc Nat :=
  (lineParts va n).foldl (fun (acc : Acc Nat) p => acc.bind (fun v s =>
    (translate s s.grp.core s.grp.ctxid p.1 .load).bind (fun t s =>
      (if stencil && nearOnly s t.pa then stackRead s t p.1 p.2.1 else copyReadLine s t p.1 p.2.1).bind (fun w s =>
        .ok (v + w * 2 ^ (8 * p.2.2)) s)))) (.ok 0 s)

/-- R248, R251: the checks of a copy write to one part of a range: translation, reachability, uncorrectable blocks. -/
def copyWriteCheck (s : State) (va n : Nat) : Acc Tr :=
  (translate s s.grp.core s.grp.ctxid va .store).bind (fun t s =>
    let c := s.grp.core
    if inRemote t.pa then
      if tentative s s.grp.handle then .wait s
      else if (routeTo s (remoteMod t.pa)).isNone then .fault (linkDown va (remoteMod t.pa)) s else .ok t s
    else if l1Draining s c (t.pa / 128) || l2Down s (dieOf c) then .wait s
    else (orWait s (l1Flush s c (t.pa / 128))).bind (fun _ s =>
      let s1 := l2Ensure s (dieOf c) t (sectorsOf (t.pa % 128) n)
      match l2Find s1 (dieOf c) (t.pa / 128) with
      | some cl => if cl.bad &&& blocksOf (t.pa % 128) n != 0 then .fault (uncorrectable va (cl.source t.pa n)) s1 else .ok t s1
      | none => .wait s1))

/-- R259, R291: the bits outside `keep` of the naturally aligned 8 bytes at a remote address replaced by those of `v`, indivisibly at the home: a
compare-and-swap against the value read there, tried again with the value found where another write came between (log entry 44). -/
def remoteMerge (s : State) (pa va v keep : Nat) : Acc Unit :=
  (remoteRead s 3 pa va 8 4).bind (fun old s =>
    let new := (old &&& keep) ||| v
    let p := { packet0 (remoteMod pa) 2 4 with
      arg := BitVec.ofNat 8 (7 * 8 + 3), addr := BitVec.ofNat 45 pa, data := bytesOf 16 (new + old * 2 ^ 64) }
    (remoteAsk s 3 p pa va 8).bind (fun b s =>
      if leNat b == old then .ok () s
      else
        .wait (s.updGrp (fun g => { g with
          rwait := (g.rwait.filter (fun r => !(r.stream == 3 && r.pop == 2 && r.pa == pa))).map (fun r =>
            if r.stream == 3 && r.pop == 0 && r.pa == pa then { r with got := some b } else r) }))))

/-- A part of a copy write at another module, acknowledged by its home (R248); where bits of its bytes are kept, its 8-byte parts are
merged. -/
def copyPutRemote (s : State) (t : Tr) (va n v keep : Nat) : Acc Unit :=
  if keep == 0 then
    let p := { packet0 (remoteMod t.pa) 1 4 with addr := BitVec.ofNat 45 t.pa, mask := byteMask (t.pa % 128) n, data := bytesOf n v }
    (remoteAsk s 3 p t.pa va n).bind (fun _ s => .ok () s)
  else
    let lo := t.pa / 8 * 8
    let sh := 8 * (t.pa - lo)
    let k := (t.pa + n - lo + 7) / 8
    let stay := 2 ^ (64 * k) - 1 - (2 ^ (8 * n) - 1) * 2 ^ sh + keep * 2 ^ sh
    (List.range k).foldl (fun (acc : Acc Unit) i => acc.bind (fun _ s =>
      remoteMerge s (lo + 8 * i) va (v * 2 ^ sh / 2 ^ (64 * i) % 2 ^ 64) (stay / 2 ^ (64 * i) % 2 ^ 64))) (.ok () s)

/-- A part of a copy write in the die's L2, whose checks have passed: merged and journaled (R248); none where the journal has to wait. -/
def copyPutLocal (s : State) (t : Tr) (n v keep : Nat) : Option State :=
  let c := s.grp.core
  let off := t.pa % 128
  if awaitsHome s (dieOf c) (t.pa / 128) then none else
  let old := match l2Find s (dieOf c) (t.pa / 128) with
    | some cl => lineRead cl.data off n
    | none => 0
  journalAdd (l2Merge s (dieOf c) (t.pa / 128) t.home t.vol (byteMask off n) (lineAt off ((old &&& keep) ||| v))) c (t.pa / 128)

/-- R246: where an element writes to several places of other modules, or in several parts to one, each is read before the first is written, so that an error at one of
them leaves none written. -/
def copyProbe (s : State) (ts : List ((Nat × Nat × Nat) × Tr)) (keep : Nat) : Acc Unit :=
  if ts.length < 2 && keep == 0 then .ok () s
  else ts.foldl (fun (acc : Acc Unit) x => acc.bind (fun _ s => (remoteRead s 3 x.2.pa x.1.1 x.1.2.1 4).bind (fun _ s => .ok () s))) (.ok () s)

/-- The parts of a copy write whose checks have passed: those at other modules, then those of this die. -/
def copyPuts (s : State) (ps : List CopyPart) : Acc Unit :=
  let tr (x : CopyPart) : Tr := { pa := x.pa, leaf := x.leaf }
  ((ps.filter (fun x => inRemote x.pa)).foldl (fun (acc : Acc Unit) x => acc.bind (fun _ s =>
    copyPutRemote s (tr x) x.va x.n x.v x.keep)) (.ok () s)).bind (fun _ s =>
      orWait s (allOf (ps.filter (fun x => !inRemote x.pa)) s (fun s x => copyPutLocal s (tr x) x.n x.v x.keep)))

/-- R246, R248: a copy write of the `n` low bytes of `v`, with the bits of `keep` left as they are: every check first, then its parts. Once a
part is on its way to another module the write commits: nothing is checked or read again until it is acknowledged. -/
def copyWrite (s : State) (va n v keep : Nat) : Acc Unit :=
  match s.grp.cput with
  | some ps => copyPuts s ps
  | none =>
    let part (x : Nat) (p : Nat × Nat × Nat) : Nat := x / 2 ^ (8 * p.2.2) % 2 ^ (8 * p.2.1)
    ((lineParts va n).foldl (fun (acc : Acc (List ((Nat × Nat × Nat) × Tr))) p => acc.bind (fun ts s =>
      (copyWriteCheck s p.1 p.2.1).bind (fun t s => .ok (ts ++ [(p, t)]) s))) (.ok [] s)).bind (fun ts s =>
      let far := ts.filter (fun x => inRemote x.2.pa)
      let ps : List CopyPart := ts.map (fun x =>
        { va := x.1.1, n := x.1.2.1, v := part v x.1, keep := part keep x.1, pa := x.2.pa, leaf := x.2.leaf })
      (copyProbe s far keep).bind (fun _ s =>
        copyPuts (if far.isEmpty then s else s.updGrp (fun g => { g with cput := some ps })) ps))

/-- A read of `n` bytes within one line at device scope (R254, R266). -/
def copyHome (s : State) (va n : Nat) : Acc Nat :=
  (translate s s.grp.core s.grp.ctxid va .load).bind (fun t s =>
    if inRemote t.pa then remoteRead s 3 t.pa va n 4 else stackRead s t va n)

-- Issue --------------------------------------------------------------------------------------------------------------

/-- A single-step copy instruction: it waits for the copy command in execution (R245). -/
def cDo (s : State) (p q : BitVec 3) (body : State → Acc Unit) : Out :=
  if noGroup s then .fault .noGroup
  else if s.grp.ccmd.isSome then .next (s.block 3)
  else tDo s 3 p q body

/-- R245, R61: a copy command completes. -/
def endCopy (s : State) (push : BitVec 3) : State :=
  ((tokDone s 3 push).updGrp (fun g => { g with ccmd := none, prgc := prgClear g.prgc })).advance 3

/-- R245, R247, R249, R251, R61: the issue of a copy command: reserved flags and odd register numbers are ILLEGAL; then
tokens; `mk` makes the checks and gives the number of elements. -/
def cMulti (s : State) (p q : BitVec 3) (kind : CKind) (legal : Bool) (x y z : BitVec 4) (f : BitVec 8)
    (mk : State → CopyCmd → Acc CopyCmd) : Out :=
  if noGroup s then .fault .noGroup
  else if !legal then .next (illegal s 3)
  else if s.grp.ccmd.isSome then .next (s.block 3)
  else
    let g := s.grp
    let res := prgMatch g.prgc (s.pc 3)
    let e0 := if res then prgElem g.prgc else 0
    let p1 := if res then 0 else p
    let c0 : CopyCmd :=
      { kind := kind, pc := s.pc 3, word := s.iw, x0 := g.a x.toNat, x1 := g.a (x.toNat + 1), y0 := g.a y.toNat,
        y1 := g.a (y.toNat + 1), z0 := g.a z.toNat, z1 := g.a (z.toNat + 1), hnd := g.h y.toNat, flags := f, pops := p,
        push := q, elem := e0, resumed := res, count := 0, desc := [] }
    match (tokCheck s 3 p1 q).bind (fun _ s => mk s c0) with
    | .fault e s1 => .next (raise s1 3 e none)
    | .wait s1 => .next (s1.block 3)
    | .ok c s1 =>
      let s2 := (tokIssue (clearRemote s1 3) 3 p1 q).updGrp (fun g => { g with prgc := if res then g.prgc else prgClear g.prgc })
      if e0 ≥ c.count then .next (endCopy s2 q)
      else .next ((s2.updGrp (fun g => { g with ccmd := some c })).updStream 3 (fun t => { t with run := .ready }))

-- Flags, count registers and checks ----------------------------------------------------------------------------------

/-- BEN (Table 13-1). -/
def CopyCmd.ben (c : CopyCmd) : Bool := bitAt c.flags 7
/-- SETF. -/
def CopyCmd.setf (c : CopyCmd) : Bool := bitAt c.flags 6
/-- IW. -/
def CopyCmd.iw (c : CopyCmd) : Bool := bitAt c.flags 5
/-- SLOC. -/
def CopyCmd.sloc (c : CopyCmd) : Bool := bitAt c.flags 1
/-- DLOC. -/
def CopyCmd.dloc (c : CopyCmd) : Bool := bitAt c.flags 0

/-- The count register of a command (R250). -/
def CopyCmd.creg (c : CopyCmd) : W64 :=
  match c.kind with
  | .ctld => c.z1
  | .ctst => c.z1
  | _ => c.z0

/-- BAR of the count register (R250). -/
def CopyCmd.bar (c : CopyCmd) : Nat := fieldOf c.creg 63 56

/-- Whether the flags name only those of a mask (R249). -/
def flagsIn (f : BitVec 8) (m : BitVec 8) : Bool := f &&& ~~~m == 0

/-- R251 steps 1 and 2: FMT_INVALID with the count register, then BARRIER_RANGE. -/
def copyPre (s : State) (c : CopyCmd) (bad : Bool) : Acc Unit :=
  if bad then .fault (exc cFMTINV c.creg.toNat) s
  else if c.ben && !(match s.grp.bmap[c.bar]? with
      | some e => e.kind != .unmapped
      | none => false) then .fault (barRange c.bar) s
  else .ok () s

/-- R251 step 3: the first value that is not a multiple of 16, in the order given. -/
def copyAlign (s : State) (xs : List Nat) : Acc Unit :=
  match xs.find? (fun x => x % 16 != 0) with
  | some x => .fault (exc cALIGN x) s
  | none => .ok () s

/-- The FIFO that a local address names (R194). -/
def fifoOf (a : Nat) : Nat := (a - fifoBase) / bankBytes

/-- R251 step 4: ACCESS_FAULT, then BANK_MODE, at the lowest offending offset of the scratch regions and FIFO addresses of a
command; it waits for a bank that converts. -/
def copyLocal (s : State) (rs : Regions) (fs : List Nat) : Acc Unit :=
  match least ((regionOut s rs).toList ++ fs.filter (fun a => fifoOf a ≥ s.grp.fifob)) with
  | some o => .fault (exc cACCESS o) s
  | none =>
    let bank (a : Nat) : Nat := s.grp.scrb + fifoOf a
    let wrong := fs.filter (fun a => match bankStand s (bank a) .fifo with
      | .other _ => true
      | _ => false)
    match least ((regionWrong s rs).toList ++ wrong) with
    | some o =>
      .fault (exc cBANKMODE o (if o ≥ fifoBase then modeFound s (bank o) .fifo else modeFound s (o / bankBytes) .scratch)) s
    | none =>
      if (regionTouched rs).any (fun x => bankStand s x.2 .scratch == .waits) || fs.any (fun a => bankStand s (bank a) .fifo == .waits)
      then .wait s else .ok () s

/-- Whether an operand is a FIFO address: local and from 0x8000_0000 upward (R194, R255). -/
def isFifo (loc : Bool) (a : W64) : Bool := loc && a.toNat ≥ fifoBase

/-- The command with a number of elements, once its checks have passed. -/
def CopyCmd.counted (c : CopyCmd) (n : Nat) (k : Acc Unit) : Acc CopyCmd := k.bind (fun _ s => .ok { c with count := n } s)

/-- LEN of a linear command (R255, R257). -/
def CopyCmd.len (c : CopyCmd) : Nat := fieldOf c.z0 35 0

/-- Checks of `cpy` (R255). -/
def mkCpy (s : State) (c : CopyCmd) : Acc CopyCmd :=
  if c.len == 0 then .ok c s
  else
    let df := isFifo c.dloc c.x0
    let sf := isFifo c.sloc c.y0
    c.counted (c.len / 16) ((copyPre s c (c.len % 16 != 0 || (df && c.setf))).bind (fun _ s =>
      (copyAlign s [c.x0.toNat, c.y0.toNat]).bind (fun _ s =>
        copyLocal s ((if c.dloc && !df then [(c.x0.toNat, c.len)] else []) ++ if c.sloc && !sf then [(c.y0.toNat, c.len)] else [])
          ((if df then [c.x0.toNat] else []) ++ if sf then [c.y0.toNat] else []))))

/-- The address of row `r` under a signed pitch (R256). -/
def rowAt (base pitch : W64) (r : Nat) : Nat := (base + BitVec.ofNat 64 r * pitch).toNat

/-- Checks of `cpy.s` (R256). -/
def mkCpyS (s : State) (c : CopyCmd) : Acc CopyCmd :=
  let nr := fieldOf c.z0 39 20
  let gr := fieldOf c.z0 19 0
  if nr * gr == 0 then .ok c s
  else
    let df := isFifo c.dloc c.x0
    let sf := isFifo c.sloc c.y0
    let rows (b p : W64) : Regions := (List.range nr).map (fun r => (rowAt b p r, 16 * gr))
    c.counted (nr * gr) ((copyPre s c (nr * gr > 2 ^ 32 || (df && c.setf))).bind (fun _ s =>
      (copyAlign s [c.x0.toNat, c.y0.toNat, c.x1.toNat, c.y1.toNat]).bind (fun _ s =>
        copyLocal s ((if c.dloc && !df then rows c.x0 c.x1 else []) ++ if c.sloc && !sf then rows c.y0 c.y1 else [])
          ((if df then [c.x0.toNat] else []) ++ if sf then [c.y0.toNat] else []))))

/-- Checks of `czero` and `cfill` (R257). -/
def mkFill (s : State) (c : CopyCmd) : Acc CopyCmd :=
  if c.len == 0 then .ok c s
  else
    c.counted (c.len / 16) ((copyPre s c (c.len % 16 != 0)).bind (fun _ s => (copyAlign s [c.x0.toNat]).bind (fun _ s =>
      copyLocal s (if c.dloc then [(c.x0.toNat, c.len)] else []) [])))

/-- Element width *b* of a tensor handle in bits (Table 13-3). -/
def hBits (h : BitVec 256) : Nat := 4 * 2 ^ fieldOf h 185 184
/-- COLS. -/
def hCols (h : BitVec 256) : Nat := fieldOf h 95 64
/-- ROWS. -/
def hRows (h : BitVec 256) : Nat := fieldOf h 127 96
/-- TH of a tile. -/
def CopyCmd.th (c : CopyCmd) : Nat := fieldOf c.z1 31 16
/-- TW of a tile. -/
def CopyCmd.tw (c : CopyCmd) : Nat := fieldOf c.z1 15 0
/-- Bytes of a tile row. -/
def CopyCmd.rowBytes (c : CopyCmd) : Nat := c.tw * hBits c.hnd / 8
/-- *D*, the distance of tile rows in scratch (R258). -/
def CopyCmd.dist (c : CopyCmd) : Nat := if fieldOf c.z1 47 32 == 0 then c.rowBytes else 16 * fieldOf c.z1 47 32

/-- Checks of `ctld` and `ctst` (R258, R259). -/
def mkTile (s : State) (c : CopyCmd) : Acc CopyCmd :=
  if c.th == 0 || c.tw == 0 then .ok c s
  else
    let bad := hRows c.hnd == 0 || hCols c.hnd == 0 || c.tw * hBits c.hnd % 128 != 0 ||
      (fieldOf c.z1 47 32 != 0 && 16 * fieldOf c.z1 47 32 < c.rowBytes)
    c.counted (c.th * (c.rowBytes / 16)) ((copyPre s c bad).bind (fun _ s => (copyAlign s [c.x0.toNat]).bind (fun _ s =>
      copyLocal s ((List.range c.th).map (fun r => (c.x0.toNat + r * c.dist, c.rowBytes))) [])))

/-- RS of a gather or scatter (R260). -/
def CopyCmd.rs (c : CopyCmd) : Nat := fieldOf c.z0 47 40
/-- Bytes of an index. -/
def CopyCmd.iBytes (c : CopyCmd) : Nat := if c.iw then 8 else 4

/-- Checks of `cgath` and `cscat` (R260). -/
def mkGather (s : State) (c : CopyCmd) : Acc CopyCmd :=
  let n := fieldOf c.z0 31 0
  if n == 0 then .ok c s
  else
    c.counted n ((copyPre s c (c.rs == 0)).bind (fun _ s =>
      (copyAlign s [c.x1.toNat, c.x0.toNat, c.y0.toNat]).bind (fun _ s =>
        copyLocal s [(c.y0.toNat, n * c.iBytes), (c.x0.toNat, n * (16 * c.rs))] [])))

/-- Word `i` of the walk descriptor (Table 13-4). -/
def CopyCmd.dw (c : CopyCmd) (i : Nat) : W64 := c.desc.getD i 0
/-- LEN of a walk. -/
def CopyCmd.wLen (c : CopyCmd) : Nat := fieldOf (c.dw 3) 42 32

/-- Checks of `cwalk`, in its own order (R261). -/
def mkWalk (s : State) (c : CopyCmd) : Acc CopyCmd :=
  let nw := fieldOf c.z0 31 0
  if nw == 0 then .ok c s
  else
    (Acc.guard (c.y0.toNat % 64 != 0) (exc cALIGN c.y0.toNat) s).bind (fun _ s => (copyRead s c.y0.toNat 64 false).bind (fun v s =>
      let c : CopyCmd := { c with desc := tab 8 (fun i => BitVec.ofNat 64 (v / 2 ^ (64 * i))) }
      let rsv := fieldOf (c.dw 0) 63 57 != 0 || fieldOf (c.dw 1) 63 57 != 0 || fieldOf (c.dw 2) 63 32 != 0 ||
        fieldOf (c.dw 3) 63 43 != 0 || (c.desc.drop 4).any (fun w => w != 0)
      let bad := rsv || c.wLen == 0 || c.wLen > 1024 || fieldOf (c.dw 0) 56 0 % 8 != 0 || fieldOf (c.dw 1) 56 0 % 4 != 0 ||
        nw * c.wLen > 2 ^ 32
      c.counted (nw * c.wLen) ((copyPre s c bad).bind (fun _ s => (copyAlign s [c.x0.toNat]).bind (fun _ s =>
        copyLocal s [(c.x0.toNat, nw * (4 * (c.wLen + 1)))] [])))))

/-- Checks of `ccoll` (R266). -/
def mkColl (s : State) (c : CopyCmd) : Acc CopyCmd :=
  let n := fieldOf c.z0 31 0
  if n == 0 then .ok c s
  else c.counted n (Acc.guard (c.x0.toNat % 128 != 0) (exc cALIGN c.x0.toNat) s)

-- Elements -----------------------------------------------------------------------------------------------------------

/-- R250: the object of the command's barrier, found before the element commits. -/
def copyBar (s : State) (c : CopyCmd) : Acc Nat :=
  if c.ben then (barEnt s c.bar).bind (fun e s => .ok e.obj s) else .ok 0 s

/-- R250: `n` count-downs of the command's barrier. -/
def copyDown (s : State) (c : CopyCmd) (obj : Nat) (out : Bool) (n : Nat) : State :=
  if c.ben then (List.range n).foldl (fun s _ => barDown s s.grp.core obj out) s else s

/-- `n` bytes of scratch written by a copy command; with SETF every granule touched becomes full (Table 13-1). -/
def copyScr (s : State) (c : CopyCmd) (off n v : Nat) : State :=
  let s1 := s.setScr off n v
  if c.setf then
    s1.updGrp (fun g => (List.range ((off + n - 1) / 16 + 1 - off / 16)).foldl (fun g i => g.fill (off / 16 + i)) g)
  else s1

/-- The granule that an element of `cpy` or `cpy.s` reads: from a FIFO's HEAD, scratch or global memory (R255). -/
def moveRead (s : State) (c : CopyCmd) (a : Nat) : Acc Nat :=
  if isFifo c.sloc c.y0 then
    let f := s.grp.fifo (fifoOf c.y0.toNat)
    if f.count == 0 then .wait s
    else if f.badTop 1 then .fault (uncorrectable c.y0.toNat 1) s
    else .ok f.top.toNat s
  else if c.sloc then scrGet s a 16
  else copyRead s a 16 false

/-- Whether the source of a command is a FIFO (R255, R256). -/
def CopyCmd.fromFifo (c : CopyCmd) : Bool := (c.kind == .cpy || c.kind == .cpys) && isFifo c.sloc c.y0

/-- The FIFO source of an element popped, as the element commits (R255). -/
def movePop (s : State) (c : CopyCmd) : State :=
  if isFifo c.sloc c.y0 then s.updFifo (fifoOf c.y0.toNat) Fifo.pop else s

/-- An element of `cpy` or `cpy.s`: the granule at `src` moved to `dst` (R255, R256). What goes to another module is popped as it is sent. -/
def moveEl (s : State) (c : CopyCmd) (dst src : Nat) : Acc Unit :=
  (copyBar s c).bind (fun obj s => (moveRead s c src).bind (fun v s =>
    if isFifo c.dloc c.x0 then
      let f := fifoOf c.x0.toNat
      let same := isFifo c.sloc c.y0 && fifoOf c.y0.toNat == f
      if (s.grp.fifo f).count ≥ (if same then 8193 else 8192) then .wait s
      else .ok () (copyDown ((movePop s c).updFifo f (fun x => x.push (BitVec.ofNat 128 v))) c obj false 1)
    else if c.dloc then .ok () (copyDown (copyScr (movePop s c) c dst 16 v) c obj false 1)
    else
      match copyWrite s dst 16 v 0 with
      | .ok _ s1 => .ok () (copyDown (movePop s1 c) c obj true 1)
      | .wait s1 => .wait (if s1.grp.cput.isSome then movePop s1 c else s1)
      | .fault e s1 => .fault e s1))

/-- An element of `czero` or `cfill` (R257): in global memory `czero` makes zero lines of the lines it covers whole. -/
def fillEl (s : State) (c : CopyCmd) : Acc Unit :=
  let a := (c.x0.toNat + 16 * c.elem) % 2 ^ 64
  let v := if c.kind == .czero then 0 else c.y0.toNat * (2 ^ 64 + 1)
  (copyBar s c).bind (fun obj s =>
    if c.dloc then .ok () (copyDown (copyScr s c a 16 v) c obj false 1)
    else
      let base := a / 128 * 128
      let whole := c.kind == .czero && c.x0.toNat ≤ base && base + 128 ≤ c.x0.toNat + c.len
      (if whole then
        (translate s s.grp.core s.grp.ctxid a .store).bind (fun t s =>
          if inRemote t.pa then copyWrite s a 16 0 0
          else if l1Draining s s.grp.core (t.pa / 128) then .wait s
          else
            orWait s ((l1Flush s s.grp.core (t.pa / 128)).bind (fun s1 =>
              if a % 128 == 112 then zeroLine s1 s.grp.core t (t.pa / 128) else zeroPart s1 s.grp.core t (t.pa / 128) (t.pa % 128) 16)))
      else copyWrite s a 16 v 0).bind (fun _ s => .ok () (copyDown s c obj true 1)))

/-- R253, R258: the tensor row, the first and the last-but-one tensor column inside the tensor, and the first tile position of
an element of a tile command, as (row, low, high, first). -/
def tileSpan (c : CopyCmd) : Int × Int × Int × Int :=
  let g := c.rowBytes / 16
  let y : Int := (BitVec.ofNat 32 (fieldOf c.z0 63 32)).toInt + (c.elem / g : Nat)
  let x : Int := (BitVec.ofNat 32 (fieldOf c.z0 31 0)).toInt + (c.elem % g * (128 / hBits c.hnd) : Nat)
  (y, max x 0, min (x + (128 / hBits c.hnd : Nat)) (hCols c.hnd : Nat), x)

/-- Whether an element covers a position inside the tensor. -/
def tileInside (c : CopyCmd) : Bool :=
  let t := tileSpan c
  0 ≤ t.1 && t.1 < (hRows c.hnd : Nat) && t.2.1 < t.2.2.1

/-- The virtual address of the first byte of an element's positions inside the tensor, modulo 2^64, and their bytes. -/
def tileAddr (c : CopyCmd) : Nat × Nat :=
  let t := tileSpan c
  let b := hBits c.hnd
  let lo := t.2.1.toNat
  let hi := t.2.2.1.toNat
  ((fieldOf c.hnd 56 0 + t.1.toNat * fieldOf c.hnd 175 128 + lo * b / 8) % 2 ^ 64, (hi * b + 7) / 8 - lo * b / 8)

/-- Where the positions inside the tensor stand: the bit of the granule, the bit of the bytes at `tileAddr`, their number. -/
def tileBits (c : CopyCmd) : Nat × Nat × Nat :=
  let t := tileSpan c
  let b := hBits c.hnd
  ((t.2.1 - t.2.2.2).toNat * b, t.2.1.toNat * b % 8, (t.2.2.1 - t.2.1).toNat * b)

/-- The scratch offset of an element's granule (R258). -/
def tileOff (c : CopyCmd) : Nat :=
  let g := c.rowBytes / 16
  c.x0.toNat + c.elem / g * c.dist + 16 * (c.elem % g)

/-- A granule of pad values (R258). -/
def tilePad (c : CopyCmd) : Nat :=
  let b := hBits c.hnd
  packNat b (List.replicate (128 / b) (fieldOf c.hnd 223 192 % 2 ^ b))

/-- An element of `ctld` (R258). -/
def ctldEl (s : State) (c : CopyCmd) : Acc Unit :=
  (copyBar s c).bind (fun obj s =>
    (if tileInside c then
      let a := tileAddr c
      let w := tileBits c
      (copyRead s a.1 a.2 true).bind (fun v s =>
        let hole := (2 ^ w.2.2 - 1) * 2 ^ w.1
        .ok ((tilePad c &&& (2 ^ 128 - 1 - hole)) ||| (v / 2 ^ w.2.1 % 2 ^ w.2.2 * 2 ^ w.1)) s)
    else .ok (tilePad c) s).bind (fun v s => .ok () (copyDown (copyScr s c (tileOff c) 16 v) c obj false 1)))

/-- An element of `ctst` (R259): only the bytes, or the nibbles, of positions inside the tensor are written. -/
def ctstEl (s : State) (c : CopyCmd) : Acc Unit :=
  (copyBar s c).bind (fun obj s =>
    (if tileInside c then
      let a := tileAddr c
      let w := tileBits c
      (scrGet s (tileOff c) 16).bind (fun v s =>
        copyWrite s a.1 a.2 (v / 2 ^ w.1 % 2 ^ w.2.2 * 2 ^ w.2.1) (2 ^ (8 * a.2) - 1 - (2 ^ w.2.2 - 1) * 2 ^ w.2.1))
    else .ok () s).bind (fun _ s => .ok () (copyDown s c obj true 1)))

/-- An element of `cgath` or `cscat` (R260). -/
def gatherEl (s : State) (c : CopyCmd) : Acc Unit :=
  let n := 16 * c.rs
  let off := c.x0.toNat + n * c.elem
  (copyBar s c).bind (fun obj s => (scrGet s (c.y0.toNat + c.iBytes * c.elem) c.iBytes).bind (fun i s =>
    let a := (c.x1.toNat + n * i) % 2 ^ 64
    if c.kind == .cgath then
      (copyRead s a n false).bind (fun v s => .ok () (copyDown (copyScr s c off n v) c obj false c.rs))
    else
      (scrGet s off n).bind (fun v s => (copyWrite s a n v 0).bind (fun _ s => .ok () (copyDown s c obj true c.rs)))))

/-- The hash of a walk step (R262). -/
def walkHash (seed w st : Nat) : Nat :=
  let x := (seed + 0x9E3779B9 * w + 0x85EBCA6B * st) % 2 ^ 32
  let x := x ^^^ (x / 2 ^ 16)
  let x := x * 0x7FEB352D % 2 ^ 32
  let x := x ^^^ (x / 2 ^ 15)
  let x := x * 0x846CA68B % 2 ^ 32
  x ^^^ (x / 2 ^ 16)

/-- One read of a walk step: in the tracer (`tr`) only from a line that no cache of the core holds, else none (R280). -/
def walkRead (s : State) (va n : Nat) (tr : Bool) : Acc (Option Nat) :=
  (translate s s.grp.core s.grp.ctxid va .load).bind (fun t s =>
    if !tr then (copyReadLine s t va n).bind (fun v s => .ok (some v) s)
    else if nearOnly s t.pa then (stackRead s t va n).bind (fun v s => .ok (some v) s)
    else .ok none s)

/-- The next node of step `st` of walk `w` from node `v`; none where the tracer does not perform the step (R262, R280). -/
def walkNext (s : State) (c : CopyCmd) (w st v : Nat) (tr : Bool) : Acc (Option Nat) :=
  let offs := fieldOf (c.dw 0) 56 0
  let adj := fieldOf (c.dw 1) 56 0
  if v ≥ fieldOf (c.dw 2) 31 0 then .ok (some 0xFFFFFFFF) s
  else
    (walkRead s ((offs + 8 * v) % 2 ^ 64) 8 tr).bind (fun lo s => (walkRead s ((offs + 8 * v + 8) % 2 ^ 64) 8 tr).bind (fun hi s =>
      match lo, hi with
      | some lo, some hi =>
        let deg := min ((hi + 2 ^ 64 - lo) % 2 ^ 64) (2 ^ 32 - 1)
        if deg == 0 then .ok (some 0xFFFFFFFF) s
        else
          let k := walkHash (fieldOf (c.dw 3) 31 0) w st * deg / 2 ^ 32
          walkRead s ((adj + 4 * ((lo + k) % 2 ^ 64)) % 2 ^ 64) 4 tr
      | _, _ => .ok none s))

/-- An element of `cwalk` (R262). -/
def walkEl (s : State) (c : CopyCmd) : Acc Unit :=
  let w := c.elem / c.wLen
  let st := c.elem % c.wLen
  let slot := c.x0.toNat + 4 * (c.wLen + 1) * w + 4 * st
  (copyBar s c).bind (fun obj s => (scrGet s slot 4).bind (fun v s => (walkNext s c w st v true).bind (fun r s =>
    (match r with
      | some x => Acc.ok (some x) s
      | none => walkNext s c w st v false).bind (fun x s =>
        let s1 := copyScr s c (slot + 4) 4 (x.getD 0)
        .ok () (if st + 1 == c.wLen then copyDown s1 c obj false 1 else s1)))))

-- Collectives --------------------------------------------------------------------------------------------------------

/-- R349: the modules of a collective group by rank, and this module's rank, none where the group is not defined or
its entry breaks the rule. A nonzero RSV bit of the entry breaks it too (DESIGN CHOICE, log entry 119). -/
def cgEntry (s : State) (cg : Nat) : Acc (Option (List Nat × Nat)) := (physAsk s (s.host.cgbase.toNat + 64 * cg) 64).bind fun r s =>
  let v := r.1
  let n := v % 256
  let rank := v / 256 % 256
  let byte (k : Nat) : Nat := v / 2 ^ (8 * (16 + k)) % 256
  let mods := (List.range n).map byte
  .ok (if n < 2 || n > 48 || rank ≥ n || v / 2 ^ 16 % 2 ^ 112 != 0 || (List.range 48).any (fun k => n ≤ k && byte k != 0) ||
    mods.any (fun m => m ≥ 64) || mods.eraseDups.length != n || mods.getD rank 64 != s.modid
  then none else some (mods, rank)) s

/-- Bytes of an element of a DTYPE (Table 19-5). -/
def dtypeBytes (d : Nat) : Nat := if d == 0 || d == 3 then 4 else if d == 4 then 1 else 2

/-- Fields of a collective parameter block (Table 19-5). -/
structure CollBlock where
  op : Nat
  dty : Nat
  redop : Nat
  alg : Nat
  bw : Nat
  cg : Nat
  root : Nat
  seq : Nat
  src : Nat
  dst : Nat
  bucket : Nat
  count : Nat
  trig : Nat
  thresh : Nat
  donectr : Nat
  stat : Nat
deriving DecidableEq, Repr

/-- The fields of a block of 16 words. -/
def collBlock (ws : List W64) : CollBlock :=
  let w (i hi lo : Nat) : Nat := fieldOf (ws.getD i 0) hi lo
  { op := w 0 63 60, dty := w 0 59 56, redop := w 0 55 52, alg := w 0 51 50, bw := w 0 49 48, cg := w 0 47 40, root := w 0 39 32,
    seq := w 0 31 0, src := w 1 56 0, dst := w 2 56 0, bucket := w 3 63 32, count := w 3 31 0, trig := w 4 56 0, thresh := w 5 31 0,
    donectr := w 6 56 0, stat := w 7 56 0 }

/-- Table 19-6: whether a member of a rank uses SRC. -/
def CollBlock.usesSrc (b : CollBlock) (rank : Nat) : Bool := b.op != 3 || rank == b.root
/-- Table 19-6: whether a member of a rank uses DST. -/
def CollBlock.usesDst (b : CollBlock) (rank : Nat) : Bool := b.op != 4 || rank == b.root
/-- Table 19-6: elements of DST. -/
def CollBlock.dstCount (b : CollBlock) (n : Nat) : Nat := if b.op == 1 then b.count / n else if b.op == 2 then b.count * n else b.count

/-- R351: whether posting a block raises FMT_INVALID, with the entry of its group. -/
def collBad (s : State) (ws : List W64) (ent : Option (List Nat × Nat)) : Bool :=
  let b := collBlock ws
  let rsv := (ws.drop 8).any (fun w => w != 0) || [1, 2, 4, 6, 7].any (fun i => fieldOf (ws.getD i 0) 63 57 != 0) ||
    fieldOf (ws.getD 5 0) 63 32 != 0
  rsv || b.op > 4 || b.dty > 4 || b.redop > 3 || b.bw > 1 || ((b.op == 2 || b.op == 3) != (b.redop == 3)) ||
  ((b.dty == 3 || b.dty == 4) && b.redop != 3) ||
  match ent with
  | none => true
  | some (mods, rank) =>
    let n := mods.length
    (if b.op == 3 || b.op == 4 then b.root ≥ n else b.root != 0) || b.bucket == 0 ||
    (b.op == 1 && (b.count % n != 0 || b.bucket % n != 0)) ||
    (b.usesSrc rank && b.src % dtypeBytes b.dty != 0) || (b.usesDst rank && b.dst % dtypeBytes b.dty != 0) ||
    s.colls.any (fun c => (collBlock c.words).cg == b.cg && (collBlock c.words).seq == b.seq)

/-- The translations of a range as a posted block keeps them (R350): virtual page of 64 KiB, physical page, leaf. -/
abbrev CollPages := List (Nat × Nat × W64)

/-- R350, R351: a buffer of a block translated at posting. -/
def collBuffer (s : State) (va n : Nat) (w : Want) : Acc CollPages :=
  (pieces s va n w).bind (fun ps s => .ok (ps.map (fun p => (p.va / 65536, p.tr.pa / 65536, p.tr.leaf))) s)

/-- R350, R351: a counter or status word of a block translated at posting, where it is named. -/
def collWord (s : State) (va n : Nat) (w : Want) : Acc CollPages :=
  if va == 0 then .ok [] s
  else (alignedTo s va n).bind (fun _ s => collBuffer s va n w)

/-- R352: what this member tells the others when it posts: words 0 and 3 of the block, sent in class CTRL (log entry 16). -/
def collPost (s : State) (mods : List Nat) (ws : List W64) : State :=
  (mods.filter (fun m => m != s.modid)).foldl (fun s m =>
    sendReply s { packet0 m 12 0 with data := bytesOf 8 (ws.getD 0 0).toNat ++ bytesOf 8 (ws.getD 3 0).toNat }) s

/-- R119, R353: a trigger counter in this module is tested as it is armed. -/
def Coll.arm (c : Coll) (s : State) : Coll :=
  match c.trigPa with
  | some pa => if pa < remoteBase then c.fire (counterAt s pa) else c
  | none => c

/-- An element of `ccoll` (R266, R350, R351): the block is read and checked, its addresses are translated, and the engine
takes it, once it is READY (R367) and has room and the gang of the group is not TENTATIVE (R361). -/
def collEl (s : State) (c : CopyCmd) : Acc Unit :=
  let va := (c.x0.toNat + 128 * c.elem) % 2 ^ 64
  (copyHome s va 128).bind (fun v s =>
    let ws : List W64 := tab 16 (fun i => BitVec.ofNat 64 (v / 2 ^ (64 * i)))
    let b := collBlock ws
    let z := dtypeBytes b.dty
    (cgEntry s b.cg).bind fun ent s =>
    let e := ent.getD ([], 0)
    (Acc.guard (collBad s ws ent) (exc cFMTINV c.z0.toNat) s).bind (fun _ s =>
      (if b.usesSrc e.2 then collBuffer s b.src (b.count * z) .load else .ok [] s).bind (fun p1 s =>
        (if b.usesDst e.2 then collBuffer s b.dst (b.dstCount e.1.length * z) .store else .ok [] s).bind (fun p2 s =>
          (collWord s b.trig 4 .load).bind (fun p3 s => (collWord s b.donectr 4 .store).bind (fun p4 s =>
            (collWord s b.stat 8 .store).bind (fun p5 s =>
              if s.colls.length ≥ 64 || notReady s 153 || tentative s s.grp.handle then .wait s
              else
                let d : Coll := { handle := s.grp.handle, pc := c.pc, word := c.word, elem := c.elem, cnt := c.z0,
                                  blockVa := BitVec.ofNat 64 va, ctx := s.grp.ctxid, words := ws, since := s.cycle,
                                  mods := e.1, rank := e.2, matched := false, pages := p1 ++ p2 ++ p3 ++ p4 ++ p5,
                                  fired := [], started := [], ended := [], written := [] }
                .ok () { collPost s e.1 ws with colls := s.colls ++ [d.arm s] })))))))

-- The element in execution -------------------------------------------------------------------------------------------

/-- An element whose write is on its way to another module: with its acknowledgement it is performed, and counts down where its barrier is still
the group's (R246, R248, R250). -/
def commitEl (s : State) (c : CopyCmd) : Acc Unit :=
  (copyWrite s 0 0 0 0).bind (fun _ s => .ok () (match copyBar s c with
    | .ok obj s => copyDown s c obj true (if c.kind == .cscat then c.rs else 1)
    | _ => s))

/-- One element of the copy command in execution (R246). -/
def copyEl (s : State) (c : CopyCmd) : Acc Unit :=
  if s.grp.cput.isSome then commitEl s c
  else match c.kind with
  | .cpy =>
    moveEl s c (if isFifo c.dloc c.x0 then 0 else (c.x0.toNat + 16 * c.elem) % 2 ^ 64)
      (if isFifo c.sloc c.y0 then 0 else (c.y0.toNat + 16 * c.elem) % 2 ^ 64)
  | .cpys =>
    let gr := fieldOf c.z0 19 0
    moveEl s c ((rowAt c.x0 c.x1 (c.elem / gr) + 16 * (c.elem % gr)) % 2 ^ 64) ((rowAt c.y0 c.y1 (c.elem / gr) + 16 * (c.elem % gr)) % 2 ^ 64)
  | .ctld => ctldEl s c
  | .ctst => ctstEl s c
  | .cgath => gatherEl s c
  | .cscat => gatherEl s c
  | .cwalk => walkEl s c
  | .czero => fillEl s c
  | .cfill => fillEl s c
  | .ccoll => collEl s c

/-- A fault at an element (R246, R103): before the first element of a fresh issue with pops these are undone and nothing is
recorded (log entry 28); else the command is cut at the element. What it had popped for another module goes back. -/
def copyFault (s0 : State) (c : CopyCmd) (e : Exc) : State :=
  let s := match s0.grp.cput with
    | some (x :: _) => if c.fromFifo then s0.updFifo (fifoOf c.y0.toNat) (fun f => f.unpop (BitVec.ofNat 128 x.v)) else s0
    | _ => s0
  let s1 := if c.elem == 0 && !c.resumed && c.pops != 0 then
      (tokRelease s 3 c.push).updGrp (fun g => { g.updToks (popSet 3 c.pops) (fun t => min 63 (t + 1)) with ccmd := none })
    else cutCopy s
  raise { s1 with iw := c.word } 3 e (some c.elem)

/-- An element of the copy command in execution is performed, and the command completes with its last (R245, R246). -/
def execCopyElement (h : BitVec 64) (s : State) : Out :=
  let s := s.focus h
  match s.grp.ccmd with
  | none => .next s
  | some c =>
    if !(s.focused h && goesOn s 3) then .next s
    else
      match copyEl s c with
      | .fault e s1 => .next (copyFault s1 c e)
      | .wait s1 => .next s1
      | .ok _ s1 =>
        let s2 := clearRemote s1 3
        .next (if c.elem + 1 ≥ c.count then endCopy s2 c.push
          else s2.updGrp (fun g => { g with ccmd := some { c with elem := c.elem + 1 } }))

-- The commands -------------------------------------------------------------------------------------------------------

/-- `cpy` (R255). -/
def execCpy (p q : BitVec 3) (x y z : BitVec 4) (f : BitVec 8) (s : State) : Out :=
  cMulti s p q .cpy (flagsIn f 0xC3) x y z f mkCpy
/-- `cpy.s` (R256). -/
def execCpyS (p q : BitVec 3) (x y z : BitVec 4) (f : BitVec 8) (s : State) : Out :=
  cMulti s p q .cpys (flagsIn f 0xC3 && x.toNat % 2 == 0 && y.toNat % 2 == 0) x y z f mkCpyS
/-- `ctld` (R258). -/
def execCtld (p q : BitVec 3) (x y z : BitVec 4) (f : BitVec 8) (s : State) : Out :=
  cMulti s p q .ctld (flagsIn f 0xC0 && z.toNat % 2 == 0) x y z f mkTile
/-- `ctst` (R259). -/
def execCtst (p q : BitVec 3) (x y z : BitVec 4) (f : BitVec 8) (s : State) : Out :=
  cMulti s p q .ctst (flagsIn f 0x80 && z.toNat % 2 == 0) x y z f mkTile
/-- `cgath` (R260). -/
def execCgath (p q : BitVec 3) (x y z : BitVec 4) (f : BitVec 8) (s : State) : Out :=
  cMulti s p q .cgath (flagsIn f 0xE0 && x.toNat % 2 == 0) x y z f mkGather
/-- `cscat` (R260). -/
def execCscat (p q : BitVec 3) (x y z : BitVec 4) (f : BitVec 8) (s : State) : Out :=
  cMulti s p q .cscat (flagsIn f 0xA0 && x.toNat % 2 == 0) x y z f mkGather
/-- `cwalk` (R261). -/
def execCwalk (p q : BitVec 3) (x y z : BitVec 4) (f : BitVec 8) (s : State) : Out :=
  cMulti s p q .cwalk (flagsIn f 0xC0) x y z f mkWalk
/-- `czero` (R257). -/
def execCzero (p q : BitVec 3) (x z : BitVec 4) (f : BitVec 8) (s : State) : Out :=
  cMulti s p q .czero (flagsIn f 0xC1) x 0 z f mkFill
/-- `cfill` (R257). -/
def execCfill (p q : BitVec 3) (x y z : BitVec 4) (f : BitVec 8) (s : State) : Out :=
  cMulti s p q .cfill (flagsIn f 0xC1) x y z f mkFill
/-- `ccoll` (R266). -/
def execCcoll (p q : BitVec 3) (x z : BitVec 4) (s : State) : Out := cMulti s p q .ccoll true x 0 z 0 mkColl

-- Address registers and handles --------------------------------------------------------------------------------------

/-- An address register written (R252). -/
def caDo (s : State) (p q : BitVec 3) (d : BitVec 4) (v : State → W64) : Out :=
  cDo s p q (fun s => .ok () (s.updGrp (fun g => { g with aregs := updAt g.aregs d.toNat (fun _ => v s) })))

/-- `ca.li` (R252). -/
def execCaLi (p q : BitVec 3) (a : BitVec 4) (i : BitVec 16) (s : State) : Out := caDo s p q a (fun _ => sext64 i)
/-- `ca.lih` (R252). -/
def execCaLih (p q : BitVec 3) (a : BitVec 4) (i : BitVec 16) (s : State) : Out :=
  caDo s p q a (fun s => s.grp.a a.toNat * 65536 + i.setWidth 64)
/-- `ca.addi` (R252). -/
def execCaAddi (p q : BitVec 3) (a : BitVec 4) (i : BitVec 16) (s : State) : Out := caDo s p q a (fun s => s.grp.a a.toNat + sext64 i)
/-- `ca.add` (R252). -/
def execCaAdd (p q : BitVec 3) (x y z : BitVec 4) (s : State) : Out := caDo s p q x (fun s => s.grp.a y.toNat + s.grp.a z.toNat)
/-- `ca.mov` (R252). -/
def execCaMov (p q : BitVec 3) (x y : BitVec 4) (s : State) : Out := caDo s p q x (fun s => s.grp.a y.toNat)

/-- R254: the index of a handle-table entry and, within HCOUNT, its virtual address. -/
def handleAt (s : State) (y : BitVec 4) (i : BitVec 8) : Acc Nat :=
  let n := (s.grp.a y.toNat + i.setWidth 64).toNat
  let k := s.ctx s.grp.ctxid
  if n ≥ k.hcount then .fault (exc cACCESS n) s else .ok ((k.htab.toNat + 32 * n) % 2 ^ 64) s

/-- R254, Table 13-3: whether a table entry is one that FMT_INVALID rejects. -/
def handleBad (h : BitVec 256) : Bool :=
  fieldOf h 255 224 != 0 || fieldOf h 191 186 != 0 || fieldOf h 183 176 != 0 || fieldOf h 63 57 != 0 ||
  fieldOf h 56 0 % 16 != 0 || fieldOf h 175 128 % 16 != 0 || hRows h == 0 || hCols h == 0

/-- `ch.ld` (R254): at device scope. -/
def execChLd (p q : BitVec 3) (x y : BitVec 4) (i : BitVec 8) (s : State) : Out :=
  cDo s p q (fun s => (handleAt s y i).bind (fun va s => (copyHome s va 32).bind (fun v s =>
    let h := BitVec.ofNat 256 v
    if handleBad h then .fault (exc cFMTINV 0) s
    else .ok () (s.updGrp (fun g => { g with hregs := updAt g.hregs x.toNat (fun _ => h) })))))

/-- `ch.st` (R254): a copy-engine write. -/
def execChSt (p q : BitVec 3) (x y : BitVec 4) (i : BitVec 8) (s : State) : Out :=
  cDo s p q (fun s =>
    if s.grp.cput.isSome then copyWrite s 0 0 0 0
    else (handleAt s y i).bind (fun va s => copyWrite s va 32 (s.grp.h x.toNat).toNat 0))

-- Barriers, signals, prefetch ----------------------------------------------------------------------------------------

/-- `cbar.in` (R263). -/
def execCbarIn (p q : BitVec 3) (x : BitVec 4) (b : BitVec 8) (s : State) : Out :=
  cDo s p q (fun s => (barEnt s b.toNat).bind (fun e s => .ok () (barAdd s s.grp.core e.obj false (fieldOf (s.grp.a x.toNat) 23 0))))
/-- `cbar.out` (R263). -/
def execCbarOut (p q : BitVec 3) (x : BitVec 4) (b : BitVec 8) (s : State) : Out :=
  cDo s p q (fun s => (barEnt s b.toNat).bind (fun e s => .ok () (barAdd s s.grp.core e.obj true (fieldOf (s.grp.a x.toNat) 23 0))))

/-- `cbar.arr` (R263, R310, R311): an anonymous arrival at die scope. -/
def execCbarArr (p q : BitVec 3) (b : BitVec 8) (s : State) : Out :=
  cDo s p q (fun s => (barEnt s b.toNat).bind (fun e s =>
    let c := s.grp.core
    if waitsAt s.grp.cbwait (barLoc c e.obj) then .wait s
    else
      match barArrive s b.toNat e false with
      | none => .wait (s.updGrp (fun g =>
          { g with cbwait := some { loc := barLoc c e.obj, tested := barPhases (barObj s c e.obj), got := none } }))
      | some _ =>
        (relG s 2).bind (fun _ s =>
          .ok () (((barArrive s b.toNat e false).getD s).updGrp (fun g => { g with cbwait := none })))))

/-- `csig.add` and `csig.set` (R264): the checks, a device-scope release, the atomic at the counter's home. -/
def csig (s : State) (p q : BitVec 3) (x : BitVec 4) (f : Nat → Nat) : Out :=
  cDo s p q (fun s =>
    let va := (s.grp.a x.toNat).toNat
    (sigAddr s va .store).bind (fun t s =>
      let r := homeRead s t.home (t.pa / 128)
      if r.bad &&& blocksOf (t.pa % 128) 4 != 0 then .fault (uncorrectable va (memSource s t.home t.pa)) r.st
      else (relG r.st 3).bind (fun _ s =>
        match homeAtomic s t.home t.pa 4 f with
        | some r => .ok () r.2
        | none => .fault (uncorrectable va (memSource s t.home t.pa)) (atomicMissed s t.home t.pa))))

/-- `csig.add` (R264). -/
def execCsigAdd (p q : BitVec 3) (x y : BitVec 4) (s : State) : Out :=
  csig s p q x (fun c => (c + fieldOf (s.grp.a y.toNat) 31 0) % 2 ^ 32)
/-- `csig.set` (R264). -/
def execCsigSet (p q : BitVec 3) (x y : BitVec 4) (s : State) : Out := csig s p q x (fun _ => fieldOf (s.grp.a y.toNat) 31 0)

/-- `cpref` (R265): it completes at issue and changes no architected state. -/
def execCpref (p q : BitVec 3) (_x _z : BitVec 4) (s : State) : Out := cDo s p q (fun s => .ok () s)

end Sys2Proof.Machine
end

