-- ==== Sys2Proof/Machine/Matrix.lean ====
section
/-! DEFINITION. Single-step matrix instructions: descriptors (R234), optical configuration (R225), status records (R226) and
accumulator banks (R200). -/

namespace Sys2Proof.Machine

/-- A single-step matrix instruction, which issues once the tile command before it has begun its last element (R236). -/
def mDo (s : State) (legal : Bool) (p q : BitVec 3) (body : State → Acc Unit) : Out :=
  if noGroup s then .fault .noGroup
  else if !legal then .next (illegal s 2)
  else if tileBars s then .next (s.block 2)
  else tDo s 2 p q body

-- Descriptors --------------------------------------------------------------------------------------------------------

/-- A descriptor with bits `hi` to `lo` replaced. -/
def dField (d : BitVec 128) (hi lo v : Nat) : BitVec 128 :=
  (d &&& ~~~(BitVec.ofNat 128 ((2 ^ (hi + 1 - lo) - 1) * 2 ^ lo))) ||| BitVec.ofNat 128 (v % 2 ^ (hi + 1 - lo) * 2 ^ lo)

/-- A descriptor of the group in focus written. -/
def State.setD (s : State) (d : BitVec 4) (v : BitVec 128) : State :=
  s.updGrp (fun g => { g with dregs := updAt g.dregs d.toNat (fun _ => v) })

/-- Table 12-6: the descriptor after `mdset` of a field code. -/
def mdField (x : BitVec 128) (f i : Nat) : BitVec 128 :=
  match f with
  | 0 => dField x 15 0 (16 * i)
  | 1 => dField x 31 16 i
  | 2 => dField x 47 32 i
  | 3 => dField x 79 64 (16 * i)
  | 4 => dField x 95 80 i
  | 5 => dField x 63 48 i
  | 6 => dField x 111 96 (i % 64 + i / 64 * 256)
  | _ => 0

/-- `mdset` (R234). -/
def execMdset (p q : BitVec 3) (d f : BitVec 4) (i : BitVec 12) (s : State) : Out :=
  mDo s (f.toNat < 7 || (f == 7 && i == 0)) p q (fun s => .ok () (s.setD d (mdField (s.grp.d d.toNat) f.toNat i.toNat)))

/-- `mdadd` (R234). -/
def execMdadd (p q : BitVec 3) (d a : BitVec 4) (i : BitVec 12) (s : State) : Out :=
  mDo s true p q (fun s => .ok () (s.setD d (dBase (s.grp.d a.toNat) (fun b => b + 16 * i.signExtend 32))))

/-- `mdmov` (R234). -/
def execMdmov (p q : BitVec 3) (d a : BitVec 4) (s : State) : Out :=
  mDo s true p q (fun s => .ok () (s.setD d (s.grp.d a.toNat)))

/-- `mdld` (R234). -/
def execMdld (p q : BitVec 3) (d a : BitVec 4) (i : BitVec 12) (s : State) : Out :=
  mDo s true p q (fun s =>
    (scrRead s (dBaseN (s.grp.d a.toNat) + 16 * i.toNat) 16 16).bind (fun v s => .ok () (s.setD d (BitVec.ofNat 128 v))))

-- Optical configuration ----------------------------------------------------------------------------------------------

/-- R225: the registers that `mocfg` may write. -/
def ocWritable (o : Nat) : Bool := o ≤ 3 || (8 ≤ o && o ≤ 15)

/-- R225: the staged value of a part. -/
def ocPart (old : W32) (part : Nat) (imm : BitVec 12) : W32 :=
  match part with
  | 0 => (old &&& 0xFFFFF000) ||| imm.setWidth 32
  | 1 => (old &&& 0xFF000FFF) ||| (imm.setWidth 32 <<< 12)
  | 2 => (old &&& 0x00FFFFFF) ||| (imm.setWidth 32 <<< 24)
  | _ => imm.setWidth 32

/-- `mocfg` (R209, R225). -/
def execMocfg (p q : BitVec 3) (o : BitVec 6) (t : BitVec 2) (i : BitVec 12) (s : State) : Out :=
  mAlone s (ocWritable o.toNat && !(t == 2 && i.toNat ≥ 256)) p q (fun s =>
    .ok () (s.updGrp (fun g => { g with staged := updAt g.staged o.toNat (fun _ => some (ocPart (g.ocNew o.toNat) t.toNat i)) })))

/-- R226: the core that holds a string: its talker, or the core that calibrates it; 0xFFFF where it is FREE. -/
def holderOf (t : Str) : Nat :=
  match t.cal with
  | some w => w.key
  | none => if t.sess == .free then 0xFFFF else t.talker % 256

/-- R226: the record of an item, as a number, and its size. -/
def mstatRecord (s : State) (item st : Nat) : Nat × Nat :=
  let g := s.grp
  let t := s.str st
  match item with
  | 0 => (packNat 32 ((List.range 4).map (fun i => (g.lsum i).toNat)), 16)
  | 1 => (packNat 32 [(sessReg s).toNat, g.seq.toNat, g.stwr.toNat, (combReg s).toNat], 16)
  | 2 => (t.combWord.toNat % 2 ^ 16 + b2n t.degraded * 2 ^ 16 + t.liveWidth * 2 ^ 24 + holderOf t * 2 ^ 32 + (t.waiting.filter (fun w => w.kind == 0 || w.kind == 3)).length % 2 ^ 16 * 2 ^ 48, 16)
  | _ => (packNat 8 (t.chmap ++ [64, 65, 66, 67].map (fun p => lowest 256 (fun l => l == 255 || (l < 64 && t.chmap.getD l 0 == p)))) +
      (fieldOf t.failed 67 64 * 2 ^ (8 * 68)), 128)

/-- `mstat` (R226). -/
def execMstat (p q : BitVec 3) (o : BitVec 6) (st : BitVec 3) (m : BitVec 4) (s : State) : Out :=
  mAlone s (8 ≤ o.toNat && o.toNat ≤ 15 && m.toNat ≤ 3 && (m.toNat ≥ 2 || st == 0)) p q (fun s =>
    let r := mstatRecord s m.toNat st.toNat
    scrWrite s (s.grp.ocNew o.toNat).toNat r.2 16 r.1)

-- Accumulator banks --------------------------------------------------------------------------------------------------

/-- The physical accumulator banks of a core that no map entry of a placed group names (R198). -/
def freeAcc (s : State) (core : Nat) : List Nat :=
  (List.range 16).filter (fun p => !s.groups.any (fun g => g.core == core && g.st != .saved &&
    g.amap.any (fun e => e.any (fun x => x.phys == p))))

/-- Every cell of some rows of a physical bank made +0.0. -/
def zeroAcc (s : State) (core phys : Nat) (row : Nat → Bool) : State :=
  let hit (k : Nat) : Bool := k / 8192 == phys && row (k % 8192 / 64)
  s.updCore core (fun c => { c with acc := c.acc.filter (fun x => !hit x.1), badAcc := c.badAcc.filter (fun k => !hit k) })

/-- An accumulator map entry of the group in focus replaced. -/
def State.setAmap (s : State) (b : Nat) (e : Option AEntry) : State := s.updGrp (fun g => { g with amap := updAt g.amap b (fun _ => e) })

/-- An OWNED entry made on a free physical bank of the device's choice, every cell +0.0 (R198, R200). -/
def accAlloc (s : State) (b : Nat) : State :=
  let l := freeAcc s s.grp.core
  let p := l.getD (Config.freePhys s.fresh % l.length) 0
  zeroAcc (s.tick1.setAmap b (some { phys := p, owned := true, band := 15, keys := [] })) s.grp.core p (fun _ => true)

/-- `macc.alloc` (R200). -/
def execMaccAlloc (p q : BitVec 3) (b : BitVec 4) (s : State) : Out :=
  mAlone s true p q (fun s =>
    if (s.grp.amapAt b.toNat).isSome || (s.grp.amap.filter (fun e => e.any (fun x => x.owned))).length ≥ s.grp.accb then
      .fault (exc cACCBAND (256 * b.toNat)) s
    else if (freeAcc s s.grp.core).isEmpty then .wait s
    else .ok () (accAlloc s b.toNat))

/-- `macc.free` (R200). -/
def execMaccFree (p q : BitVec 3) (b : BitVec 4) (s : State) : Out := mAlone s true p q (fun s => .ok () (s.setAmap b.toNat none))

/-- `macc.zero` (R200). -/
def execMaccZero (p q : BitVec 3) (n b : BitVec 4) (s : State) : Out :=
  mAlone s (n != 0) p q (fun s =>
    match s.grp.amapAt b.toNat with
    | none => .ok () (setUnalloc s)
    | some e =>
      let extra := n &&& ~~~e.band
      if extra != 0 then .fault (exc cACCBAND (256 * b.toNat + 32 * lowest 4 (bitAt extra))) s
      else .ok () (zeroAcc s s.grp.core e.phys (fun r => bitAt n (r / 32))))

/-- The physical bank published under a key on a core, by a group of a context where one is given (R200). -/
def accPublished (s : State) (core key : Nat) (ctx : Option Nat) : Option Nat :=
  s.groups.findSome? (fun g =>
    if g.core == core && g.st != .saved && (ctx.isNone || ctx == some g.ctxid) then
      g.amap.findSome? (fun e => e.bind (fun x => if x.owned && x.keys.contains key then some x.phys else none))
    else none)

/-- `macc.share` (R200). -/
def execMaccShare (p q : BitVec 3) (k : BitVec 6) (b : BitVec 4) (s : State) : Out :=
  mAlone s true p q (fun s =>
    match s.grp.amapAt b.toNat with
    | none => .fault (exc cACCUN (256 * b.toNat)) s
    | some e =>
      if !e.owned || (accPublished s s.grp.core k.toNat none).isSome then .fault (exc cACCBAND (256 * b.toNat)) s
      else .ok () (s.setAmap b.toNat (some { e with keys := e.keys ++ [k.toNat] })))

/-- `macc.attach` (R200). -/
def execMaccAttach (p q : BitVec 3) (n : BitVec 4) (k : BitVec 6) (b : BitVec 4) (s : State) : Out :=
  mAlone s (n != 0) p q (fun s =>
    if (s.grp.amapAt b.toNat).isSome then .fault (exc cACCBAND (256 * b.toNat)) s
    else
      match accPublished s s.grp.core k.toNat (some s.grp.ctxid) with
      | none => .wait s
      | some ph => .ok () (s.setAmap b.toNat (some { phys := ph, owned := false, band := n, keys := [] })))

end Sys2Proof.Machine
end

