-- ==== Sys2Proof/Machine/Life.lean ====
section
/-! DEFINITION. The life of a group between its placement and its retirement: ends of streams (R109), interrupts and asynchronous
faults taken (R63, R64, R331), pre-emption (R72), saving (R69, R73, R201, R313) and retirement (R111, R112, R314), with what
these do to contexts and kernels (R58, R76). -/

namespace Sys2Proof.Machine

-- Contexts and kernels that wait for their groups --------------------------------------------------------------------

/-- The kernel id of a group (R94). -/
def Group.kid (g : Group) : Nat := fieldOf g.handle 55 44

/-- R76: whether a kernel id has live work. DESIGN CHOICE: a retired group whose log is still promoted counts (log entry 155). -/
def liveWork (s : State) (k : Nat) : Bool :=
  s.groups.any (fun g => g.kid == k) ||
  s.queues.any (fun q => q.2.pkts.any (fun p => p.typ != 0 && p.kid == k && !p.dispatched && p.status == 0))

/-- A context becomes FREE: its translations are invalidated on every die (R58, R321). -/
def freeCtx (s : State) (c : Nat) : State := (ilApplyAll (ilAppend s 1 c 0)).updCtx c (fun _ => .free)

/-- Table 4-2, last column, for one context. A closing context is kept until its queues' taken packets have completed, whose records go
through its tables (R123, log entry 115). -/
def settleCtx (s : State) (c : Nat) : State :=
  let gs := s.groups.filter (fun g => g.ctxid == c)
  match (s.ctx c).st with
  | .suspending => if gs.all (fun g => g.st == .saved) then s.updCtx c (fun x => { x with st := .suspended }) else s
  | .closing => if gs.isEmpty && s.queues.all (fun q => q.2.ctx != c || q.2.pkts.isEmpty) then freeCtx s c else s
  | _ => s

/-- R58, R76: contexts and kernels that waited for the last of their groups and packets. -/
def settle (s : State) : State :=
  let s1 : State := { s with kerns := s.kerns.map (fun k => if k.2.st == .unloading && !liveWork s k.1 then (k.1, .free) else k) }
  (s1.ctxs.map (fun c => c.1)).foldl settleCtx s1

-- Ends of streams ----------------------------------------------------------------------------------------------------

/-- A DRAINING stream whose earlier instructions have completed enters ENDED (R109); the group retires with its last stream
(R95). The vector stream's end waits for an undecided load, its replay and the results in flight, and a stream cycle passes (R109, R156). -/
def execStreamEnded (h : BitVec 64) (st : BitVec 2) (s : State) : Out :=
  let s := s.focus h
  let n := st.toNat
  if !(s.focused h && s.grp.st == .running && (s.grp.stream n).run == .draining) then .next s
  else if n == 1 then
    let s1 := retireDue s
    if s1.grp.vld.isSome || s1.grp.vcmd.isSome || s1.grp.vreplay.isSome || !s1.grp.flight.isEmpty then .next (vTick s1)
    else .next (retireIfEnded (endStream s1 1))
  else .next (retireIfEnded (endStream s n))

-- Traps and faults that come from outside a stream -------------------------------------------------------------------

/-- A trap that waits for the group to stop is taken once it has, else a pending interrupt, behind any asynchronous fault (R63, R64). DESIGN CHOICE:
an interrupt that was pended while tvec was not zero is taken although tvec is zero by then (log entry 154). -/
def execTrapDelivery (h : BitVec 64) (s : State) : Out :=
  let s := s.focus h
  if !s.focused h then .next s
  else
    match s.grp.pendTraps with
    | p :: ps => .next (if canTrap s then trapNow (s.updGrp (fun g => { g with pendTraps := ps })) p else s)
    | [] =>
      if canTrap s && s.grp.takeable && s.grp.asyncs.isEmpty then
        .next (takeTrap (s.updGrp (fun g => { g with ipend := false, ipval := 0 })) { code := 0xFE, stream := 0, info := s.grp.ipval, fault := none, vld := none })
      else .next s

/-- The oldest asynchronous fault of a collective is delivered to the copy stream at its boundary (R331), behind a trap that waits. A saved
group keeps it; a half that its partner's trap holds takes it once it runs again. -/
def execAsyncFaultDelivery (h : BitVec 64) (s : State) : Out :=
  let s := s.focus h
  match s.grp.asyncs with
  | [] => .next s
  | f :: fs =>
    if !s.focused h || s.grp.st == .saved || s.grp.pairHold || s.grp.saving || coreMoving s s.grp ||
        (s.grp.st == .running && (!canTrap s || !s.grp.pendTraps.isEmpty)) then .next s
    else
      let s1 := settleSeq s 3
      .next (deliver (s1.updGrp (fun g => { g with asyncs := fs })) { f with pc := s1.pc 3 })

-- Pre-emption --------------------------------------------------------------------------------------------------------

/-- The pre-emption deadline of a queue (R72, Table 7-1). -/
def deadlineOf (s : State) (q : Nat) : Nat := if (s.queue q).deadline == 0 then 40000 else (s.queue q).deadline

/-- Groups that a pre-emption request to a group reaches: its other half and the members of its session on this module, and
theirs (R96, Table 11-2). The first argument bounds the rounds. -/
def preemptSet : Nat → State → List W64 → List W64
  | 0, _, hs => hs
  | k + 1, s, hs =>
    let new := (s.groups.filter (fun g => !hs.contains g.handle && hs.any (fun h => match s.groupOf h with
      | some x => x.partner == g.handle ||
        (x.memb.any (fun m => m.role != 2 && m.state != 5 && !m.parked && g.onStr m.str))
      | none => false))).map (fun g => g.handle)
    if new.isEmpty then hs else preemptSet k s (hs ++ new)

/-- R72: pre-emption requested of a group and of those that go with it; `for'` names the queue whose group waits, none for SUSPEND. A group
that has a request keeps the earlier deadline and both reasons. -/
def requestPreempt (s : State) (h : W64) (for' : Option Nat) : State :=
  let hs := preemptSet 400 s [h]
  s.updGroups (fun g => hs.contains g.handle && (g.st == .running || g.st == .handler))
    (fun g =>
      let dl := s.cycle + deadlineOf s g.queue
      { g with preq := true, predl := if g.preq then min g.predl dl else dl, preqFor := if g.preqFor.isNone then for' else g.preqFor,
               preqSusp := g.preqSusp || for'.isNone })

/-- R58, R121: one reason for pre-emption withdrawn from the groups that `p` selects and that have not passed their save point: a queue's
waiting group, or SUSPEND. A request stays while the other reason does, or its core has failed (R335). -/
def withdrawPreempt (s : State) (p : Group → Bool) (susp : Bool) : State :=
  s.updGroups (fun g => p g && g.preq && !g.saving && g.st != .saved)
    (fun g =>
      let g1 := if susp then { g with preqSusp := false } else { g with preqFor := none }
      { g1 with preq := g1.preqSusp || g1.preqFor.isSome || s.ready.getD g.core 0 != 1 })

/-- The deadline of a pre-emption request expires: the group is saved in full (R72). -/
def execPreemptionDeadline (h : BitVec 64) (s : State) : Out :=
  let s := s.focus h
  if s.focused h && s.grp.preq && !s.grp.saving && s.grp.predl ≤ s.cycle && (s.grp.st == .running || s.grp.st == .handler) &&
      !coreMoving s s.grp then
    .next (({ s with agenda := .event (.groupSave h) :: s.agenda }).updGrp (fun g => { g with hint := none }))
  else .next s

-- Resources of a core ------------------------------------------------------------------------------------------------

/-- Table 10-1: the banks of a group released: a conversion in progress is completed and then goes to CACHE. -/
def freeBanks (s : State) (c : Nat) (h : W64) : State :=
  s.updCore c (fun x => { x with banks := x.banks.map (fun b =>
    if b.owner != h then b
    else
      match b.mode with
      | .drainF => { b with target := .cache, owner := 0 }
      | .drainW => { b with target := .cache, owner := 0 }
      | _ => { b with mode := .cache, target := .cache, owner := 0 }) })

/-- R314: an implicit arrive-and-drop of the group in focus at a logical id; one that would have to wait is a drop only. -/
def dropBarrier (s : State) (id : Nat) : State :=
  match s.grp.bmap[id]? with
  | none => s
  | some e =>
    if e.kind == .unmapped || !e.reg then s
    else
      match barArd s id e with
      | some s1 => s1
      | none => barLeave s id e

-- Saving -------------------------------------------------------------------------------------------------------------

/-- The registers and the scratch of a group resumed from a hinted save (R69, Table 4-5). -/
def Group.hinted (g : Group) (ws : List W64) : Group :=
  let live (i lo r : Nat) : Bool := bitAt (ws.getD i 0) (lo + r)
  let ranges := (ws.drop 3).map (fun r => (fieldOf r 31 0, fieldOf r 63 32))
  let inRange (a : Nat) : Bool := ranges.any (fun r => r.1 ≤ a && a < r.1 + r.2)
  { g with
    gregs := tab 32 (fun i => if live 0 0 i then g.gregs.getD i 0 else 0),
    vregs := tab 32 (fun i => if live 0 32 i then g.v i else List.replicate 128 0),
    aregs := tab 16 (fun i => if live 1 48 i then g.a i else 0),
    hregs := tab 16 (fun i => if live 1 32 i then g.h i else 0),
    dregs := tab 16 (fun i => if live 1 16 i then g.d i else 0),
    kregs := tab 8 (fun i => if live 1 0 i then g.kregs.getD i 0 else 0),
    scratch := g.scratch.filter (fun c => inRange c.1), full := g.full.filter (fun k => inRange (16 * k)),
    badScr := g.badScr.filter (fun k => inRange (16 * k)) }

/-- Whether the contents of logical accumulator bank `b` are saved. -/
def accLive (hint : Option (List W64)) (b : Nat) : Bool :=
  match hint with
  | none => true
  | some ws => bitAt (ws.getD 2 0) b

/-- The physical accumulator banks that the group in focus owns, with their logical banks. -/
def ownedAcc (g : Group) : List (Nat × Nat) :=
  (List.range 16).filterMap (fun b => (g.amapAt b).bind (fun e => if e.owned then some (b, e.phys) else none))

/-- R201: the OWNED contents of the group in focus kept by logical cell, its ATTACHED entries unallocated, and every other
group's entry to its banks unallocated. -/
def saveAcc (s : State) : State :=
  let g := s.grp
  let own := ownedAcc g
  let cells := (own.filter (fun o => accLive g.hint o.1)).flatMap (fun o =>
    ((s.core g.core).acc.filter (fun c => c.1 / 8192 == o.2)).map (fun c => (o.1 * 8192 + c.1 % 8192, c.2)))
  let s1 := s.updGroups (fun x => x.core == g.core && x.st != .saved && x.handle != g.handle) (fun x => { x with
    amap := x.amap.map (fun e => e.bind (fun y => if !y.owned && own.any (fun o => o.2 == y.phys) then none else some y)) })
  s1.updGrp (fun g => { g with
    accSaved := cells, amap := g.amap.map (fun e => e.bind (fun y => if y.owned then some { y with phys := 0, keys := [] } else none)) })

/-- R313: owned objects kept by logical id with their keys withdrawn, registered attached entries dropped and unmapped, and
every other group's entry to the owned objects unmapped, so that a wait there issues again and faults, also one whose phase has just
completed. -/
def saveBars (s : State) : State :=
  let g := s.grp
  let ids := List.range g.bmap.length
  let kindOf (i : Nat) : BKind := match g.bmap[i]? with
    | some e => e.kind
    | none => .unmapped
  let s1 := (ids.filter (fun i => kindOf i == .attached)).foldl dropBarrier s
  let own := ids.filterMap (fun i => match g.bmap[i]? with
    | some e => if e.kind == .owned then some (i, e.obj) else none
    | none => none)
  let kept := own.map (fun o => (o.1, barSet (barObj s1 g.core o.2) 83 77 0))
  let still (w : Wait) : Bool := !own.any (fun o => barLoc g.core o.2 == w.loc)
  let s2 := s1.updGroups (fun x => x.core == g.core && x.st != .saved && x.handle != g.handle) (fun x => { x with
    bwait := x.bwait.filter still, cbwait := x.cbwait.filter still,
    bmap := x.bmap.map (fun e => if e.kind == .attached && own.any (fun o => o.2 == e.obj) then { e with kind := .unmapped, reg := false } else e) })
  s2.updGrp (fun g => { g with
    barSaved := kept, bmap := g.bmap.map (fun e => if e.kind == .attached then { e with kind := .unmapped, reg := false } else e) })

/-- R332: whether what a save reads of the group in focus holds an uncorrectable error. -/
def saveUnreadable (s : State) : Bool :=
  let g := s.grp
  let c := s.core g.core
  !g.badScr.isEmpty || g.fifos.any (fun f => f.badTop f.count) || (ownedAcc g).any (fun o => accLive g.hint o.1 && c.badAcc.any (fun k => k / 8192 == o.2)) ||
  g.bmap.any (fun e => e.kind == .owned && c.badBar.contains e.obj)

/-- The uncorrectable errors in the local and accumulator storage of the group in focus that a save of it meets (R335). -/
def storageErrors (s : State) : Nat :=
  let g := s.grp
  g.badScr.length + (g.fifos.map (fun f => ((List.range f.count).filter (fun i => f.bad.contains ((f.head + i) % 8192))).length)).sum +
  ((s.core g.core).badAcc.filter (fun k => (ownedAcc g).any (fun o => accLive g.hint o.1 && k / 8192 == o.2))).length

/-- R335 step 5: the group in focus is aborted because its state cannot be read; the errors met are errors of its core's storage. -/
def abortUnreadable (s0 : State) : State :=
  let n := storageErrors s0
  let s := if n == 0 then s0 else coreErrors s0 s0.grp.core n
  let f : FaultInfo := { code := cMEMUNC, stream := 0, async := false, imprecise := false, elvalid := false, element := 0, pc := s.pc 0,
                         addr := 0, ipc := s.pc 0, word := wordAt s 0, detail := 2, opa := 0, opb := 0, opc := 0, cycle := s.cycle }
  stopBoth (noteConsumed s f) .aborted 0 (recBytes s f)

/-- Table 11-2: with its last member of this module saved, a session leaves its string and is SAVED. -/
def parkSession (s : State) : State :=
  match s.grp.memb with
  | none => s
  | some m =>
    let t := s.str m.str
    let ms := membersOf s m.str
    if m.parked then
      -- a SAVED session asks for its string once every member is placed again
      s.updStr m.str (fun t => { t with waiting := t.waiting.filter (fun w => !(w.kind == 2 && w.key == m.key && w.role == s.grp.ctxid)) })
    else if m.role == 2 || m.state == 5 || !ms.all (fun g => g.st == .saved) || (talkerOf s m.str).isNone then s
    else
      let park : Park := { talker := t.talker, key := t.key, ctx := t.ctx, div := t.div, nextSeq := t.nextSeq, before := t.sess,
                           members := t.members.map (fun m => { m with ready := false }) }
      let s1 := (tell s m.str 2 0 t.talker t.key t.ctx).updGroups (fun g => g.onStr m.str) (fun g => { g with memb := g.memb.map (fun x => { x with parked := true }) })
      postAdmit (s1.updStr m.str (fun t => { t with sess := .free, members := [], saved := t.saved ++ [park] })) m.str

/-- R72, R64: the streams of the group in focus stop for a save; in handler mode, and in a half held by its partner's trap, they
stand as the trap left them. -/
def stopForSave (s : State) : State :=
  if s.grp.hmode || s.grp.pairHold then s.updGrp (fun g => { g with rwait := [], swait := none, bwait := none, cbwait := none })
  else stopStreams (retireDue (settleSeqs s))

/-- R73: the fabric-scope release of a save; none while it waits. A posted write that can no longer be delivered is forgotten. -/
def saveRelease (s : State) : Option State :=
  let fin (s : State) : State := s.updGrp Group.emptyLog
  match release s s.grp.handle s.grp.core 4 with
  | .ok _ s1 => some (fin s1)
  | .wait _ => none
  | .fault _ s1 =>
    match release s1 s1.grp.handle s1.grp.core 4 with
    | .ok _ s2 => some (fin s2)
    | .wait _ => none
    | .fault _ s2 => some (fin s2)

/-- R192: the contents of the group in focus as a save records them: a bank whose conversion is not over is zero with every granule empty,
also where it was restored before (log entry 74). -/
def convZero (s : State) : State :=
  let conv (b : Nat) : Bool :=
    match (s.grp.lmap[b]?).bind (fun p => (s.core s.grp.core).banks[p]?) with
    | some k => k.mode == .drainF || k.mode == .drainW
    | none => false
  s.updGrp (fun g => { g with
    scratch := g.scratch.filter (fun c => !conv (c.1 / bankBytes)), full := g.full.filter (fun k => !conv (16 * k / bankBytes)),
    badScr := g.badScr.filter (fun k => !conv (16 * k / bankBytes)),
    fifos := (List.range g.fifos.length).map (fun i => if conv (g.scrb + i) then { head := 0, tail := 0, data := [], bad := [] } else g.fifo i) })

/-- The contents of the group in focus without what its liveness hint leaves out (R69). -/
def hintedState (s : State) : State :=
  s.updGrp (fun g => match g.hint with
    | some ws => g.hinted ws
    | none => g)

/-- What of a group is not in Table 4-3 dropped: the words that its sequencers replay, which a resumed iteration fetches again (R92), the attempts
at a cut element, and a SAT_TRAP that another trap has left behind (R59; log entry 116). -/
def Group.cold (g : Group) : Group :=
  let c (t : StreamSt) : StreamSt := { t with replay := [] }
  { g with ss := c g.ss, vs := c g.vs, ms := c g.ms, cs := c g.cs, again := (0, 0), pendTraps := [] }

/-- The image of the group in focus taken and its core left (R73, R192, R201, R313): SAVED. -/
def saveBody (s0 : State) : State :=
  let s := convZero s0
  let g := s.grp
  let s1 := hintedState s
  if saveUnreadable s1 then abortUnreadable s1
  else
    let s2 := freeBanks (saveBars (saveAcc s1)) g.core g.handle
    parkSession (s2.updGrp (fun g => { g.cold with
      st := .saved, saving := false, preq := false, preqFor := none, preqSusp := false, hint := none }))

/-- Whether the group in focus is to be saved: it has a request and runs, or its save has begun; a takeover of its core or its
partner's is waited for (R336). -/
def saveDue (s : State) : Bool :=
  s.grp.preq && (s.grp.st == .running || s.grp.st == .handler) && !coreMoving s s.grp &&
  (match s.groupOf s.grp.partner with
    | some p => s.grp.partner == 0 || !coreMoving s p
    | none => true)

/-- An undecided `vld` of the group in focus decided before its save (R160); where it fails, the fault comes before the save (R64), and the
save begins anew after it: true where it did. -/
def saveVld (s : State) : Bool × State :=
  let r := settleVld s
  match r.1 with
  | none => (false, r.2)
  | some (o, f) =>
    let s1 := onPartner (r.2.updGrp (fun g => { g with saving := false })) (fun s => s.updGrp (fun g => { g with saving := false }))
    (true, takeFault s1 f (some o))

/-- Whether a trap of the group in focus or of its partner comes before a save (R64). -/
def trapFirst (s : State) : Bool := s.grp.trapDue || (partnerOf s s.grp).any Group.trapDue

/-- Every begun instruction of a group about to be saved can be left: its streams and its partner's stop, both release, then both images
are taken (R73, R96). A group, or a pair, whose streams have all ended at the stop retires instead (R72). -/
def saveNow (h : W64) (s : State) : State :=
  let s1 := onPartner (stopForSave s) stopForSave
  let p := partnerOf s1 s1.grp
  let allOver (g : Group) : Bool := g.st == .running && g.allEnded
  if allOver s1.grp && p.all allOver then
    let off (g : Group) : Group := { g with saving := false, preq := false }
    retireIfEnded (onPartner (s1.updGrp off) (fun s => s.updGrp off))
  else
    match (saveRelease s1).bind (fun s2 =>
      match p with
      | none => some s2
      | some g => (saveRelease (s2.focus g.handle)).map (fun s3 => s3.focus h)) with
    | none => s1
    | some s2 =>
      -- R335 step 5, R96: neither half is saved where the state of the other cannot be read
      let unread (s : State) : Bool := saveUnreadable (hintedState (convZero s))
      settle (match p with
        | none => saveBody s2
        | some g =>
          if !unread s2 && unread (s2.focus g.handle) then onPartner s2 abortUnreadable
          else onPartner (saveBody s2) (fun s => if saveDue s || s.grp.saving then saveBody s else s))

/-- The group in focus is saved: a trap that is due comes first (R64); the pair stops issuing, the instructions in flight complete
(R126), undecided loads are decided (R160), and then it is saved (R72, R73, R96). -/
def execGroupSave (h : BitVec 64) (s : State) : Out :=
  let s := s.focus h
  if !s.focused h || !saveDue s || (!s.grp.saving && trapFirst s) then .next s
  else
    let mark (s : State) : State := s.updGrp (fun g => { g with saving := true })
    let s1 := onPartner (mark s) mark
    if !(quiet s1 && (partnerOf s1 s1.grp).all (fun g => quiet (s1.focus g.handle))) then .next s1
    else
      let r := saveVld s1
      if r.1 then .next r.2
      else
        match partnerOf r.2 r.2.grp with
        | none => .next (saveNow h r.2)
        | some g =>
          let q := saveVld (r.2.focus g.handle)
          .next (if q.1 then q.2 else saveNow h (q.2.focus h))

-- Retirement ---------------------------------------------------------------------------------------------------------

/-- A SAVED group that retires (R95, R111): it holds nothing of a core. -/
def Group.coreless (g : Group) : Group := { g.emptyLog with slot := 4, bmap := [], amap := List.replicate 16 none, lmap := [] }

/-- STATUS of Table 6-3. -/
def EndStatus.code : EndStatus → Nat
  | .done => 0
  | .exited => 1
  | .aborted => 2
  | .trap => 3
  | .closed => 4
  | .gangAborted => 5

/-- A completion record (Table 6-3) as a number of 192 bytes. -/
def recordOf (g : Group) : Nat :=
  let r (t : StreamSt) : Nat := t.result.toNat
  let f : Nat := leNat g.faultRec
  packNat 64 [g.handle.toNat,
    g.status.code * 2 ^ 56 + b2n g.toksat * 2 ^ 17 + b2n g.faultsupp * 2 ^ 16 + min 255 (g.fmtres + g.fmtq.length) * 2 ^ 8,
    r g.ss * 2 ^ 48 + r g.vs * 2 ^ 32 + r g.ms * 2 ^ 16 + r g.cs, g.info.toNat] +
  packNat 6 g.toks * 2 ^ 256 + f * 2 ^ 512

/-- R123: a write of a record, summary or counter through a queue's context; one that is skipped leaves an event record. -/
def queueStore (s : State) (q ctx va n al v : Nat) : State :=
  let skip (s : State) : State := eventRecord s 8 q 7 1 0 0
  if va % al != 0 then skip s
  else
    match devWrite s ctx va n v 0 with
    | .ok _ s1 => s1
    | .fault _ s1 => skip s1
    | .wait s1 => s1

/-- Whether a store through a context has to wait for a page that is COPYING (R328). -/
def storeWaits (s : State) (ctx va n v : Nat) : Bool :=
  match devWrite s ctx va n v 0 with
  | .wait _ => true
  | _ => false

/-- The address of a group's completion record, 0 for none (R123). -/
def recordVa (s : State) (g : Group) : Nat :=
  match (s.queue g.queue).pkts.find? (fun p => p.seq == g.pkt) with
  | some p => if p.recaddr == 0 then 0 else (p.recaddr.toNat + 192 * g.pos) % 2 ^ 64
  | none => 0

/-- Whether a group's record has to wait for a page that is COPYING (R328). -/
def recordWaits (s : State) (g : Group) : Bool :=
  let a := recordVa s g
  a != 0 && a % 64 == 0 && storeWaits s g.ctxid a 192 0

/-- A packet of a queue changed. -/
def updPkt (s : State) (q seq : Nat) (f : Pkt → Pkt) : State :=
  s.updQueue q (fun x => { x with pkts := x.pkts.map (fun p => if p.seq == seq then f p else p) })

/-- R123: whether a packet has completed but for its last steps. -/
def Pkt.over (p : Pkt) : Bool := (p.dispatched || p.status != 0) && p.retired == p.next * p.halves

/-- The completion of a packet posted once every group that it dispatched has retired (R123). -/
def postComplete (s : State) (q seq : Nat) : State :=
  match (s.queue q).pkts.find? (fun p => p.seq == seq) with
  | some p => if p.over then s.postE (.packetComplete (BitVec.ofNat 15 q) (BitVec.ofNat 16 seq)) else s
  | none => s

/-- The group of a handle forgotten (R111 step 7). -/
def State.dropGroup (s : State) (h : W64) : State :=
  { s with grp := if s.grp.handle == h then .empty else s.grp, others := s.others.filter (fun g => g.handle != h) }

/-- R111 steps 3 to 7 for the group in focus. Entries left in its promotion log are promoted in the background, and its handle is known until
they are; its job slot is free (Table 15-2). -/
def retireBody (s : State) : State :=
  let g := s.grp
  let s1 := (List.range g.bmap.length).foldl dropBarrier (leaveSession s)
  let s2 := (freeBanks s1 g.core g.handle).updCtx g.ctxid (fun c => { c with images := c.images.filter (fun i => (s1.ctx g.ctxid).savebase + i.1 != g.framePa) })
  let a := recordVa s2 g
  let s3 := if a == 0 then s2 else queueStore s2 g.queue g.ctxid a 192 64 (recordOf s2.grp)
  let k := g.status.code
  let s4 := updPkt s3 g.queue g.pkt (fun p => { p with
    retired := p.retired + 1, counts := updAt p.counts k (fun n => (n + 1) % 2 ^ 32),
    first := if k != 0 && p.first == 0 then g.handle else p.first })
  let s5 := if g.log.isEmpty then s4.dropGroup g.handle
    else s4.updGrp (fun g => { g with
      slot := 4, retired := true, bmap := [], amap := List.replicate 16 none, lmap := [], snap := some (snapNow s g), eager := none, plog := [] })
  settle (postComplete s5 g.queue g.pkt)

/-- A group retires (R111): from STOPPING once its streams have stopped; results written, a die-scope release, then the rest. It waits for its reductions and remote writes. -/
def execGroupRetire (h : BitVec 64) (s : State) : Out :=
  let s := s.focus h
  if !s.focused h || !(s.grp.st == .stopping || s.grp.st == .retiring) || s.grp.retired then .next s
  else if s.grp.st == .stopping && !s.grp.allStopped && !quiet s then .next s
  else
    let s := if s.grp.st == .stopping && !s.grp.allStopped then finishStop s else s
    let s1 := (retireAll s).updGrp (fun g => { g with st := .retiring })
    let g := s1.grp
    if recordWaits s1 g then .next s1
    else if g.slot ≥ 4 then .next (retireBody s1)
    else
      match release s1 h g.core 2 with
      | .wait s2 => .next s2
      | .fault _ s2 => .next s2
      | .ok _ s2 => .next (retireBody s2)

end Sys2Proof.Machine
end

