-- ==== Sys2Proof/Machine/Context.lean ====
section
/-! DEFINITION. The commands of the host on contexts (R56 to R58) and on kernels (R75 to R79, R84), and group interrupts of the
host (R125). -/

namespace Sys2Proof.Machine

-- Contexts -----------------------------------------------------------------------------------------------------------

/-- A host register that holds a physical address in bits 51:12 (R368). -/
def pageBase (r : W64) : Nat := fieldOf r 51 12 * 4096

/-- CTXCMD when its command completes (R57). -/
def answerCtx (s : State) (res : Nat) : State :=
  { s with host := { s.host with ctxcmd := BitVec.ofNat 64 (res * 2 ^ 60) ||| (s.host.ctxcmd &&& 0xFF0F) } }

/-- 64-bit word `i` of a number read from memory. -/
def word64 (v i : Nat) : Nat := v / 2 ^ (64 * i) % 2 ^ 64

/-- R56: the descriptor of a context: its fields where it is accepted; one that cannot be read is refused. -/
def ctxDesc (s : State) (c : Nat) : Acc (Option Ctx) := (physAsk s (pageBase s.host.ctxbase + 64 * c) 64).bind fun r s =>
  let w (i : Nat) : Nat := word64 r.1 i
  let rsv := w 0 / 2 ^ 52 != 0 || w 0 % 2 ^ 12 != 0 || w 1 / 2 ^ 57 != 0 || w 2 / 2 ^ 16 != 0 || w 3 / 2 ^ 52 != 0 || w 4 / 2 ^ 16 != 0 ||
    w 5 / 2 ^ 57 != 0 || w 7 / 2 ^ 57 != 0
  if r.2.isSome || rsv || w 3 % 0x10000 != 0 || w 5 % 0x10000 != 0 || w 7 % 4 != 0 then .ok none s
  else
    .ok (some {
      st := .opened, root := w 0, htab := BitVec.ofNat 64 (w 1), hcount := w 2, savebase := w 3, savesize := w 4,
      saveva := BitVec.ofNat 64 (w 5), policy := BitVec.ofNat 64 (w 6), tvec := BitVec.ofNat 64 (w 7), images := [] }) s

/-- CTXCMD OPEN (Table 4-2). -/
def execCtxOpen (c : BitVec 8) (s : State) : Out :=
  let n := c.toNat
  if (s.ctx n).st != .free then .next (answerCtx s 1)
  else
    match ctxDesc s n with
    | .ok (some x) s1 => .next (answerCtx (s1.updCtx n (fun _ => x)) 0)
    | .wait s1 => .next s1
    | .ok none s1 => .next (answerCtx s1 1)
    | .fault _ s1 => .next (answerCtx s1 1)

/-- The handles of a context's groups. -/
def ctxGroups (s : State) (c : Nat) : List W64 := (s.groups.filter (fun g => g.ctxid == c)).map (fun g => g.handle)

/-- CTXCMD SUSPEND (Table 4-2): pre-emption requested of every group. -/
def execCtxSuspend (c : BitVec 8) (s : State) : Out :=
  let n := c.toNat
  match (s.ctx n).st with
  | .opened =>
    let hs := ctxGroups s n
    let s1 := hs.foldl (fun s h => requestPreempt s h none) s
    let st : CtxState := if hs.isEmpty then .suspended else .suspending
    .next (answerCtx (settleCtx (s1.updCtx n (fun x => { x with st := st })) n) 0)
  | .suspending => .next (answerCtx s 0)
  | .suspended => .next (answerCtx s 0)
  | _ => .next (answerCtx s 1)

/-- The save images of a context's groups move with the save area that a new descriptor gives (R56, R66). -/
def moveImages (s : State) (c : Nat) (old : Ctx) (x : Ctx) : State :=
  s.updGroups (fun g => g.ctxid == c) (fun g => { g with
    framePa := x.savebase + (g.framePa - old.savebase), tframe := x.saveva + BitVec.ofNat 64 (g.framePa - old.savebase) })

/-- CTXCMD RESUME (Table 4-2): the descriptor is read again, and pre-emption requests are withdrawn. -/
def execCtxResume (c : BitVec 8) (s : State) : Out :=
  let n := c.toNat
  let old := s.ctx n
  let again : Out :=
    match ctxDesc s n with
    | .ok (some x) s1 =>
      .next (answerCtx ((withdrawPreempt (moveImages s1 n old x) (fun g => g.ctxid == n) true).updCtx n (fun _ => { x with images := old.images })) 0)
    | .wait s1 => .next s1
    | .ok none s1 => .next (answerCtx s1 1)
    | .fault _ s1 => .next (answerCtx s1 1)
  match old.st with
  | .opened => .next (answerCtx s 0)
  | .suspending => again
  | .suspended => again
  | _ => .next (answerCtx s 1)

/-- Packets that `p` selects, and that have groups left to dispatch, are rejected with a status (R58, R76). -/
def rejectPkts (s : State) (p : Nat → Queue → Pkt → Bool) (status : Nat) : State :=
  let hit (q : Nat × Queue) (k : Pkt) : Bool := p q.1 q.2 k && !k.dispatched && k.status == 0
  let s1 : State := { s with queues := s.queues.map (fun q => (q.1, { q.2 with pkts := q.2.pkts.map (fun k => if hit q k then { k with status := status } else k) })) }
  s.queues.foldl (fun s1 q => q.2.pkts.foldl (fun s1 k => if hit q k then postComplete s1 q.1 k.seq else s1) s1) s1

/-- A group stops for good with a status: at its element boundaries, or from SAVED (R95). -/
def closeGroup (s : State) (h : W64) (status : EndStatus) (fr : List Byte) : State :=
  onGroup s h (fun s =>
    match s.grp.st with
    | .running => stopGroup s status 0 fr
    | .handler => stopGroup s status 0 fr
    | .saved => (s.updGrp (fun g => { g.coreless with st := .retiring, status := status, faultRec := fr })).postE (.groupRetire h)
    | _ => s)

/-- CTXCMD CLOSE (Table 4-2): every group is aborted with status CLOSED, images are discarded, packets rejected. -/
def execCtxClose (c : BitVec 8) (s : State) : Out :=
  let n := c.toNat
  match (s.ctx n).st with
  | .free => .next (answerCtx s 1)
  | .closing => .next (answerCtx s 0)
  | _ =>
    let s1 : State := s.updCtx n (fun x => { x with st := .closing })
    let s2 : State := { s1 with kerns := s1.kerns.map (fun k => if k.2.st == .ready && k.2.ctx == n then (k.1, { k.2 with st := .unloading }) else k) }
    let s3 := rejectPkts s2 (fun _ q _ => q.ctx == n) 1
    let s4 := (ctxGroups s3 n).foldl (fun s h => closeGroup s h .closed []) s3
    .next (answerCtx (settle s4) 0)

-- Kernels ------------------------------------------------------------------------------------------------------------

/-- KCMD when its command completes (R75). -/
def answerKern (s : State) (res reason : Nat) : State :=
  { s with host := { s.host with kcmd := BitVec.ofNat 64 (res * 2 ^ 60 + reason * 2 ^ 52) ||| (s.host.kcmd &&& 0xFFFFF00F) } }

/-- KCMD LOAD starts (R75, R76): LOADING, or refused. -/
def execKernelLoad (c : BitVec 8) (kid : BitVec 12) (s : State) : Out :=
  let k := kid.toNat
  let a := s.host.kaddr.toNat
  if (s.kern k).st != .free || (s.ctx c.toNat).st != .opened || a % 256 != 0 || highVa a then .next (answerKern s 1 0)
  else
    .next (({ s with loading := some (c.toNat, k) }.updKern k (fun _ => { Kern.free with st := .loading, ctx := c.toNat, base := s.host.kaddr })).postE
      .kernelLoadReadDone)

/-- KCMD UNLOAD (Table 5-1). -/
def execKernelUnload (c : BitVec 8) (kid : BitVec 12) (s : State) : Out :=
  let _ := c
  let k := kid.toNat
  match (s.kern k).st with
  | .ready => .next (answerKern (settle (s.updKern k (fun x => { x with st := .unloading }))) 0 0)
  | .unloading => .next (answerKern s 0 0)
  | _ => .next (answerKern s 1 0)

/-- Formats of the operand fields that a patch can name (R39, R42, R43), with their P fields as (HI, LO). -/
def patchFields (stream prim : Nat) : List (Nat × Nat) :=
  match stream with
  | 0 =>
    if 0x04 ≤ prim && prim ≤ 0x0A || prim == 0x17 then [(14, 0)]
    else if 0x0B ≤ prim && prim ≤ 0x0E || 0x34 ≤ prim && prim ≤ 0x35 || 0x37 ≤ prim && prim ≤ 0x39 || 0x3C ≤ prim && prim ≤ 0x3E then [(19, 0)]
    else if 0x18 ≤ prim && prim ≤ 0x1E || 0x20 ≤ prim && prim ≤ 0x29 || prim == 0x2B || prim == 0x2E || prim == 0x2F then [(11, 0)]
    else []
  | 1 =>
    if 0x14 ≤ prim && prim ≤ 0x17 || 0x28 ≤ prim && prim ≤ 0x2C || prim == 0x31 || prim == 0x32 then [(6, 0)]
    else if prim == 0x22 || prim == 0x23 then [(14, 0)]
    else []
  | 2 =>
    if 0x01 ≤ prim && prim ≤ 0x03 then [(19, 14), (13, 12)]
    else if 0x08 ≤ prim && prim ≤ 0x0B then [(11, 0)]
    else if 0x10 ≤ prim && prim ≤ 0x12 then [(19, 17), (14, 0)]
    else if prim == 0x13 || prim == 0x14 then [(13, 0)]
    else if prim == 0x04 || prim == 0x18 then [(15, 0)]
    else []
  | _ =>
    if 0x01 ≤ prim && prim ≤ 0x0D || 0x13 ≤ prim && prim ≤ 0x15 then [(7, 0)]
    else if 0x10 ≤ prim && prim ≤ 0x12 then [(15, 0)]
    else []

/-- What LOAD has read of a code object (R79): the header, the patch and rasterisation tables, and the code words that patches
name. -/
structure CodeObject where
  head : List Nat
  pats : List Nat
  rast : List W64
  code : List (Nat × Nat)
deriving DecidableEq, Repr

/-- Field `hi` to `lo` of header word `i`. -/
def CodeObject.f (o : CodeObject) (i hi lo : Nat) : Nat := o.head.getD i 0 / 2 ^ lo % 2 ^ (hi + 1 - lo)
/-- Word `w` of loop-table entry `l`. -/
def CodeObject.loopWord (o : CodeObject) (l w : Nat) : Nat := o.head.getD (8 + 4 * l + w) 0
/-- NLOOP. -/
def CodeObject.nloop (o : CodeObject) : Nat := o.f 5 34 32
/-- PARAMSIZE. -/
def CodeObject.paramSize (o : CodeObject) : Nat := o.f 5 12 0
/-- Whether a byte offset lies in the code region. -/
def CodeObject.inCode (o : CodeObject) (a : Nat) : Bool := o.f 3 31 0 ≤ a && a < o.f 3 31 0 + o.f 3 63 32
/-- Entries of the streams S, V, M, C. -/
def CodeObject.ents (o : CodeObject) : List Nat := [o.f 1 31 0, o.f 1 63 32, o.f 2 31 0, o.f 2 63 32]

/-- A patch entry (R84). -/
def patchOf (v : Nat) : Patch :=
  { poff := v / 2 ^ 44 % 2 ^ 12, stream := v / 2 ^ 42 % 4, hi := v / 2 ^ 37 % 32, lo := v / 2 ^ 32 % 32, word := v % 2 ^ 32 }

/-- A loop-table entry as LOAD copies it (Table 5-3). -/
def CodeObject.loopOf (o : CodeObject) (l : Nat) : LoopEnt :=
  let w0 := o.loopWord l 0
  let half (v i : Nat) : W32 := BitVec.ofNat 32 (v / 2 ^ (32 * i))
  { kind := w0 / 2 ^ 62, pcount := w0 / 2 ^ 61 % 2 == 1, count := w0 % 2 ^ 32,
    strides := [half (o.loopWord l 1) 0, half (o.loopWord l 1) 1, half (o.loopWord l 2) 0, half (o.loopWord l 2) 1],
    sels := (List.range 4).map (fun i => BitVec.ofNat 8 (o.loopWord l 3 / 2 ^ (8 * i))) }

/-- Check 2 of Table 5-4. -/
def CodeObject.rsvBad (o : CodeObject) : Bool :=
  o.f 0 15 1 != 0 || o.f 5 39 35 != 0 || o.f 5 31 13 != 0 || o.f 7 63 50 != 0 || o.f 7 47 41 != 0 || o.f 7 31 21 != 0 || o.f 7 15 14 != 0 ||
  o.f 7 7 6 != 0 || o.pats.any (fun p => p / 2 ^ 56 != 0) || o.rast.any (fun r => fieldOf r 63 60 != 0) ||
  (List.range 6).any (fun l =>
    o.loopWord l 0 / 2 ^ 32 % 2 ^ 29 != 0 || (o.loopWord l 0 / 2 ^ 61 % 2 == 1 && o.loopWord l 0 / 2 ^ 12 % 2 ^ 20 != 0) ||
    o.loopWord l 3 / 2 ^ 32 != 0 || (List.range 4).any (fun i => o.loopWord l 3 / 2 ^ (8 * i + 5) % 4 != 0))

/-- Check 3 of Table 5-4. A CODESIZE or an entry that is not a multiple of 4 is refused here too. -/
def CodeObject.layoutBad (o : CodeObject) : Bool :=
  let ents := o.ents.filter (fun e => e != 0xFFFFFFFF)
  o.f 3 31 0 % 4 != 0 || o.f 3 63 32 % 4 != 0 || o.f 6 31 0 % 8 != 0 || o.f 6 63 32 % 8 != 0 ||
  o.f 3 31 0 + o.f 3 63 32 > 2 ^ 32 || o.f 4 31 0 + o.f 4 63 32 > 2 ^ 32 || o.f 6 31 0 + 8 * o.f 5 47 40 > 2 ^ 32 ||
  o.f 6 63 32 + 8 * o.f 5 63 48 > 2 ^ 32 || ents.any (fun e => e % 4 != 0 || !o.inCode e)

/-- Check 4 of Table 5-4. -/
def CodeObject.loopsBad (o : CodeObject) : Bool :=
  o.nloop > 6 || o.f 5 63 48 > 4096 || o.paramSize % 8 != 0 || o.paramSize > 4096 ||
  (List.range 6).any (fun l =>
    if l ≥ o.nloop then (List.range 4).any (fun i => o.loopWord l i != 0)
    else
      let e := o.loopOf l
      e.kind == 3 || (e.pcount && (e.count % 4 != 0 || e.count % 4096 + 4 > o.paramSize)) ||
      [2, 3].any (fun i => (e.sels.getD i 0).toNat ≥ 128 && (e.sels.getD i 0).toNat % 32 > 15))

/-- Check 5 of Table 5-4. -/
def CodeObject.resBad (o : CodeObject) : Bool := o.f 7 5 0 + o.f 7 13 8 > 32 || o.f 7 20 16 > 16 || o.f 7 40 32 > 256

/-- Check 6 of Table 5-4 (R84). -/
def CodeObject.patchBad (o : CodeObject) : Bool :=
  let ps := o.pats.map patchOf
  ps.any (fun p =>
    let w := getA o.code p.word 0
    p.word % 4 != 0 || !o.inCode p.word || p.poff % 4 != 0 || p.poff + 4 > o.paramSize ||
    !(patchFields p.stream (if p.stream == 0 then w / 2 ^ 25 else w / 2 ^ 26)).contains (p.hi, p.lo) ||
    (ps.filter (fun q => q.word == p.word && q.hi == p.hi && q.lo == p.lo)).length > 1)

/-- Check 7 of Table 5-4. -/
def CodeObject.fieldBad (o : CodeObject) : Bool :=
  (o.pats.map patchOf).any (fun p => getA o.code p.word 0 / 2 ^ p.lo % 2 ^ (p.hi + 1 - p.lo) != 0)

/-- Check 8 of Table 5-4. -/
def CodeObject.rastBad (o : CodeObject) : Bool :=
  o.rast.any (fun r => (List.range 6).any (fun l => fieldOf r (10 * l + 9) (10 * l) != 0 && (l ≥ o.nloop || (o.loopOf l).kind == 0)))

/-- R79: the REASON of the first check of Table 5-4 that fails, 0 for none. -/
def CodeObject.reason (o : CodeObject) : Nat :=
  if o.f 0 63 32 != 0x4C4D4B4E || o.f 0 31 16 != 1 then 1
  else if o.rsvBad then 2
  else if o.layoutBad then 3
  else if o.loopsBad then 4
  else if o.resBad then 5
  else if o.patchBad then 6
  else if o.fieldBad then 7
  else if o.rastBad then 8
  else 0

/-- What LOAD copies into the device (R77). -/
def CodeObject.kern (o : CodeObject) (c : Nat) (base : W64) : Kern :=
  { st := .ready, ctx := c, base := base, paired := o.f 0 0 0 == 1, ents := o.ents, codeOff := o.f 3 31 0, codeSize := o.f 3 63 32,
    paramSize := o.paramSize, nloop := o.nloop, talk := o.f 7 48 48 == 1, listen := o.f 7 49 49 == 1, barn := o.f 7 40 32,
    accb := o.f 7 20 16, fifob := o.f 7 13 8, scrb := o.f 7 5 0, loops := (List.range o.nloop).map o.loopOf,
    patches := o.pats.map patchOf, rast := o.rast }

/-- A number as its 64-bit words. -/
def words64 (n v : Nat) : List Nat := (List.range n).map (word64 v)

/-- R79: everything that LOAD reads, through the context's address space. -/
def readObject (s : State) (c base : Nat) : Acc CodeObject :=
  let key := 3 * physKey
  devEnd key <| (devReadOf key s c base 256).bind (fun h s =>
    let head := words64 32 h
    let o : CodeObject := { head := head, pats := [], rast := [], code := [] }
    (devReadOf key s c (base + o.f 6 31 0) (8 * o.f 5 47 40)).bind (fun p s =>
      let pats := words64 (o.f 5 47 40) p
      (devReadOf key s c (base + o.f 6 63 32) (8 * o.f 5 63 48)).bind (fun r s =>
        let rast := (words64 (o.f 5 63 48) r).map (fun x => BitVec.ofNat 64 x)
        (pats.foldl (fun (acc : Acc (List (Nat × Nat))) p =>
          acc.bind (fun l s => (devReadOf key s c (base + p % 2 ^ 32) 4).bind (fun w s => .ok (setA l (p % 2 ^ 32) w) s))) (Acc.ok [] s)).bind
          (fun code s => .ok { head := head, pats := pats, rast := rast, code := code } s))))

/-- A LOAD's reads are done: the checks are made and the kernel is READY, or FREE with RESULT 2 or 3 (R76, R79). A context
that has become FREE has no address space to read through. -/
def execKernelLoadReadDone (s : State) : Out :=
  match s.loading with
  | none => .next s
  | some (c, k) =>
    let base := (s.kern k).base
    let fin (s : State) (x : Kern) (res reason : Nat) : Out :=
      .next (answerKern ({ s with loading := none }.updKern k (fun _ => x)) res reason)
    if (s.ctx c).st == .free then fin s .free 3 0
    else
      match readObject s c base.toNat with
      | .ok o s1 => if o.reason == 0 then fin s1 (o.kern c base) 0 0 else fin s1 .free 2 o.reason
      | .fault _ s1 => fin s1 .free 3 0
      | .wait s1 => .next s1

-- Interrupts of the host ---------------------------------------------------------------------------------------------

/-- A write to GINTV (R125): the interrupt is raised on the live group of this module that GINTH names. -/
def execGintv (v : BitVec 64) (s : State) : Out :=
  let s1 : State := { s with host := { s.host with gintv := v &&& 0xFFFFFFFF } }
  let h := s.host.ginth
  if !regOpen s then .next s
  else if fieldOf h 37 32 != s.modid then .next s1
  else .next (s1.updGroup h (fun g => g.interrupt (v.setWidth 32)))

end Sys2Proof.Machine
end

