-- ==== Sys2Proof/Machine/Gang.lean ====
section
/-! DEFINITION. Gang launches (R359 to R362): the messages between the members, the decision of the leader, and the abort of a
gang at this member. -/

namespace Sys2Proof.Machine

-- Messages -----------------------------------------------------------------------------------------------------------

/-- A gang message to a module: READY, COMMIT, ABORT or QUERY as `arg` 0 to 3 (Table 19-4), with GANGID and, for an ABORT, the
member that was lacked as its data (log entry 26). -/
def gangSend (s : State) (m arg : Nat) (id : W32) (lacked : Nat) : State :=
  enqueue s { packet0 m 13 0 with
    srcm := BitVec.ofNat 6 s.modid, arg := BitVec.ofNat 8 arg, data := toBytes id 4 ++ [BitVec.ofNat 8 lacked] }

/-- The members that a mask names, lowest first. -/
def gangMembers (mask : W64) : List Nat := (List.range 64).filter (bitAt mask)
/-- The leader: the member with the lowest module id (R359). -/
def gangLeader (mask : W64) : Nat := lowest 64 (bitAt mask)
/-- Whether this module leads a gang. -/
def leads (s : State) (g : Gang) : Bool := g.mask != 0 && gangLeader g.mask == s.modid

/-- The gang of an identifier at this member. -/
def gangOf (s : State) (id : W32) : Option Gang := s.gangs.find? (fun g => g.id == id)
/-- A gang changed. -/
def updGang (s : State) (id : W32) (f : Gang → Gang) : State := { s with gangs := s.gangs.map (fun g => if g.id == id then f g else g) }

/-- A gang that a leader has heard of before its own packet starts (Table 19-9, last row). -/
def Gang.heard (id : W32) : Gang :=
  { id := id, st := .waiting, queue := 0, pkt := 0, mask := 0, gtmo := 0, readyFrom := 0, since := 0, asked := none, queries := [],
    decided := none, decidedAt := 0, lacked := 0 }

/-- The state with a gang recorded, new where nothing is known of it. -/
def hearGang (s : State) (id : W32) : State := if (gangOf s id).isSome then s else { s with gangs := s.gangs ++ [Gang.heard id] }

-- Decisions ----------------------------------------------------------------------------------------------------------

/-- The lowest member whose READY a gang lacks; its own module counts as ready (R362). -/
def gangLacks (s : State) (g : Gang) : Nat :=
  ((gangMembers g.mask).find? (fun m => m != s.modid && !bitAt g.readyFrom m)).getD s.modid

/-- R362: the gang aborts at this member: its groups retire GANG_ABORTED, saved ones too, and no further group of the packet is
dispatched. -/
def abortGang (s : State) (g : Gang) (lacked : Nat) : State :=
  let s1 := updGang s g.id (fun g => { g with st := .aborted, lacked := lacked })
  let f (s : State) : FaultInfo :=
    { code := cGANGAB, stream := 0, async := false, imprecise := false, elvalid := false, element := 0, pc := s.pc 0,
      addr := g.id.setWidth 64, ipc := s.pc 0, word := wordAt s 0, detail := BitVec.ofNat 32 lacked, opa := 0, opb := 0, opc := 0, cycle := s.cycle }
  let hs := (s1.groups.filter (fun x => x.queue == g.queue && x.pkt == g.pkt)).map (fun x => x.handle)
  let s2 := updPkt s1 g.queue g.pkt (fun p => { p with dispatched := true })
  postComplete (hs.foldl (fun s h => closeGroup s h .gangAborted (recBytes (s.focus h) (f (s.focus h)))) s2) g.queue g.pkt

/-- The leader's decision: kept, sent to every other member where it sends one, and the answer to every recorded QUERY. -/
def gangDecide (s : State) (g : Gang) (commit : Bool) (lacked : Nat) (send : Bool) : State :=
  let arg := if commit then 1 else 2
  let dst := if send then (gangMembers g.mask).filter (fun m => m != s.modid) else g.queries
  let s1 := updGang s g.id (fun g => { g with decided := some commit, decidedAt := s.cycle, queries := [], lacked := lacked })
  let s2 := dst.foldl (fun s m => gangSend s m arg g.id lacked) s1
  if commit then updGang s2 g.id (fun g => { g with st := .confirmed }) else abortGang s2 g lacked

/-- The leader commits once it holds READY from every member (Table 19-9). -/
def gangTry (s : State) (id : W32) : State :=
  match gangOf s id with
  | some g =>
    if g.st == .tentative && leads s g && (gangMembers g.mask).all (fun m => m == s.modid || bitAt g.readyFrom m) then
      gangDecide s g true 0 true
    else s
  | none => s

/-- R360: a gang's packet starts at this member: READY to the leader, TENTATIVE; at the leader an ABORT already recorded aborts
at once. -/
def gangStart (s : State) (q : Nat) (p : Pkt) : State :=
  let old := (gangOf s p.gangId).filter (fun g => g.st == .waiting)
  let o := old.getD (Gang.heard p.gangId)
  let g : Gang := { o with
    st := .tentative, queue := q, pkt := p.seq, mask := p.gangMask, gtmo := p.gtmo, since := s.cycle, asked := none, decided := none }
  let s1 : State := { s with gangs := g :: s.gangs.filter (fun x => x.id != g.id) }
  if leads s1 g then
    if o.decided == some false then gangDecide s1 g false (gangLacks s1 g) false else gangTry s1 g.id
  else gangSend s1 (gangLeader g.mask) 0 g.id 0

-- Messages received --------------------------------------------------------------------------------------------------

/-- READY received (Table 19-9): at the leader it counts, before or after its own packet starts. -/
def execGangReadyReceived (g : BitVec 32) (m : BitVec 6) (s : State) : Out :=
  let s1 := hearGang s g
  match gangOf s1 g with
  | some x =>
    if x.st == .waiting || (x.st == .tentative && leads s1 x) then
      .next (gangTry (updGang s1 g (fun x => { x with readyFrom := x.readyFrom ||| BitVec.ofNat 64 (2 ^ m.toNat) })) g)
    else .next s1
  | none => .next s1

/-- COMMIT received (Table 19-9). -/
def execGangCommitReceived (g : BitVec 32) (s : State) : Out :=
  match gangOf s g with
  | some x => if x.st == .tentative && !leads s x then .next (updGang s g (fun x => { x with st := .confirmed })) else .next s
  | none => .next s

/-- ABORT received (Table 19-9): a TENTATIVE gang aborts; a leader whose packet has not started records it. -/
def execGangAbortReceived (g : BitVec 32) (lacked : BitVec 6) (s : State) : Out :=
  let s1 := hearGang s g
  match gangOf s1 g with
  | some x =>
    match x.st with
    | .waiting => .next (updGang s1 g (fun x => { x with decided := some false }))
    | .tentative => if leads s1 x then .next (gangDecide s1 x false (gangLacks s1 x) false) else .next (abortGang s1 x lacked.toNat)
    | _ => .next s1
  | none => .next s1

/-- QUERY received: the leader answers with its decision, once it has made one. -/
def execGangQueryReceived (g : BitVec 32) (m : BitVec 6) (s : State) : Out :=
  let s1 := hearGang s g
  match gangOf s1 g with
  | some x =>
    match x.st, x.decided with
    | .waiting, _ => .next (updGang s1 g (fun x => { x with queries := x.queries ++ [m.toNat] }))
    | _, some d => .next (gangSend s1 m.toNat (if d then 1 else 2) g x.lacked)
    | _, none => .next (if leads s1 x then updGang s1 g (fun x => { x with queries := x.queries ++ [m.toNat] }) else s1)
  | none => .next s1

-- Timeouts -----------------------------------------------------------------------------------------------------------

/-- Whether GTMO units of a gang, `k` times, have passed since a cycle. -/
def gangLate (s : State) (x : Gang) (k since : Nat) : Bool := since + k * x.gtmo * 1024 ≤ s.cycle

/-- The leader has waited GTMO without every READY: ABORT to every member (Table 19-9). -/
def execGangLeaderTimeout (g : BitVec 32) (s : State) : Out :=
  match gangOf s g with
  | some x =>
    if x.st == .tentative && leads s x && gangLate s x 1 x.since then .next (gangDecide s x false (gangLacks s x) true) else .next s
  | none => .next s

/-- Another member has waited twice GTMO: QUERY to the leader. -/
def execGangQueryTimeout (g : BitVec 32) (s : State) : Out :=
  match gangOf s g with
  | some x =>
    if x.st == .tentative && !leads s x && x.asked.isNone && gangLate s x 2 x.since then
      .next (gangSend (updGang s g (fun x => { x with asked := some s.cycle })) (gangLeader x.mask) 3 g 0)
    else .next s
  | none => .next s

/-- No answer within a further GTMO: ABORT to the leader, and the member aborts with the leader's id in DETAIL (R362). -/
def execGangAnswerTimeout (g : BitVec 32) (s : State) : Out :=
  match gangOf s g with
  | some x =>
    match x.asked with
    | some t =>
      if x.st == .tentative && !leads s x && gangLate s x 1 t then
        .next (abortGang (gangSend s (gangLeader x.mask) 2 g s.modid) x (gangLeader x.mask))
      else .next s
    | none => .next s
  | none => .next s

/-- The leader forgets a decision after 2^26 core cycles (R360). -/
def execGangDecisionExpiry (g : BitVec 32) (s : State) : Out :=
  match gangOf s g with
  | some x =>
    if x.decided.isSome && (x.st == .confirmed || x.st == .aborted) && x.decidedAt + 2 ^ 26 ≤ s.cycle &&
        !(s.queue x.queue).pkts.any (fun p => p.seq == x.pkt && p.gangId == g) then
      .next { s with gangs := s.gangs.filter (fun y => y.id != g) }
    else .next s
  | none => .next s

end Sys2Proof.Machine
end

