-- ==== Sys2Proof/Machine/Queue.lean ====
section
/-! DEFINITION. Work queues: descriptors and commands (R113 to R115), doorbells (R116), the taking and checking of packets
(R117 to R119), the capture of launch values (R80, R81, R83, R84) and completion (R123). -/

namespace Sys2Proof.Machine

-- Queue states -------------------------------------------------------------------------------------------------------

/-- STATE of Table 7-1. -/
def QState.code : QState → Nat
  | .off => 0
  | .ready => 1
  | .paused => 2
  | .error => 3
  | .draining => 4

/-- The physical address of a queue's descriptor (R113). -/
def queueDesc (s : State) (q : Nat) : Nat := pageBase s.host.qtbase + 32 * q

/-- The word of a queue's descriptor that the device writes: STATE and HEAD (Table 7-1). -/
def queueWord (s : State) (q : Nat) : State :=
  physWrite s (queueDesc s q + 16) 8 ((s.queue q).st.code * 2 ^ 16 + (s.queue q).head)

/-- A queue changed, with its descriptor's device word written. -/
def setQueue (s : State) (q : Nat) (f : Queue → Queue) : State := queueWord (s.updQueue q f) q

/-- Packets appended and not yet taken. -/
def Queue.pending (q : Queue) : Nat := (q.tail + 65536 - q.head) % 65536

/-- QCMD when its command completes (R114). -/
def answerQueue (s : State) (res : Nat) : State :=
  { s with host := { s.host with qcmd := BitVec.ofNat 64 (res * 2 ^ 60) ||| (s.host.qcmd &&& 0x7FFF000F) } }

/-- A read through a queue's context, for the device's own use; a context that is FREE maps nothing. -/
def queueRead (s : State) (c va n : Nat) : Acc Nat :=
  if (s.ctx c).st == .free then .fault (exc cPAGE va) s else devRead s c va n 0

/-- The virtual address of a packet of a queue's ring. -/
def Queue.slotVa (q : Queue) (seq : Nat) : Nat := q.ring.toNat + 128 * (seq % 2 ^ q.log2n)

-- Packets ------------------------------------------------------------------------------------------------------------

/-- A packet as it is read from its slot (Table 7-3). -/
def pktOf (seq v : Nat) : Pkt :=
  let w (i : Nat) : Nat := word64 v i
  let a (i : Nat) : W64 := BitVec.ofNat 64 (w i % 2 ^ 57)
  { seq := seq, typ := w 0 / 2 ^ 60, order := (w 0).testBit 56, cint := (w 0).testBit 55, kid := w 0 / 2 ^ 32 % 4096, param := a 1,
    recaddr := a 2, sumaddr := a 3, compctr := a 4, place := BitVec.ofNat 64 (w 5), trigs := [],
    gangId := if w 0 / 2 ^ 60 == 2 then BitVec.ofNat 32 (w 15) else 0, gangMask := BitVec.ofNat 64 (w 14),
    gtmo := w 15 / 2 ^ 32 % 2 ^ 16, captured := false, params := [], loops := [], points := [], cores := [], total := 0, next := 0, lex := 0,
    halves := 1, entry := none, spillFrom := none, spilled := false, retired := 0, counts := List.replicate 6 0, first := 0, faultva := 0,
    dispatched := false, status := 0, summed := false }

/-- Check 1 of R118: TYPE, NTRIG, RSV and zero fields, alignments, and for a gang R359. -/
def pktInvalid (s : State) (v : Nat) : Bool :=
  let w (i : Nat) : Nat := word64 v i
  let typ := w 0 / 2 ^ 60
  let nt := w 0 / 2 ^ 57 % 8
  let mode := w 5 / 2 ^ 62
  typ > 2 || nt > 4 || w 0 / 2 ^ 44 % 2 ^ 11 != 0 || w 0 % 2 ^ 32 != 0 || (typ == 0 && w 0 / 2 ^ 32 % 2 ^ 12 != 0) ||
  [1, 2, 3, 4].any (fun i => w i / 2 ^ 57 != 0) || w 1 % 8 != 0 || w 2 % 64 != 0 || w 3 % 64 != 0 || w 4 % 4 != 0 ||
  mode == 3 || w 5 / 2 ^ 54 % 4 != 0 || (mode != 1 && w 5 / 2 ^ 60 % 4 != 0) || (mode != 2 && w 5 % 2 ^ 54 != 0) ||
  (List.range 4).any (fun i =>
    if i < nt then w (6 + 2 * i) / 2 ^ 57 != 0 || w (6 + 2 * i) % 4 != 0 || w (7 + 2 * i) / 2 ^ 32 != 0
    else w (6 + 2 * i) != 0 || w (7 + 2 * i) != 0) ||
  (if typ == 2 then
    w 15 / 2 ^ 48 != 0 || w 15 / 2 ^ 32 % 2 ^ 16 == 0 || w 15 % 2 ^ 32 == 0 ||
    (gangMembers (BitVec.ofNat 64 (w 14))).length < 2 || !(w 14).testBit s.modid
   else w 14 != 0 || w 15 != 0)

/-- Whether a kernel may be used by a queue's packet (R118 check 3). -/
def kernUsable (s : State) (q : Queue) (p : Pkt) : Bool := (s.kern p.kid).st == .ready && (s.kern p.kid).ctx == q.ctx

/-- The checks of R118 in their order: the STATUS of the first that fails (Table 7-6), 0 for none. -/
def pktCheck (s : State) (q : Queue) (p : Pkt) (v : Nat) : Nat :=
  let st := (s.ctx q.ctx).st
  if pktInvalid s v then 5
  else if st == .free || st == .closing then 1
  else if p.typ != 0 && !kernUsable s q p then 2
  else 0

/-- The packet with its failing STATUS. -/
def Pkt.fail (p : Pkt) (status faultva : Nat) : Pkt := { p with status := status, faultva := BitVec.ofNat 64 faultva }

/-- R119: the triggers of a packet armed: each counter translated and read at its home. One that fails completes the packet with
FAULT; one in another module's memory, or in a block that cannot be read, is taken as failing. -/
def armTrigs (c : Nat) (v : Nat) : Nat → State → Pkt → Acc Pkt
  | 0, s, p => .ok p s
  | k + 1, s, p => (armTrigs c v k s p).bind fun p s =>
    if k ≥ word64 v 0 / 2 ^ 57 % 8 || p.status != 0 then .ok p s
    else
      let va := word64 v (6 + 2 * k)
      let θ : W32 := BitVec.ofNat 32 (word64 v (7 + 2 * k))
      match translate s 0 c va .load with
      | .ok t s1 =>
        if inRemote t.pa || rawBad s1 (t.pa / 128) &&& blocksOf (t.pa % 128) 4 != 0 then .ok (p.fail 3 va) s1
        else .ok { p with trigs := p.trigs ++ [(BitVec.ofNat 64 va, t.pa, θ, reached (counterAt s1 t.pa) θ)] } s1
      | .fault _ s1 => .ok (p.fail 3 va) s1
      | .wait s1 => .wait s1

/-- Whether a packet still has groups to dispatch. -/
def Pkt.open (p : Pkt) : Bool := !p.dispatched && p.status == 0

/-- A taken packet put among the live ones. -/
def putPkt (s : State) (n : Nat) (p : Pkt) : State :=
  postComplete (setQueue s n (fun x => { x with head := (x.head + 1) % 65536, pkts := x.pkts ++ [p] })) n p.seq

/-- Whether a DISABLE of a queue is BUSY: its untaken packets complete FLUSHED, and none is taken (R114, R115). -/
def disabling (s : State) (n : Nat) : Bool :=
  fieldOf s.host.qcmd 63 63 == 1 && fieldOf s.host.qcmd 3 0 == 2 && fieldOf s.host.qcmd 30 16 == n

/-- The next packet of a queue is taken, checked and armed (R118). Where its context is FREE there is nothing that it could be read
through, and it completes NOCTX (R58). DESIGN CHOICE: a packet is read at each attempt to take it, and the take waits where ORDER, or a
trigger's translation, makes it wait; what was read before is not kept (log entry 148). -/
def execPacketTake (q : BitVec 15) (s : State) : Out :=
  let n := q.toNat
  let x := s.queue n
  if x.st != .ready || x.pending == 0 || x.pkts.any Pkt.open || x.pkts.length ≥ 16 || disabling s n then .next s
  else if (s.ctx x.ctx).st == .free then .next (putPkt s n ((pktOf x.head 0).fail 1 0))
  else
    match queueRead s x.ctx (x.slotVa x.head) 128 with
    | .fault _ s1 => .next (setQueue s1 n (fun x => { x with st := .error }))
    | .wait s1 => .next s1
    | .ok v s1 =>
      let p := pktOf x.head v
      if p.order && !x.pkts.isEmpty then .next s1
      else
        let st := pktCheck s1 x p v
        if st != 0 then .next (putPkt s1 n (p.fail st 0))
        else
          match armTrigs x.ctx v 4 s1 p with
          | .ok p s2 => .next (putPkt s2 n p)
          | .fault _ s2 => .next s2
          | .wait s2 => .next s2

-- The capture of launch values ---------------------------------------------------------------------------------------

/-- R80: the counts of a launch: from the table, or from the parameter block. -/
def captureLoops (ls : List LoopEnt) (params : Nat) : List LoopEnt :=
  ls.map (fun e => if e.pcount then { e with count := params / 2 ^ (8 * (e.count % 4096)) % 2 ^ 32 } else e)

/-- Whether a loop level is spatial (R81). -/
def LoopEnt.spatial (e : LoopEnt) : Bool := e.kind == 1 || e.kind == 2

/-- R83: the points that a rasterisation table lists, in its order, without those out of range and without repeats. -/
def rastPoints (ls : List LoopEnt) (rast : List W64) : List (List Nat) :=
  let pts := rast.map (fun r => (List.range ls.length).map (fun l => fieldOf r (10 * l + 9) (10 * l)))
  (pts.filter (fun pt => (pt.zip ls).all (fun x => x.1 < x.2.count))).eraseDups

/-- R81: the number of spatial points. -/
def pointCount (ls : List LoopEnt) : Nat := ls.foldl (fun acc e => if e.spatial then acc * e.count else acc) 1

/-- A packet whose launch values have been captured (R80, R81, R83). -/
def Pkt.capture (p : Pkt) (k : Kern) (v : Nat) : Pkt :=
  let ls := captureLoops k.loops v
  let n := pointCount ls
  { p with
    captured := true, params := bytesOf k.paramSize v, loops := ls, points := if n == 0 then [] else rastPoints ls k.rast, total := n,
    halves := if k.paired then 2 else 1, dispatched := n == 0, status := if n > 2 ^ 32 then 4 else 0 }

/-- Once every trigger of a queue's packet has fired and its context is OPEN, its parameter block is read once (R80, R118); a NOP
completes; a gang starts (R360). -/
def execParameterBlockRead (q : BitVec 15) (s : State) : Out :=
  let n := q.toNat
  let x := s.queue n
  match x.pkts.find? (fun p => p.open && !p.captured) with
  | none => .next s
  | some p =>
    let put (s : State) (f : Pkt → Pkt) : Out := .next (settle (postComplete (updPkt s n p.seq f) n p.seq))
    if !p.trigs.all (fun t => t.2.2.2) || (s.ctx x.ctx).st != .opened then .next s
    else if p.typ == 0 then put s (fun p => { p with dispatched := true })
    else if !kernUsable s x p then put s (fun p => p.fail 2 0)
    else
      let k := s.kern p.kid
      match queueRead s x.ctx p.param.toNat k.paramSize with
      | .fault e s1 => put s1 (fun p => p.fail 3 e.addr.toNat)
      | .wait s1 => .next s1
      | .ok v s1 =>
        let p1 := p.capture k v
        let s2 := updPkt s1 n p.seq (fun _ => p1)
        if p.typ == 2 && p1.status == 0 then .next (settle (postComplete (gangStart s2 n p1) n p.seq)) else put s2 (fun p => p)

-- Completion ---------------------------------------------------------------------------------------------------------

/-- The 64-byte summary of a packet (Table 7-6). -/
def summaryOf (p : Pkt) (status : Nat) : Nat :=
  packNat 64 [status * 2 ^ 56 + p.seq, p.faultva.toNat] + packNat 32 (p.counts.map (fun c => c)) * 2 ^ 128 + p.first.toNat * 2 ^ 320

/-- The key of a packet's completion increment. -/
def pktKey (q seq : Nat) : Nat := 4 * (q * 2 ^ 16 + seq)

/-- The packet of a queue of that ring position has its summary (R123 step 2). -/
def markSummed (s : State) (q seq : Nat) : State :=
  let f (p : Pkt) : Pkt := if p.seq == seq then { p with summed := true } else p
  s.updQueue q (fun x => { x with pkts := x.pkts.map f, flushing := x.flushing.map f })

/-- R123 steps 2 to 4: summary, device-scope release, counter, host interrupt; each once, in this order, where one has to wait. The release
waits for the cores' writes and for the device's own, the records and the summary among them, wherever their home is (R369). -/
def finishPkt (s : State) (q : Nat) (p : Pkt) (status : Nat) : Acc Unit :=
  let c := (s.queue q).ctx
  let sum := summaryOf p status
  let skip (s : State) : State := eventRecord s 8 q 7 1 0 0
  let fin (s : State) : Acc Unit := .ok () (if p.cint then raiseMsi s (1 + q % 2047) else s)
  let count (s : State) : Acc Unit :=
    if p.compctr == 0 then fin s
    else if p.compctr.toNat % 4 != 0 then fin (skip s)
    else
      match devCount s c p.compctr.toNat (pktKey q p.seq) 0 with
      | .ok _ s => fin s
      | .fault _ s => fin (skip s)
      | .wait s => .wait s
  let drain (s : State) : Acc Unit :=
    if devUnacked s then .wait s
    else
      match allOf p.cores s (fun s core => (l1WbAll s core).bind (fun s =>
        (homeClean s (dieOf core) (s.core core).journal).map (fun s => s.updCore core (fun x => { x with journal := [] })))) with
      | none => .wait s
      | some s1 => count s1
  if devCounting s (pktKey q p.seq) then count s
  else if p.summed then drain s
  else if p.sumaddr != 0 && p.sumaddr.toNat % 64 == 0 && storeWaits s c p.sumaddr.toNat 64 sum then .wait s
  else drain (markSummed (if p.sumaddr == 0 then s else queueStore s q c p.sumaddr.toNat 64 64 sum) q p.seq)

/-- A packet that has completed leaves its queue; a DRAINING queue is OFF with its last live packet (Table 7-2). -/
def dropPkt (s : State) (q seq : Nat) : State :=
  let s1 := s.updQueue q (fun x => { x with pkts := x.pkts.filter (fun p => p.seq != seq) })
  let s2 : State := { s1 with gangs := s1.gangs.filter (fun g => !(g.queue == q && g.pkt == seq && g.st != .waiting && !leads s1 g)) }
  if (s2.queue q).st == .draining && (s2.queue q).pkts.isEmpty then setQueue s2 q (fun x => { x with st := .off }) else s2

/-- A packet completes (R123), once it has failed a check or every group that it dispatched has retired. -/
def execPacketComplete (q : BitVec 15) (n : BitVec 16) (s : State) : Out :=
  match (s.queue q.toNat).pkts.find? (fun p => p.seq == n.toNat) with
  | none => .next s
  | some p =>
    if !p.over then .next s
    else
      match finishPkt s q.toNat p p.status with
      | .ok _ s1 => .next (settle (dropPkt s1 q.toNat n.toNat))
      | .fault _ s1 => .next s1
      | .wait s1 => .next s1

-- Commands -----------------------------------------------------------------------------------------------------------

/-- QCMD ENABLE (R114, Table 7-2): the host's fields of the descriptor are read and checked. -/
def execQueueEnable (q : BitVec 15) (s : State) : Out :=
  let n := q.toNat
  if (s.queue n).st != .off then .next (answerQueue s 1)
  else
    match physAsk s (queueDesc s n) 32 with
    | .wait s1 => .next s1
    | .fault _ s1 => .next (answerQueue s1 1)
    | .ok r s1 =>
    let w (i : Nat) : Nat := word64 r.1 i
    let c := w 1 / 2 ^ 56
    let lg := w 1 / 2 ^ 52 % 16
    let quant := w 1 / 2 ^ 32 % 2 ^ 16
    if r.2.isSome || w 0 / 2 ^ 57 != 0 || w 2 / 2 ^ 19 != 0 || w 3 != 0 || lg < 4 || quant == 0 || w 0 % 4096 != 0 || (s.ctx c).st != .opened then .next (answerQueue s1 1)
    else
      .next (answerQueue (setQueue s1 n (fun _ => { Queue.off with
        st := .ready, ring := BitVec.ofNat 64 (w 0), ctx := c, log2n := lg, prio := w 1 / 2 ^ 49 % 8, devok := (w 1).testBit 48,
        quant := quant, deadline := w 1 % 2 ^ 32 })) 0)

/-- R115: the untaken packets of a queue taken and completed FLUSHED, in order, as far as nothing has to wait. A slot whose read faults is
only counted as taken. -/
def flushQueue : Nat → State → Nat → Acc Unit
  | 0, s, _ => .ok () s
  | k + 1, s, n =>
    let x := s.queue n
    let taken (s : State) (p : Option Pkt) : State := s.updQueue n (fun x => { x with head := (x.head + 1) % 65536, flushing := p })
    match x.flushing with
    | some p => (finishPkt s n p 6).bind (fun _ s => flushQueue k (s.updQueue n (fun x => { x with flushing := none })) n)
    | none =>
      if x.pending == 0 then .ok () s
      else
        match queueRead s x.ctx (x.slotVa x.head) 128 with
        | .ok v s1 => flushQueue k (taken s1 (some (pktOf x.head v))) n
        | .fault _ s1 => flushQueue k (taken s1 none) n
        | .wait s1 => .wait s1

/-- QCMD DISABLE (Table 7-2): BUSY until every untaken packet has completed. -/
def execQueueDisable (q : BitVec 15) (s : State) : Out :=
  let n := q.toNat
  let x := s.queue n
  if x.st == .off || x.st == .draining then .next (answerQueue s 0)
  else
    match flushQueue (2 * 65536) s n with
    | .wait s1 => .next s1
    | .fault _ s1 => .next s1
    | .ok _ s1 =>
      .next (answerQueue (setQueue s1 n (fun x => { x with st := if x.pkts.isEmpty then .off else .draining })) 0)

/-- QCMD PAUSE (Table 7-2). -/
def execQueuePause (q : BitVec 15) (s : State) : Out :=
  let n := q.toNat
  match (s.queue n).st with
  | .ready => .next (answerQueue (setQueue s n (fun x => { x with st := .paused })) 0)
  | .paused => .next (answerQueue s 0)
  | _ => .next (answerQueue s 1)

/-- QCMD RESUME (Table 7-2). -/
def execQueueResume (q : BitVec 15) (s : State) : Out :=
  let n := q.toNat
  match (s.queue n).st with
  | .paused => .next (answerQueue (setQueue s n (fun x => { x with st := .ready })) 0)
  | .ready => .next (answerQueue s 0)
  | _ => .next (answerQueue s 1)

/-- QCMD RESET (Table 7-2): untaken packets are discarded without completion. -/
def execQueueReset (q : BitVec 15) (s : State) : Out :=
  let n := q.toNat
  match (s.queue n).st with
  | .error => .next (answerQueue (setQueue s n (fun x => { x with st := .ready, head := x.tail })) 0)
  | _ => .next (answerQueue s 1)

/-- A write to QDB (R116). -/
def execQdb (q : BitVec 15) (tail : BitVec 16) (s : State) : Out :=
  let n := q.toNat
  let x := s.queue n
  let k := (tail.toNat + 65536 - x.head) % 65536
  if !regOpen s || x.devok || !(x.st == .ready || x.st == .paused) then .next s
  else if k > 2 ^ x.log2n || k < x.pending then .next (setQueue s n (fun x => { x with st := .error }))
  else .next (s.updQueue n (fun x => { x with tail := tail.toNat }))

/-- The SPILL period of a packet's next group has passed without a fit (R122). -/
def execSpillExpiry (q : BitVec 15) (s : State) : Out :=
  let n := q.toNat
  let late (p : Pkt) : Bool :=
    p.open && fieldOf p.place 59 56 != 0 && p.spillFrom.any (fun c => c + fieldOf p.place 59 56 * 1024 ≤ s.cycle)
  .next (s.updQueue n (fun x => { x with pkts := x.pkts.map (fun p => if late p then { p with spilled := true } else p) }))

end Sys2Proof.Machine
end

