-- ==== Sys2Proof/Machine/Place.lean ====
section
/-! DEFINITION. The package work distributor: choice among queues (R120), pre-emption for a higher priority (R121), placement
(R71, R82, R122, R190, R192, R210), the start of a group (R81, R94, R99) and its resumption (R74). -/

namespace Sys2Proof.Machine

-- What a group needs of a core ---------------------------------------------------------------------------------------

/-- The resources that a kernel header requests (R77, R210). -/
structure Need where
  scrb : Nat
  fifob : Nat
  accb : Nat
  barn : Nat
  talk : Bool
  listen : Bool
deriving DecidableEq, Repr

/-- The needs of a kernel. -/
def Kern.need (k : Kern) : Need := { scrb := k.scrb, fifob := k.fifob, accb := k.accb, barn := k.barn, talk := k.talk, listen := k.listen }
/-- The needs of a group. -/
def Group.need (g : Group) : Need := { scrb := g.scrb, fifob := g.fifob, accb := g.accb, barn := g.barn, talk := g.talk, listen := g.listen }
/-- The size of an image (R71). -/
def Need.image (n : Need) : Nat := 65536 + 131072 * (n.scrb + n.fifob) + 32768 * n.accb

/-- The groups placed on a core, but for some. -/
def placedOn (s : State) (c : Nat) (out : List W64) : List Group :=
  s.groups.filter (fun g => g.core == c && g.st != .saved && g.slot < 4 && !out.contains g.handle)

/-- The job slots of a core that are free. -/
def freeSlots (s : State) (c : Nat) (out : List W64) : List Nat :=
  (List.range 4).filter (fun j => !(placedOn s c out).any (fun g => g.slot == j))

/-- The CACHE banks of a bank group of a core; those of the groups left out count. -/
def freeBanksOf (s : State) (c j : Nat) (out : List W64) : List Nat :=
  (List.range 32).filter (fun p => p / 8 == j && (match (s.core c).banks[p]? with
    | some b => b.mode == .cache || (b.owner != 0 && out.contains b.owner)
    | none => false))

/-- The barrier objects of a core that no entry names (R313). -/
def freeBars (s : State) (c : Nat) (out : List W64) : List Nat :=
  (List.range 256).filter (fun i => !(placedOn s c out).any (fun g => g.bmap.any (fun e => e.own == i || (e.kind != .unmapped && e.obj == i))))

/-- Physical accumulator banks of a core that no entry names (R198). -/
def freeAccs (s : State) (c : Nat) (out : List W64) : List Nat :=
  (List.range 16).filter (fun p => !(placedOn s c out).any (fun g => g.amap.any (fun e => e.any (fun x => x.phys == p))))

/-- Whether a core fits a need, with the groups of `out` gone (R74, R190, R198, R210, R307, R367). -/
def fits (s : State) (c : Nat) (out : List W64) (n : Need) : Bool :=
  let gs := placedOn s c out
  s.ready.getD c 0 == 1 && (s.die (dieOf c)).moving != some c && !(freeSlots s c out).isEmpty &&
  !(n.talk && gs.any (fun g => g.talk)) && !(n.listen && gs.any (fun g => g.listen)) &&
  (List.range 4).all (fun j => ((List.range (n.scrb + n.fifob)).filter (fun b => b % 4 == j)).length ≤ (freeBanksOf s c j out).length) &&
  n.accb ≤ (freeAccs s c out).length && gs.foldl (fun acc g => acc + g.barn) n.barn ≤ 256 && n.barn ≤ (freeBars s c out).length

/-- The first offset at which an image fits between the images of a save area (R71). -/
def imageAt (c : Ctx) (size : Nat) : Option Nat :=
  let ends := 0 :: c.images.map (fun i => i.1 + i.2)
  let ok (o : Nat) : Bool := o + size ≤ c.savesize * 2 ^ 20 && c.images.all (fun i => o + size ≤ i.1 || i.1 + i.2 ≤ o)
  (ends.filter ok).foldl (fun (b : Option Nat) o => match b with
    | some x => some (min x o)
    | none => some o) none

/-- The offsets at which `k` images of a size fit, each beside those before it (R71, R96). -/
def imagesAt : Nat → Ctx → Nat → Option (List Nat)
  | 0, _, _ => some []
  | k + 1, c, size => (imageAt c size).bind (fun o => (imagesAt k { c with images := c.images ++ [(o, size)] } size).map (fun l => o :: l))

-- The choice of a core -----------------------------------------------------------------------------------------------

/-- The cores of a die that fit a need. -/
def fitting (s : State) (die : Nat) (out : List W64) (n : Need) : List Nat :=
  ((List.range 8).map (fun i => 8 * die + i)).filter (fun c => fits s c out n)

/-- Among some cores, one with the fewest groups, a tie open to the device (R82). -/
def pickCore (s : State) (cs : List Nat) : Nat :=
  let load (c : Nat) : Nat := (placedOn s c []).length
  let best := cs.filter (fun c => cs.all (fun x => load c ≤ load x))
  match best with
  | [c] => c
  | _ => best.getD (Config.freeCore s.fresh % best.length) 0

/-- The cores for a group or a pair: on the first of some dies that has room (R82, R96). -/
def pickCores (s : State) (dies : List Nat) (pair : Bool) (n : Need) : Option (List Nat) :=
  dies.findSome? (fun d =>
    let cs := fitting s d [] n
    if pair then
      if cs.length < 2 then none
      else
        let a := pickCore s cs
        some [a, pickCore s.tick1 (cs.filter (fun c => c != a))]
    else if cs.isEmpty then none
    else some [pickCore s cs])

/-- Whether some die would fit a group or a pair with the groups of `out` gone (R121). -/
def wouldFit (s : State) (dies : List Nat) (pair : Bool) (n : Need) (out : List W64) : Bool :=
  dies.any (fun d => (fitting s d out n).length ≥ (if pair then 2 else 1))

/-- The dies of a quadrant, in rotation from one of them (R82). -/
def quadDies (q rot : Nat) : List Nat := (List.range 3).map (fun i => 3 * q + (rot + i) % 3)

/-- The free job slots of a quadrant on cores that fit (R122). -/
def quadFree (s : State) (q : Nat) (n : Need) : Nat :=
  (List.range 24).foldl (fun acc i =>
    let c := 24 * q + i
    if fits s c [] n then acc + (freeSlots s c []).length else acc) 0

/-- Insertion of a quadrant by falling rank, equal ranks in the order of arrival. -/
def insRank (rank : Nat → Nat) (x : Nat) : List Nat → List Nat
  | [] => [x]
  | y :: ys => if rank y < rank x then x :: y :: ys else y :: insRank rank x ys

/-- The quadrants by falling rank, ties to the lowest index. -/
def byRank (rank : Nat → Nat) : List Nat := (List.range 4).foldl (fun acc q => insRank rank q acc) []

/-- The SPREAD order (Table 7-5). -/
def spreadOrder (s : State) (n : Need) : List Nat := byRank (fun q => quadFree s q n)

/-- The order of the quadrants for a new group: by PLACE, with a TABLE entry where the mode needs one (R122). -/
def placeOrder (s : State) (p : Pkt) (n : Need) (entry : Nat) : List Nat :=
  let spread := spreadOrder s n
  match fieldOf p.place 63 62 with
  | 1 => let f := fieldOf p.place 61 60
         f :: spread.filter (fun q => q != f)
  | 2 => byRank (fun q => entry / 2 ^ (16 * q) % 2 ^ 16 * 1024 + quadFree s q n)
  | _ => spread

-- The next point of a launch -----------------------------------------------------------------------------------------

/-- The spatial point of a number in lexicographic order, level 0 varying slowest (R83). -/
def pointAt (ls : List LoopEnt) (k : Nat) : List Nat :=
  (ls.foldr (fun e (acc : List Nat × Nat) => if e.spatial then (acc.2 % e.count :: acc.1, acc.2 / e.count) else (0 :: acc.1, acc.2)) ([], k)).1

/-- The first lexicographic number from `k` on whose point the rasterisation table does not list. -/
def skipListed (p : Pkt) : Nat → Nat → Nat
  | 0, k => k
  | n + 1, k => if p.points.contains (pointAt p.loops k) then skipListed p n (k + 1) else k

/-- The next point of a launch, and the lexicographic number after it (R83). -/
def nextPoint (p : Pkt) : List Nat × Nat :=
  match p.points[p.next]? with
  | some pt => (pt, p.lex)
  | none =>
    let k := skipListed p p.points.length p.lex
    (pointAt p.loops k, k + 1)

-- Taking a place -----------------------------------------------------------------------------------------------------

/-- A CACHE bank of a core assigned to a logical bank of the group in focus; the choice is the device's (R192). -/
def assignBank (s : State) (b : Nat) (target : BankMode) : State :=
  let c := s.grp.core
  let l := freeBanksOf s c (b % 4) []
  let p := l.getD (Config.freeBank s.fresh % l.length) 0
  let s1 := s.tick1.updCore c (fun x => { x with banks := updAt x.banks p (fun k => { k with
    mode := if k.misses == 0 then .drainW else .drainF, target := target, owner := s.grp.handle }) })
  (s1.updGrp (fun g => { g with lmap := g.lmap ++ [p] })).postE
    (if ((s.core c).banks.getD p { mode := .cache, target := .cache, owner := 0, misses := 0 }).misses == 0
      then .bankWritebackDone (BitVec.ofNat 7 c) (BitVec.ofNat 5 p) else .bankFillDone (BitVec.ofNat 7 c) (BitVec.ofNat 5 p))

/-- Every logical bank of the group in focus assigned (R190). -/
def assignBanks (s : State) : State :=
  let g := s.grp
  (List.range (g.scrb + g.fifob)).foldl (fun s b => assignBank s b (if b < g.scrb then .scratch else .fifo))
    (s.updGrp (fun g => { g with lmap := [] }))

/-- A barrier object of the core for logical id `id` of the group in focus, holding `o` (R307, R313). -/
def assignBar (s : State) (id : Nat) (o : BitVec 128) (e : BEntry) : State :=
  let c := s.grp.core
  let l := freeBars s c []
  let i := l.getD (Config.freePhys s.fresh % l.length) 0
  (s.tick1.updCore c (fun x => { x with bars := updAt x.bars i (fun _ => o), badBar := x.badBar.filter (fun b => b != i) })).updGrp (fun g => { g with
    bmap := g.bmap.take id ++ [{ e with obj := if e.kind == .unmapped then e.obj else i, own := i }] ++ g.bmap.drop (id + 1) })

/-- The core that a group comes to: a context switch applies the die's invalidation log, and a device-scope acquire is performed
(R74, R289, R322). -/
def arriveCore (s : State) : State :=
  let g := s.grp
  let s1 := if (s.core g.core).lastCtx == some g.ctxid then s else ilApply s (dieOf g.core)
  let s2 := s1.updCore g.core (fun x => { x with lastCtx := some g.ctxid })
  match acquire s2 g.handle g.core 3 with
  | .ok _ s3 => s3
  | .fault _ s3 => s3
  | .wait s3 => s3

/-- The sum by which the selectors of a stream set a register before the first issue (R81). -/
def strideStart (g : Group) (st r : Nat) : Int :=
  ((List.range g.loops.length).filter (fun l =>
    let e := g.loopEnt l
    e.spatial && (e.sels.getD st 0).toNat ≥ 128 && (e.sels.getD st 0).toNat % 32 == r)).foldl
    (fun acc l => acc + ((g.loopEnt l).strides.getD st 0).toInt * (g.sidx.getD l 0).toNat) 0

/-- The registers that the stride selectors of spatial levels name (R81). -/
def Group.strided (g : Group) : Group :=
  { g with
    gregs := tab 32 (fun r => if r == 0 then 0 else BitVec.ofInt 64 (strideStart g 0 r)),
    vregs := tab 32 (fun r => List.replicate 128 (BitVec.ofInt 32 (strideStart g 1 r))),
    dregs := tab 16 (fun r => dBase 0 (fun _ => BitVec.ofInt 32 (strideStart g 2 r))),
    aregs := tab 16 (fun r => BitVec.ofInt 64 (strideStart g 3 r)) }

/-- A stream as it starts: READY at its entry, or ENDED where it has no code (R98). -/
def StreamSt.start (base : W64) (entry : Nat) : StreamSt :=
  if entry == 0xFFFFFFFF then .off else { StreamSt.off with pc := base + BitVec.ofNat 64 entry, run := .ready, result := 0xFFFF }

/-- Whether a live group holds a serial (R94). -/
def serialUsed (s : State) (v : W32) : Bool := s.groups.any (fun g => g.handle.setWidth 32 == v)

/-- The next serial from which on `k` consecutive serials are free (R94). The first argument bounds the search. -/
def nextSerial : Nat → State → Nat → W32 → W32
  | 0, _, _, v => v
  | n + 1, s, k, v => if (List.range k).any (fun i => serialUsed s (v + BitVec.ofNat 32 i)) then nextSerial n s k (v + 1) else v

/-- A group handle (R94). -/
def handleOf (s : State) (ctx kid pair : Nat) (serial : W32) : W64 :=
  BitVec.ofNat 64 (ctx * 2 ^ 56 + kid * 2 ^ 44 + pair * 2 ^ 42 + s.modid % 64 * 2 ^ 32 + serial.toNat)

/-- R94 to R99: a new group of a packet placed on a core, as half `half` of a pair or alone, with its image at an offset. -/
def startGroup (s : State) (q : Nat) (p : Pkt) (core half off : Nat) (h partner : W64) (pt : List Nat) : State :=
  let x := s.queue q
  let k := s.kern p.kid
  let c := s.ctx x.ctx
  let n := k.need
  let slot := (freeSlots s core []).getD 0 0
  let code (i : Nat) : StreamSt := StreamSt.start k.base (k.ents.getD i 0)
  let g : Group := { Group.empty with
    st := .running, handle := h, core := core, slot := slot, prio := x.prio, age := s.fresh, queue := q, pkt := p.seq,
    pos := p.next * p.halves + half, half := half, partner := partner, scrb := n.scrb, fifob := n.fifob, accb := n.accb, barn := n.barn,
    talk := n.talk, listen := n.listen, loops := p.loops,
    patches := k.patches.map (fun e => (e, BitVec.ofNat 32 (leNat (p.params.drop e.poff) % 2 ^ 32))),
    codeBase := k.base, paramptr := p.param, sidx := (List.range 6).map (fun l => BitVec.ofNat 32 (pt.getD l 0)),
    ss := code 0, vs := code 1, ms := code 2, cs := code 3, tvec := c.tvec, tframe := c.saveva + BitVec.ofNat 64 off,
    framePa := c.savebase + off, imgSize := n.image, fifos := List.replicate n.fifob { head := 0, tail := 0, data := [], bad := [] },
    bmap := List.replicate n.barn { kind := .unmapped, obj := 256, own := 256, reg := false, last := none } }
  let s1 : State := { s with grp := g.strided, others := if s.grp.st == .none then s.others else s.grp :: s.others }
  let s2 := s1.tick1.updCtx x.ctx (fun c => { c with images := c.images ++ [(off, n.image)] })
  let s3 := assignBanks (arriveCore s2)
  let s4 := (List.range n.accb).foldl accAlloc s3
  (List.range n.barn).foldl (fun s id => assignBar s id 0 { kind := .owned, obj := 0, own := 0, reg := false, last := none }) s4

/-- The accumulator bank `b` of the group in focus restored from its save (R201). -/
def restoreAcc (s : State) (b : Nat) : State :=
  match s.grp.amapAt b with
  | none => s
  | some e =>
    let cells := s.grp.accSaved.filter (fun c => c.1 / 8192 == b)
    let s1 := accAlloc (s.setAmap b none) b
    let phys := ((s1.grp.amapAt b).map (fun x => x.phys)).getD 0
    let s2 := s1.setAmap b (some { phys := phys, owned := true, band := e.band, keys := [] })
    cells.foldl (fun s c => s.updCore s.grp.core (fun x => { x with acc := setA x.acc (phys * 8192 + c.1 % 8192) c.2 })) s2

/-- Table 11-2: the group in focus has been placed again: its SAVED session may be readmitted. -/
def unpark (s : State) : State :=
  match s.grp.memb with
  | none => s
  | some m => if m.parked then readmit s m.str m.key s.grp.ctxid else s

/-- A saved group placed on a core again (R74): its state as it was, its banks, accumulators and barriers placed anew, a
device-scope acquire before any stream issues. Its packet's completion drains that core too (R123). -/
def resumeGroup (s : State) (h : W64) (core : Nat) : State :=
  let s0 := s.focus h
  let slot := (freeSlots s0 core []).getD 0 0
  let back (t : StreamSt) : StreamSt := { t with run := if t.kept == .ended then .ended else .ready }
  let s1 := (updPkt s0 s0.grp.queue s0.grp.pkt (fun p => { p with cores := insSorted core p.cores })).updGrp (fun g =>
    let g1 := { g with core := core, slot := slot, st := if g.hmode then .handler else .running, preq := false, preqFor := none, preqSusp := false }
    if g.hmode then { g1 with ss := { g1.ss with run := .ready } }
    else if g.pairHold then g1
    else { g1 with ss := back g1.ss, vs := back g1.vs, ms := back g1.ms, cs := back g1.cs })
  let s2 := assignBanks (arriveCore s1)
  let s3 := (List.range 16).foldl restoreAcc s2
  let es := s3.grp.bmap
  let blank := s3.updGrp (fun g => { g with bmap := g.bmap.map (fun e => { e with kind := .unmapped, obj := 256, own := 256 }) })
  let s4 := (List.range es.length).foldl (fun s id =>
    let e := es.getD id { kind := .unmapped, obj := 256, own := 256, reg := false, last := none }
    assignBar s id (if e.kind == .owned then getA s.grp.barSaved id 0 else 0) e) blank
  unpark (s4.updGrp (fun g => { g with accSaved := [], barSaved := [] }))

-- Dispatchable work (R120) -------------------------------------------------------------------------------------------

/-- What a queue would dispatch next: a saved group, or the next group of a packet. -/
inductive Work where
  | resume (g : Group)
  | fresh (p : Pkt)
deriving DecidableEq, Repr

/-- The oldest of some groups. -/
def oldest : List Group → Option Group
  | [] => none
  | g :: gs => match oldest gs with
    | some x => if x.age < g.age then some x else some g
    | none => some g

/-- The next dispatchable work of a queue: saved groups before new ones, oldest first. A queue that is PAUSED has none (R115). -/
def nextWork (s : State) (q : Nat) (x : Queue) : Option Work :=
  if x.st == .paused || x.st == .off || (s.ctx x.ctx).st != .opened then none
  else
    match oldest (s.groups.filter (fun g => g.queue == q && g.st == .saved)) with
    | some g => some (.resume g)
    | none => (x.pkts.find? (fun p => p.open && p.captured)).map Work.fresh

/-- Whether a piece of work is a pair (R96). -/
def Work.pair : Work → Bool
  | .resume g => g.partner != 0
  | .fresh p => p.halves == 2

/-- The needs of a piece of work. -/
def Work.need (s : State) : Work → Need
  | .resume g => g.need
  | .fresh p => (s.kern p.kid).need

/-- The TABLE entry of the next group of a packet, read once when the group reaches the head of dispatch (R122); 0 in the other modes. -/
def tableEntry (s : State) (q : Nat) (p : Pkt) : Acc Nat :=
  match p.entry with
  | some v => .ok v s
  | none =>
    if fieldOf p.place 63 62 != 2 then .ok 0 s
    else (queueRead s (s.queue q).ctx (8 * fieldOf p.place 53 0 + 8 * (p.next * p.halves)) 8).bind (fun v s =>
      .ok v (updPkt s q p.seq (fun p => { p with entry := some v })))

/-- The index sum over the KIND 2 levels of a point: groups that differ on one such level only lie on different dies (R82). -/
def dieRot (p : Pkt) : Nat :=
  ((nextPoint p).1.zip p.loops).foldl (fun acc x => if x.2.kind == 2 then acc + x.1 else acc) 0

/-- The quadrants for a piece of work, the chosen one first (R74, R122). -/
def workOrder (s : State) (w : Work) (entry : Nat) : List Nat :=
  match w with
  | .resume g => spreadOrder s g.need
  | .fresh p => placeOrder s p (s.kern p.kid).need entry

/-- The dies of some quadrants in the order of their trial (R82). -/
def Work.dies (w : Work) (quads : List Nat) : List Nat :=
  quads.flatMap (fun q => quadDies q (match w with
    | .resume _ => 0
    | .fresh p => dieRot p))

/-- The dies that a piece of work may go to now, in the order of their trial (R74, R122): those of the chosen quadrant, and of the others
once SPILL has passed; a saved group may resume anywhere. -/
def workDies (s : State) (w : Work) (entry : Nat) : List Nat :=
  let order := workOrder s w entry
  w.dies (match w with
    | .resume _ => order
    | .fresh p => if p.spilled then order else order.take 1)

/-- A new group or pair of a packet started on cores (R83, R94, R96); none where no image can be reserved (R71). One without code in any
stream retires at once (R95, R98). -/
def dispatchFresh (s : State) (q : Nat) (p : Pkt) (cores : List Nat) : Option State :=
  let x := s.queue q
  let k := s.kern p.kid
  let size := k.need.image
  let pt := nextPoint p
  let v := nextSerial (2 * s.groups.length + 2) s cores.length s.serial
  let hs := if cores.length == 2 then [handleOf s x.ctx p.kid 2 v, handleOf s x.ctx p.kid 3 (v + 1)] else [handleOf s x.ctx p.kid 0 v]
  let fin (s : State) : State :=
    { (updPkt s q p.seq (fun p => { p with
        next := p.next + 1, lex := pt.2, cores := cores.foldl (fun l c => insSorted c l) p.cores, entry := none, spillFrom := none, spilled := false,
        dispatched := p.next + 1 == p.total })) with serial := v + BitVec.ofNat 32 cores.length }
  match cores, imagesAt cores.length (s.ctx x.ctx) size with
  | [a], some [o] => some (retireIfEnded (fin (startGroup s q p a 0 o (hs.getD 0 0) 0 pt.1)))
  | [a, b], some [o, o2] =>
    some (retireIfEnded (fin (startGroup (startGroup s q p a 0 o (hs.getD 0 0) (hs.getD 1 0) pt.1) q p b 1 o2 (hs.getD 1 0) (hs.getD 0 0) pt.1)))
  | _, _ => none

/-- A saved group, with its other half, resumed on cores. -/
def dispatchSaved (s : State) (g : Group) (cores : List Nat) : Option State :=
  match cores with
  | [a] => some (retireIfEnded (resumeGroup s g.handle a))
  | [a, b] =>
    let first := if g.half == 0 then g.handle else g.partner
    let second := if g.half == 0 then g.partner else g.handle
    some (retireIfEnded (resumeGroup (resumeGroup s first a) second b))
  | _ => none

/-- R121: `dies` being those of the quadrant chosen for the waiting group, pre-emption requested of the group of lowest PRIO, youngest first, whose removal would make room, where its PRIO is
strictly lower and no request is outstanding for this queue's group. -/
def askPreempt (s : State) (q prio : Nat) (dies : List Nat) (pair : Bool) (n : Need) : State :=
  if s.groups.any (fun g => g.preqFor == some q) then s
  else
    let cands := s.groups.filter (fun g => (g.st == .running || g.st == .handler) && !g.preq && g.prio < prio && dies.contains (dieOf g.core) &&
      wouldFit s dies pair n (if g.partner == 0 then [g.handle] else [g.handle, g.partner]))
    let better (a b : Group) : Bool := a.prio < b.prio || (a.prio == b.prio && b.age < a.age)
    match cands.find? (fun g => cands.all (fun x => x.handle == g.handle || better g x)) with
    | some g => requestPreempt s g.handle (some q)
    | none => s

/-- The work of a queue tried (R120 to R122): dispatched, or the state with what a failed trial leaves and whether another trial
of the same queue is due because a packet failed. -/
def tryWork (s : State) (q : Nat) (w : Work) : Bool × State :=
  let n := w.need s
  let c := (s.queue q).ctx
  let entry := match w with
    | .fresh p => tableEntry s q p
    | .resume _ => .ok 0 s
  match entry with
  | .fault e s1 =>
    (false, match w with
      | .fresh p => settle (postComplete (updPkt s1 q p.seq (fun p => p.fail 3 e.addr.toNat)) q p.seq)
      | .resume _ => s1)
  | .wait s1 => (false, s1)
  | .ok v s1 =>
    let dies := workDies s1 w v
    let placed := (pickCores s1 dies w.pair n).bind (fun cores => match w with
      | .fresh p => dispatchFresh s1.tick1.tick1 q p cores
      | .resume g => dispatchSaved s1.tick1.tick1 g cores)
    match placed with
    | some s2 => (true, withdrawPreempt s2 (fun g => g.preqFor == some q) false)
    | none =>
      let s2 := match w with
        | .fresh p => updPkt s1 q p.seq (fun p => { p with spillFrom := some (p.spillFrom.getD s.cycle) })
        | .resume _ => s1
      let short := match w with
        | .fresh p => (imagesAt p.halves (s1.ctx c) n.image).isNone
        | .resume _ => false
      (false, if short then s2 else askPreempt s2 q (s.queue q).prio (w.dies ((workOrder s1 w v).take 1)) w.pair n)

/-- The queues of a priority with dispatchable work. -/
def queuesWithWork (s : State) : List Nat :=
  ((s.queues.filter (fun q => (nextWork s q.1 q.2).isSome)).map (fun q => q.1)).foldl (fun l q => insSorted q l) []

/-- R120: every queue without dispatchable work has its deficit at 0. -/
def clearDeficits (s : State) : State :=
  { s with queues := s.queues.map (fun q => (q.1, if (nextWork s q.1 q.2).isNone then { q.2 with deficit := 0 } else q.2)) }

/-- R120: weighted deficit round robin among the queues of one priority: a visit to the queue whose turn it is, or the next in
ascending id; a queue whose work cannot be placed passes its turn and keeps its deficit. -/
def visit : Nat → State → Nat → List Nat → State
  | 0, s, _, _ => s
  | k + 1, s, prio, ids =>
    if ids.isEmpty then s
    else
      let t := s.turns.getD prio (0, false)
      let stay := ids.any (fun q => q + 1 == t.1) && !t.2 && (s.queue (t.1 - 1)).deficit ≥ 1
      let q := if stay then t.1 - 1 else (ids.find? (fun q => t.1 < q + 1)).getD (ids.headD 0)
      let s1 := if stay then s else s.updQueue q (fun x => { x with deficit := x.deficit + x.quant })
      let s2 : State := { s1 with turns := updAt s1.turns prio (fun _ => (q + 1, false)) }
      let pass (s : State) : State := visit k { s with turns := updAt s.turns prio (fun t => (t.1, true)) } prio (ids.filter (fun x => x != q))
      match nextWork s2 q (s2.queue q) with
      | none => s2
      | some w =>
        if (s2.queue q).deficit < 1 then pass s2
        else
          let r := tryWork s2 q w
          if r.1 then r.2.updQueue q (fun x => { x with deficit := x.deficit - (if w.pair then 2 else 1) }) else pass r.2

/-- The distributor dispatches one group or one pair (R120): among the queues of the highest priority that hold dispatchable
work. Packets whose kernel may no longer be used are rejected first (R76). -/
def execGroupDispatch (s : State) : Out :=
  if s.ready.getD 152 0 != 1 then .next s
  else
    let s1 := rejectPkts s (fun _ q p => p.captured && p.typ != 0 && q.st != .paused && (s.ctx q.ctx).st == .opened && !kernUsable s q p) 2
    let s2 := clearDeficits s1
    let ids := queuesWithWork s2
    let top := ids.foldl (fun acc q => max acc (s2.queue q).prio) 0
    let mine := ids.filter (fun q => (s2.queue q).prio == top)
    .next (clearDeficits (visit mine.length s2 top mine))

end Sys2Proof.Machine
end

