-- ==== Sys2Proof/Machine/Promote.lean ====
section
/-! DEFINITION. Promotion requests of the host and of other modules (R298, R299, R301, R302). A request of the module's own
`ld.acqp` is made by the instruction itself (`execLdAcqp`). -/

namespace Sys2Proof.Machine

/-- A write to PROMA (R302). -/
def execProma (v : BitVec 64) (s : State) : Out :=
  if !regOpen s then .next s
  else if fieldOf s.host.proms 63 63 == 1 then .next { s with host := { s.host with proms := s.host.proms ||| 0x3000000000000000 } }
  else if fieldOf v 63 52 != 0 || fieldOf v 2 0 != 0 || !ownMem s v.toNat then .next (answerProms s 3)
  else
    .next ({ s with host := { s.host with proma := v, proms := BitVec.ofNat 64 (2 ^ 63) } }.postE
      (.promoteRequest s.host.promh (BitVec.ofNat 45 (v.toNat / 128)) 0 64 0))

/-- A promotion request of the host (`src` 64) or of module `src` arrives at the distributor and is looked up (R301, Table 15-2):
answered at once, or queued at its target. -/
def execPromoteRequest (h : BitVec 64) (line : BitVec 45) (c : BitVec 8) (src : BitVec 7) (tag : BitVec 16) (s : State) : Out :=
  let from' : PromSrc := if src == 64 then .host else .remote (src.toNat % 64) tag
  let ctx : Option Nat := if src == 64 then none else some c.toNat
  let none' : Prom := { target := h, src := from', line := line.toNat, ctx := ctx, hit := false, run := false, ans := none }
  match s.groupOf h with
  | none => .next (answerProm s none' 2 0)
  | some g => .next (if ctx.any (fun x => x != g.ctxid) then answerProm s none' 2 0 else promEnter s g from' line.toNat ctx)

/-- The promotions of a group go on: an eager one, and those of the requests at it, in order (R298, R299, R301). A group that has retired but
for them is forgotten when they are over (Table 15-2). -/
def execPromotion (h : BitVec 64) (s : State) : Out :=
  let s1 := serve s h
  match s1.groupOf h with
  | some g => .next (if g.retired && g.snap.isNone && (nextProm s1 h).isNone then settle (s1.dropGroup h) else s1)
  | none => .next s1

end Sys2Proof.Machine
end

