-- ==== Sys2Proof/Machine/Page.lean ====
section
/-! DEFINITION. Invalidation requests of the host (R321 to R323), translation walks (R317, R319), and migrations: their submission
by the host (R326) and the steps of the engines (Table 17-3). -/

namespace Sys2Proof.Machine

-- Invalidations ------------------------------------------------------------------------------------------------------

/-- ILCMD when its request ends (R323): BUSY 0, RESULT, the other fields as written. -/
def answerIl (s : State) (res : Nat) : State :=
  { s with host := { s.host with ilcmd := BitVec.ofNat 64 (res * 2 ^ 60) ||| (s.host.ilcmd &&& 0x0FFFFFFFFFFFFF00) } }

/-- A request of ILCMD: the entry appended, and with SYNC applied on every die (R323). -/
def ilRequest (s : State) (kind ctx va : Nat) (sync : BitVec 1) : Out :=
  let s1 := ilAppend s kind ctx va
  .next (answerIl (if sync == 1 then ilApplyAll s1 else s1) 0)

/-- ILCMD KIND 0 (R323): every translation of a context whose page contains the address. -/
def execIlcmdInvalidatePage (c : BitVec 8) (va : BitVec 41) (sync : BitVec 1) (s : State) : Out :=
  ilRequest s 0 c.toNat (va.toNat * 65536) sync
/-- ILCMD KIND 1 (R323): every translation of a context. -/
def execIlcmdInvalidateContext (c : BitVec 8) (sync : BitVec 1) (s : State) : Out := ilRequest s 1 c.toNat 0 sync
/-- ILCMD KIND 2 (R323): every translation of every context. -/
def execIlcmdInvalidateAll (sync : BitVec 1) (s : State) : Out := ilRequest s 2 0 0 sync
/-- ILCMD KIND 3 with SYNC (R323): nothing is appended, every die applies its log. -/
def execIlcmdSync (s : State) : Out := .next (answerIl (ilApplyAll s) 0)

/-- The L-die numbers an invalidation request and writes it to all twelve logs (R321); KIND 3 is not written (R320). -/
def execInvalidationAppend (kind : BitVec 2) (c : BitVec 8) (va : BitVec 41) (s : State) : Out :=
  if kind == 3 then .next s else .next (ilAppend s kind.toNat c.toNat (va.toNat * 65536))

/-- A translation walk for a core that fills the TLBs (R317, R319); a walk that fails fills nothing. No walk that nothing waits for asks
another module for a table (log entry 20). -/
def execPageWalk (core : BitVec 7) (c : BitVec 8) (va : BitVec 64) (s : State) : Out :=
  if core.toNat ≥ 96 || highVa va.toNat || walkWaits s core.toNat c.toNat va.toNat then .next s
  else .next (findLeaf s core.toNat c.toNat va.toNat).2

-- Migration ----------------------------------------------------------------------------------------------------------

/-- A write to MIGH (R326, R368): the block at a physical address is submitted for a context; a block that cannot be read is refused
as 1, and a context that is FREE has no leaf. -/
def execMigh (v : BitVec 64) (s : State) : Out :=
  if !regOpen s then .next s
  else
    let fin (s : State) (res : Nat) : Out :=
      .next { s with host := { s.host with migh := BitVec.ofNat 64 (fieldOf v 63 56 * 2 ^ 56 + res * 2 ^ 52 + fieldOf v 51 5 * 32) } }
    let pa := fieldOf v 51 5 * 32
    let later (s : State) : Out := .next { s with mighWait := some v }
    match physAsk { s with mighWait := none } pa 32 with
    | .wait s1 => later s1
    | .fault _ s1 => fin s1 1
    | .ok r s1 =>
      if r.2.isSome || !(ownMem s pa || inRemote pa) then fin s1 1
      else if (s.ctx (fieldOf v 63 56)).st == .free then fin s1 2
      else
        let x := migSubmit s1 0 (fieldOf v 63 56) r.1
        if x.1 == 5 then later x.2 else fin x.2 x.1

/-- Whether a line lies in the `n` bytes from a line-aligned address. -/
def inBytes (pa n line : Nat) : Bool := pa / 128 ≤ line && line < (pa + n) / 128

/-- Every L1 copy of the lines of a range written back to L2 and discarded, on every core; none where a journal has to wait. -/
def rangeL1 (s : State) (pa n : Nat) : Option State :=
  allOf (List.range 96) s (fun s c => allOf (((s.core c).l1.map (fun x => x.line)).filter (inBytes pa n)) s (fun s l => l1Flush s c l))

/-- The journals without the lines of a range (R275). -/
def rangeJournals (s : State) (pa n : Nat) : State :=
  { s with cores := s.cores.map (fun c => { c with journal := c.journal.filter (fun l => !inBytes pa n l) }) }

/-- The L2 lines of a die in a range. -/
def l2Range (s : State) (d pa n : Nat) : List Nat := ((s.die d).l2.map (fun x => x.line)).filter (inBytes pa n)

/-- Every dirty L2 line of a range written home on every die, its journal entries drained; none where a promotion waits (R275, R297). -/
def rangeL2 (s : State) (pa n : Nat) : Option State :=
  (allOf (List.range 12) s (fun s d => homeClean s d (l2Range s d pa n))).map (fun s => rangeJournals s pa n)

/-- A range written back from every L1 and drained from every journal (R275, R304). -/
def rangeDrain (s : State) (pa n : Nat) : Option State := (rangeL1 s pa n).bind (fun s => rangeL2 s pa n)

/-- Every L1 and L2 line of a range discarded. -/
def rangeDrop (s : State) (pa n : Nat) : State :=
  { rangeJournals s pa n with
    cores := (rangeJournals s pa n).cores.map (fun c => { c with l1 := c.l1.filter (fun x => !inBytes pa n x.line) }),
    dies := s.dies.map (fun d => { d with l2 := d.l2.filter (fun x => !inBytes pa n x.line) }) }

/-- Every copy of a range written back and discarded (R304, Table 17-3 step 2). -/
def rangeFlush (s : State) (pa n : Nat) : Option State := (rangeDrain s pa n).map (fun s => rangeDrop s pa n)

/-- The slot lines of a far-tier cache that may hold lines of a far range: those with metadata or errors. -/
def ftcListed (s : State) (hn pa n : Nat) : List (Nat × Nat) :=
  let x := s.ndie hn
  let lines := (s.spareEcc.map (fun (e : Nat × BitVec 16) => e.1 / 2) ++ s.badBlocks.map (fun b => b / 2)).eraseDups
  (lines.filter (fun l => x.ftcBase / 128 ≤ l && l < (x.ftcBase + ftcBytes x.ftcSize) / 128)).filterMap (fun l =>
    let sl := (l - x.ftcBase / 128) / 16
    let i := (l - x.ftcBase / 128) % 16
    match ftcTag s x sl with
    | some t => if inBytes pa n (ftcFar x sl t i) then some (sl, i) else none
    | none => none)

/-- The far-tier cache lines of a far range written back and invalidated (Table 17-3 step 2, R381); an unreadable one is left as it is. -/
def ftcRange (s : State) (hn pa n : Nat) : State :=
  if !farRange pa || !ftcOn (s.ndie hn) then s
  else (ftcListed s hn pa n).foldl (fun s (e : Nat × Nat) =>
    if ftcUnreadable s (ftcLine (s.ndie hn) e.1 e.2) then s
    else ftcInvalidate (ftcWriteGood (makeRoom s hn 1) hn e.1 e.2) hn e.1 e.2) s

/-- The reductions that wait in the write queues for lines of a range are performed (R276). -/
def serveRange (s : State) (pa n : Nat) : State :=
  (List.range 4).foldl (fun s hn =>
    (((s.ndie hn).queue.map (fun r => r.pa / 128)).eraseDups.filter (inBytes pa n)).foldl (fun s l => serveEntry s hn l) s) s

/-- The lines of a range as the requests that came before leave them, none of them in a far-tier cache (R276, R285). -/
def settleRange (s : State) (hn pa n : Nat) : State := ftcRange (serveRange s pa n) hn pa n

/-- The key of a migration's increment. -/
def Migr.key (m : Migr) : Nat := 4 * m.dst + 1

/-- An 8-byte compare-and-swap on a leaf at its home, in this module or another (R346), against the value the engine last wrote or read
(R327): whether it took place. -/
def leafCas (s : State) (m : Migr) (new : Nat) : Acc Bool :=
  if inRemote m.leafPa then
    let key := 2 ^ 64 * (m.key + 5)
    let p := { packet0 (remoteMod m.leafPa) 2 3 with
      arg := 59, addr := BitVec.ofNat 45 m.leafPa, data := bytesOf 16 (new + m.leaf.toNat * 2 ^ 64) }
    match devEnd key (devAsk s key p m.leafPa m.va.toNat 8) with
    | .ok b s1 => .ok (leNat b == m.leaf.toNat) s1
    | .fault _ s1 => .ok false s1
    | .wait s1 => .wait s1
  else
    let home := homeOf m.leafPa none
    match homeAtomic s home m.leafPa 8 (fun old => if old == m.leaf.toNat then new else old) with
    | some (old, s1) => .ok (old == m.leaf.toNat) s1
    | none => .ok false (atomicMissed s home m.leafPa)

/-- Migration `n` of an engine changed. -/
def updMigr (s : State) (e n : Nat) (f : Migr → Migr) : State :=
  { s with migActive := updAt s.migActive e (fun l => updAt l n f) }

/-- The page's translations invalidated on every die (Table 17-3). -/
def migInvalidate (s : State) (m : Migr) : State := ilApplyAll (ilAppend s 0 m.ctx m.va.toNat)

/-- The addresses of a far page whose lines an unreadable slot line of the far-tier cache of N-die `hn` stands for (R380). -/
def slotHoles (s : State) (hn pa n : Nat) : List Nat :=
  let x := s.ndie hn
  if !farRange pa || !ftcOn x then []
  else
    let k := ftcSlots x.ftcSize
    let first := (pa - farBase) / 2048 / k
    (s.badBlocks.filter (fun b => x.ftcBase / 64 ≤ b && b < (x.ftcBase + ftcBytes x.ftcSize) / 64)).flatMap (fun b =>
      let l := b / 2 - x.ftcBase / 128
      ((List.range (n / 2048 / k + 2)).map (fun t => 128 * ftcFar x (l / 16) (first + t) (l % 16))).filter (fun a => pa ≤ a && a < pa + n))

/-- The first byte of the first 2 KiB unit of the source that holds an uncorrectable error, as an offset; the page's size where there
is none (Table 17-3 step 3). -/
def migGood (s : State) (m : Migr) : Nat :=
  let n := pageSize m.level
  if lostAt s m.src then 0
  else
    ((s.badBlocks.map (fun b => 64 * b)).filter (fun a => m.src ≤ a && a < m.src + n) ++
      slotHoles s (homeOf m.src (some (fieldOf m.leaf 9 8))) m.src n).foldl (fun acc a => min acc ((a - m.src) / 2048 * 2048)) n

/-- A line whose contents are undefined holds its free values from now on (R282). -/
def settleLine (s : State) (line : Nat) : State :=
  match freedAt s line with
  | some k => { defLine s line with mem := Memory.write s.mem (128 * line) 128 (freeLine k line).toNat }
  | none => s

/-- The lines of a range whose contents are undefined hold their free values from now on (R282). -/
def settleFreed (s : State) (pa n : Nat) : State :=
  if s.freed.any (fun r => 128 * r.1 < pa + n && pa < 128 * r.2.1) then (List.range (n / 128)).foldl (fun s i => settleLine s (pa / 128 + i)) s
  else s

/-- The row groups of a range activated (R278). -/
def touchRange (s : State) (pa n : Nat) : State :=
  if farRange pa then s else (List.range (n / 128)).foldl (fun s i => touchRow s (pa / 128 + i)) s

/-- The first `n` bytes of a page copied to another (Table 17-3 step 3); a lost destination takes nothing (R334). -/
def copyPage (s0 : State) (src dst n : Nat) : State :=
  if lostAt s0 dst || n == 0 then s0
  else
    let s := touchRange (touchRange (settleFreed (settleFreed s0 src n) dst n) src n) dst n
    let cells := (s.mem.filter (fun c => src ≤ c.1 && c.1 < src + n)).map (fun c => (c.1 - src + dst, c.2))
    { s with
      mem := s.mem.filter (fun c => c.1 < dst) ++ cells ++ s.mem.filter (fun c => dst + n ≤ c.1),
      badBlocks := s.badBlocks.filter (fun b => !(dst ≤ 64 * b && 64 * b + 64 ≤ dst + n)) }

/-- R119, R125: counters in a range that has been written are looked at again. -/
def noticeRange (s : State) (pa n : Nat) : State :=
  let lines := (s.queues.flatMap (fun q => q.2.pkts.flatMap (fun p => p.trigs.map (fun t => t.2.1 / 128)))) ++
    s.groups.filterMap (fun g => g.swait.map (fun w => w.loc / 128))
  (lines.eraseDups.filter (inBytes pa n)).foldl noticeWrite s

/-- What names the source of a page by the virtual address that moved follows it: a `sig.wait` translates again (R125, R328), an armed
trigger and a posted reduction are at the destination (R119, R328). -/
def followPage (s : State) (m : Migr) (leaf : W64) : State :=
  let n := pageSize m.level
  let mine (ctx va : Nat) : Bool := ctx == m.ctx && va / n == m.va.toNat / n
  let moved (pa : Nat) : Nat := m.dst + pa % n
  let s1 := s.updGroups (fun g => g.swait.any (fun w => w.got.isNone && inBytes m.src n (w.loc / 128))) (fun g => { g with swait := none })
  { s1 with
    queues := s1.queues.map (fun q => (q.1, { q.2 with pkts := q.2.pkts.map (fun p => { p with
      trigs := p.trigs.map (fun t => if mine q.2.ctx t.1.toNat then (t.1, moved t.2.1, t.2.2) else t) }) })),
    dies := s1.dies.map (fun d => { d with reds := d.reds.map (fun r =>
      if mine (r.handle.toNat / 2 ^ 56) r.va.toNat then { r with pa := moved r.pa, leaf := leaf } else r) }) }

/-- The leaf that step 4 writes (Table 17-3): PA, FAR, HQ for a near destination, MIG 0. -/
def migLeaf (m : Migr) : Nat :=
  let e := m.leaf.toNat
  let far := farRange m.dst
  let hq := if far then e / 2 ^ 8 % 4 else homeOf m.dst none
  e / 2 ^ 52 * 2 ^ 52 + m.dst / 65536 * 65536 + e / 2 ^ 13 % 8 * 2 ^ 13 + (if far then 2 ^ 10 else 0) + hq * 2 ^ 8 + e % 2 ^ 8

/-- The completion of a migration (Table 17-3 step 6): its status word, its counter, and the next request of the engine. A store that
fails is skipped with an event record; one to a page that is COPYING waits. The status word is written once, and the increment follows
it once every write of the device has been performed. -/
def migFinish (s : State) (e n : Nat) (m : Migr) : Out :=
  let skip (s : State) : State := eventRecord s 8 e 7 1 0 0
  let retire (s : State) : Out :=
    .next { s with
            migActive := updAt s.migActive e (fun l => l.eraseIdx n ++ (s.migQueued.getD e []).take 1),
            migQueued := updAt s.migQueued e (fun l => l.drop 1) }
  if m.stat != 0 then
    let done (s : State) : Out := .next (updMigr s e n (fun m => { m with stat := 0 }))
    match devWrite s m.ctx m.stat.toNat 8 m.status 0 with
    | .ok _ s1 => done s1
    | .fault _ s1 => done (skip s1)
    | .wait s1 => .next s1
  else if m.ctr == 0 then retire s
  else if !devCounting s m.key && devUnacked s then .next s
  else
    match devCount s m.ctx m.ctr.toNat m.key 0 with
    | .ok _ s1 => retire s1
    | .fault _ s1 => retire (skip s1)
    | .wait s1 => .next s1

/-- Step 3 from a source of this module: the page copied as far as it can be read; whether it was copied whole. -/
def migCopy (s : State) (m : Migr) : Bool × State :=
  let size := pageSize m.level
  let home (pa : Nat) : Nat := homeOf pa (some (fieldOf m.leaf 9 8))
  let s1 := settleRange (settleRange s (home m.src) m.src size) (home m.dst) m.dst size
  let good := migGood s1 m
  (good == size, noticeRange (copyPage s1 m.src m.dst good) m.dst size)

/-- Step 3 from a source in another module (R268): the next line of it read at its home and written; the number of bytes copied then, none
where it cannot be read. -/
def migFetch (s : State) (m : Migr) : Acc (Option Nat) :=
  let pa := m.src + m.done
  let va := (m.va.toNat + m.done) % 2 ^ 64
  let p := { packet0 (remoteMod pa) 0 4 with arg := 16, addr := BitVec.ofNat 45 pa }
  let dest := m.dst + m.done
  match devEnd (2 ^ 64 * (m.key + 1)) (devAsk s (2 ^ 64 * (m.key + 1)) p pa va 128) with
  | .ok b s1 =>
    .ok (some (m.done + 128)) (homeWrite s1 (homeOf dest (some (fieldOf m.leaf 9 8))) (dest / 128) (BitVec.allOnes 128) (BitVec.ofNat 1024 (leNat b)))
  | .fault _ s1 => .ok none s1
  | .wait s1 => .wait s1

/-- One step of migration `n` of engine `e` (R327, Table 17-3). -/
def execMigrationStep (e : BitVec 1) (n : BitVec 4) (s : State) : Out :=
  let e := e.toNat
  let n := n.toNat
  match (s.migActive.getD e [])[n]? with
  | none => .next s
  | some m =>
    let size := pageSize m.level
    let swap (new : Nat) (follow : State → State) (f : Migr → Migr) : Out :=
      match leafCas s m new with
      | .ok true s1 => .next (updMigr (follow (migInvalidate s1 m)) e n (fun m => f { m with leaf := BitVec.ofNat 64 new }))
      | .ok false s1 => .next (updMigr s1 e n (fun m => { m with step := 5, status := 2 }))
      | .fault _ s1 => .next s1
      | .wait s1 => .next s1
    let stable := m.leaf.toNat - fieldOf m.leaf 12 11 * 2 ^ 11
    let abort (s : State) : Out := .next (updMigr s e n (fun m => { m with status := 1 }))
    match m.step with
    | 1 => swap (stable + 2 ^ 11) id (fun m => { m with step := 2 })
    | 2 =>
      match rangeFlush s m.src size with
      | some s1 => .next (updMigr (settleRange s1 (homeOf m.src (some (fieldOf m.leaf 9 8))) m.src size) e n (fun m => { m with step := 3 }))
      | none => .next s
    | 3 =>
      if m.status == 1 then swap stable id (fun m => { m with step := 5 })
      else if inRemote m.src then
        match migFetch s m with
        | .ok (some k) s1 => .next (updMigr s1 e n (fun m => { m with done := k, step := if k == size then 4 else 3 }))
        | .ok none s1 => abort s1
        | .fault _ s1 => abort s1
        | .wait s1 => .next s1
      else
        let r := migCopy s m
        if r.1 then .next (updMigr r.2 e n (fun m => { m with step := 4 })) else abort r.2
    | 4 =>
      swap (migLeaf m) (fun s => followPage s m (BitVec.ofNat 64 (migLeaf m))) (fun m => { m with step := 5 })
    | 5 =>
      if m.status == 0 then .next (updMigr (rangeDrop s m.src size) e n (fun m => { m with step := 6 }))
      else
        match rangeFlush s m.src size with
        | some s1 => .next (updMigr s1 e n (fun m => { m with step := 6 }))
        | none => .next s
    | _ => migFinish s e n m

end Sys2Proof.Machine
end

