-- ==== Sys2Proof/Machine/Host.lean ====
section
/-! DEFINITION. The host's side of the module: its registers (R367, R368, Table 20-1), its reads and writes of memory (R306, R332),
the configuration of the far-tier caches (R282), attestation (R366), and the modes of the fibre ports (R368). -/

namespace Sys2Proof.Machine

-- Reading the registers ----------------------------------------------------------------------------------------------

/-- Whether a function is starting: NOT_READY, and of a link, in training; one that is DOWN waits for light (Table 19-1; log entry 91). -/
def starting (s : State) (k : Nat) : Bool :=
  s.ready.getD k 1 == 0 && (k < 128 || 144 ≤ k || (s.link (k - 128)).st == .training)

/-- PHASE (R364): 3 once every function has finished starting (log entry 91). -/
def phaseOf (s : State) : Nat := if s.phase == 2 && !(List.range 161).any (starting s) then 3 else s.phase

/-- BOOTSTAT (R364). -/
def bootstat (s : State) : W64 := BitVec.ofNat 64 (s.reason * 256 + (if s.safe then 8 else 0) + phaseOf s)

/-- FTCCFGn (R282). -/
def ftcReg (n : NDie) : W64 :=
  BitVec.ofNat 64 ((if n.ftcBusy then 2 ^ 63 else 0) + (if n.ftcResult then 2 ^ 62 else 0) + n.ftcSize * 2 ^ 56 +
    n.ftcBase / 2 ^ 28 * 2 ^ 28 + n.epoch)

/-- STATE of an Avdon link (Table 19-1). -/
def LinkState.code : LinkState → Nat
  | .down => 0
  | .training => 1
  | .up => 2
  | .degraded => 3
  | .fenced => 4

/-- LNKSTATn (R340). -/
def linkReg (l : Link) : W64 := BitVec.ofNat 64 (min 65535 l.replays * 65536 + l.waves * 8 + l.st.code)

/-- What a host read of the register at an offset finds (Table 20-1); none where no register lies there. -/
def hostRegValue (s : State) (off : Nat) : Option W64 :=
  let h := s.host
  if off % 8 != 0 then none
  else if 0x100 ≤ off && off < 0x120 then some (ftcReg (s.ndie ((off - 0x100) / 8)))
  else if 0x200 ≤ off && off < 0x400 then some (h.routes.getD ((off - 0x200) / 8) 0)
  else if 0x400 ≤ off && off < 0x480 then some (linkReg (s.link ((off - 0x400) / 8)))
  else if 0x800 ≤ off && off < 0x800 + 8 * 161 then some (BitVec.ofNat 64 (s.ready.getD ((off - 0x800) / 8) 0))
  else
    [(0x00, BitVec.ofNat 64 s.modid), (0x08, bootstat s), (0x10, h.ctxbase), (0x18, h.ctxcmd), (0x20, h.kaddr), (0x28, h.kcmd),
     (0x30, h.qtbase), (0x38, h.qcmd), (0x40, h.qdb), (0x48, h.ginth), (0x50, h.gintv), (0x58, h.promh), (0x60, h.proma),
     (0x68, h.proms), (0x70, h.ilbase), (0x78, h.ilcmd), (0x80, h.migh), (0x88, h.evbase), (0x90, h.evctl), (0x98, h.evtail),
     (0xA0, h.evhead), (0xA8, h.cgbase), (0xB0, h.lwgt), (0xB8, h.fibmode), (0xC0, h.attaddr)].lookup off

/-- A host read of a register: in safe mode only MODID and BOOTSTAT, and until the distributor has started only those, READY and
ATTADDR, read as they are; the others read 0 (R363, R367). -/
def hostRegRead (s : State) (off : Nat) : Option W64 :=
  (hostRegValue s off).map (fun v =>
    if off == 0 || off == 8 then v
    else if s.safe then 0
    else if regOpen s || off == 0xC0 || 0x800 ≤ off then v
    else 0)

-- Writing the registers ----------------------------------------------------------------------------------------------

/-- The host's registers changed. -/
def State.updHost (s : State) (f : HostRegs → HostRegs) : State := { s with host := f s.host }

/-- An event that runs next. -/
def State.postFront (s : State) (e : Event) : State := { s with agenda := .event e :: s.agenda }

/-- The lowest host port that is READY, 0 where none is (log entry 72). -/
def hostPort (s : State) : Nat := (List.range 4).find? (fun p => s.ready.getD (156 + p) 0 == 1) |>.getD 0

/-- R332, R368: an error completion for a host access, with its event record. -/
def hostError (s : State) (pa : Nat) : State :=
  eventRecord { s with replies := s.replies ++ [.error pa] } 9 (hostPort s) 6 1 pa 0

/-- A command written to CTXCMD (R57). -/
def writeCtxcmd (s : State) (v : W64) : State :=
  if fieldOf s.host.ctxcmd 63 63 == 1 then s
  else
    let c : BitVec 8 := BitVec.ofNat 8 (fieldOf v 15 8)
    let s1 := s.updHost (fun h => { h with ctxcmd := v &&& 0xFF0F })
    let busy := s.updHost (fun h => { h with ctxcmd := (v &&& 0xFF0F) ||| 0x8000000000000000 })
    match fieldOf v 3 0 with
    | 0 => answerCtx s1 0
    | 1 => busy.postFront (.ctxOpen c)
    | 2 => busy.postFront (.ctxSuspend c)
    | 3 => busy.postFront (.ctxResume c)
    | 4 => busy.postFront (.ctxClose c)
    | _ => answerCtx s1 1

/-- A command written to KCMD (R75). -/
def writeKcmd (s : State) (v : W64) : State :=
  if fieldOf s.host.kcmd 63 63 == 1 then s
  else
    let c : BitVec 8 := BitVec.ofNat 8 (fieldOf v 31 24)
    let k : BitVec 12 := BitVec.ofNat 12 (fieldOf v 23 12)
    let s1 := s.updHost (fun h => { h with kcmd := v &&& 0xFFFFF00F })
    let busy := s.updHost (fun h => { h with kcmd := (v &&& 0xFFFFF00F) ||| 0x8000000000000000 })
    match fieldOf v 3 0 with
    | 0 => answerKern s1 0 0
    | 1 => busy.postFront (.kernelLoad c k)
    | 2 => busy.postFront (.kernelUnload c k)
    | _ => answerKern s1 1 0

/-- A command written to QCMD (R114). -/
def writeQcmd (s : State) (v : W64) : State :=
  if fieldOf s.host.qcmd 63 63 == 1 then s
  else
    let q : BitVec 15 := BitVec.ofNat 15 (fieldOf v 30 16)
    let s1 := s.updHost (fun h => { h with qcmd := v &&& 0x7FFF000F })
    let busy := s.updHost (fun h => { h with qcmd := (v &&& 0x7FFF000F) ||| 0x8000000000000000 })
    match fieldOf v 3 0 with
    | 0 => answerQueue s1 0
    | 1 => busy.postFront (.queueEnable q)
    | 2 => busy.postFront (.queueDisable q)
    | 3 => busy.postFront (.queuePause q)
    | 4 => busy.postFront (.queueResume q)
    | 5 => busy.postFront (.queueReset q)
    | _ => answerQueue s1 1

/-- A request written to ILCMD (R323). -/
def writeIlcmd (s : State) (v : W64) : State :=
  if fieldOf s.host.ilcmd 63 63 == 1 then s
  else
    let c : BitVec 8 := BitVec.ofNat 8 (fieldOf v 15 8)
    let va : BitVec 41 := BitVec.ofNat 41 (fieldOf v 56 16)
    let sync : BitVec 1 := BitVec.ofNat 1 (fieldOf v 57 57)
    let s1 := s.updHost (fun h => { h with ilcmd := v &&& 0x0FFFFFFFFFFFFF00 })
    let busy := s.updHost (fun h => { h with ilcmd := (v &&& 0x0FFFFFFFFFFFFF00) ||| 0x8000000000000000 })
    if fieldOf v 62 62 != 0 || fieldOf v 7 0 != 0 then answerIl s1 1
    else
      match fieldOf v 59 58 with
      | 0 => busy.postFront (.ilcmdInvalidatePage c va sync)
      | 1 => busy.postFront (.ilcmdInvalidateContext c sync)
      | 2 => busy.postFront (.ilcmdInvalidateAll sync)
      | _ => if sync == 1 then busy.postFront .ilcmdSync else answerIl s1 0

/-- EVCTL written (R337): LOG2N and INTEN are stored; LOST is cleared by writing it 0. -/
def writeEvctl (old v : W64) : W64 := (v &&& 0x10F) ||| (if fieldOf v 31 16 == 0 then 0 else old &&& 0xFFFF0000)

/-- FIBMODE written (R368): the mode 3 and the bits above are ignored (R2). -/
def writeFibmode (old v : W64) : W64 :=
  let m (p : Nat) : Nat := let x := fieldOf v (2 * p + 1) (2 * p); if x == 3 then fieldOf old (2 * p + 1) (2 * p) else x
  BitVec.ofNat 64 (m 0 + 4 * m 1)

/-- The mask of bits 51:12, which a base register holds (R368). -/
abbrev baseMask : W64 := 0x000FFFFFFFFFF000
/-- The mask of a handle's fields: bits 41:38 are RSV (R2, R94). -/
abbrev handleMask : W64 := 0xFFFFFC3FFFFFFFFF

/-- A host write to a register (R367, R368, Table 20-1). A register without behaviour of its own stores the value, RSV bits left out
(R2); a read-only one ignores it; a register that starts something has it run next. An offset without a register gets an error
completion, in safe mode too. DESIGN CHOICE: ILBASE holds all 64 bits that are written, since R320 gives it no layout (log entry 151). -/
def execHostRegisterWrite (off : BitVec 12) (v : BitVec 64) (s : State) : Out :=
  let o := off.toNat
  if (hostRegValue s o).isNone then .next (hostError s o)
  else if s.safe then .next s
  else if o == 0xC0 then .next (s.postFront (.attaddr v))
  else if !regOpen s then .next s
  else if 0x100 ≤ o && o < 0x120 then .next (s.postFront (.ftccfg (BitVec.ofNat 2 ((o - 0x100) / 8)) v))
  else if 0x200 ≤ o && o < 0x400 then .next (s.postFront (.routeWrite (BitVec.ofNat 6 ((o - 0x200) / 8)) v))
  else if 0x400 ≤ o then .next s
  else .next (match o with
    | 0x10 => s.updHost (fun h => { h with ctxbase := v &&& baseMask })
    | 0x18 => writeCtxcmd s v
    | 0x20 => if fieldOf s.host.kcmd 63 63 == 1 then s else s.updHost (fun h => { h with kaddr := v })
    | 0x28 => writeKcmd s v
    | 0x30 => s.updHost (fun h => { h with qtbase := v &&& baseMask })
    | 0x38 => writeQcmd s v
    | 0x40 => (s.updHost (fun h => { h with qdb := v &&& 0x7FFFFFFF })).postFront
        (.qdb (BitVec.ofNat 15 (fieldOf v 30 16)) (BitVec.ofNat 16 (fieldOf v 15 0)))
    | 0x48 => s.updHost (fun h => { h with ginth := v &&& handleMask })
    | 0x50 => s.postFront (.gintv v)
    | 0x58 => s.updHost (fun h => { h with promh := v &&& handleMask })
    | 0x60 => s.postFront (.proma v)
    | 0x70 => s.updHost (fun h => { h with ilbase := v })
    | 0x78 => writeIlcmd s v
    | 0x80 => (s.updHost (fun h => { h with
        migh := (h.migh &&& 0x0070000000000000) ||| (v &&& 0xFF0FFFFFFFFFFFE0) ||| 0x0080000000000000 })).postFront (.migh v)
    | 0x88 => s.updHost (fun h => { h with evbase := v &&& baseMask })
    | 0x90 => s.updHost (fun h => { h with evctl := writeEvctl h.evctl v })
    | 0xA0 => s.updHost (fun h => { h with evhead := v &&& 0xFFFFFFFF })
    | 0xA8 => s.updHost (fun h => { h with cgbase := v &&& baseMask })
    | 0xB0 => s.updHost (fun h => { h with lwgt := v &&& 0xFFFF })
    | 0xB8 => s.updHost (fun h => { h with fibmode := writeFibmode h.fibmode v })
    | _ => s)

/-- A host access of `n` bytes at an offset of BAR0 (R368), a read or a write of a value, performed in its turn: accesses are put on the agenda
in the order in which they arrive (log entry 72). Only an aligned 8-byte access of a register is performed; any other gets an error
completion. -/
def hostAccess (off n : Nat) (w : Option W64) (s : State) : Out :=
  if n != 8 || off % 8 != 0 || off ≥ 4096 then .next (hostError s off)
  else
    match w, hostRegRead s off with
    | _, none => .next (hostError s off)
    | some v, _ => execHostRegisterWrite (BitVec.ofNat 12 off) v s
    | none, some v => .next { s with replies := s.replies ++ [.data off (bytesOf 8 v.toNat)] }

/-- An entry of a port's MSI-X table masked or unmasked (R369); an interrupt that waited for it is sent. -/
def msiEntry (port : BitVec 2) (v : BitVec 11) (masked : Bool) (s : State) : Out :=
  let k := v.toNat
  .next (flushMsi { s with msiMask := updAt s.msiMask port.toNat (fun l => if masked then insSorted k l else l.filter (fun x => x != k)) })

-- Memory -------------------------------------------------------------------------------------------------------------

/-- Whether a host access to `n` bytes of memory gets an error completion: it reaches outside the module's memory (R332, R356), or its storage
is not READY; in safe mode every one does (R363; log entry 150). -/
def hostRefused (s : State) (a n : Nat) : Bool :=
  s.safe || !ownMem s a || (n != 0 && !ownMem s (a + n - 1)) || notReady s (unitOf a) || (n != 0 && notReady s (unitOf (a + n - 1)))

/-- Whether a host port is READY: memory is reached through one that is (R367; log entry 150). -/
def anyPort (s : State) : Bool := (List.range 4).any (fun p => s.ready.getD (156 + p) 0 == 1)

/-- A host read of `n` bytes (R306, R332): performed at the home, or an error completion. -/
def execHostMemoryRead (pa : BitVec 52) (n : BitVec 8) (s : State) : Out :=
  let a := pa.toNat
  let k := n.toNat
  if hostRefused s a k then .next (hostError s a)
  else if !anyPort s then .next s
  else
    let r := physRead s a k
    if r.2.1 then .next (hostError r.2.2 a)
    else .next { r.2.2 with replies := r.2.2.replies ++ [.data a (bytesOf k r.1)] }

/-- Bytes written by the host, each run of one line at its home. -/
def hostBytes : Nat → State → Nat → List Byte → State
  | 0, s, _, _ => s
  | k + 1, s, a, bs =>
    if bs.isEmpty then s
    else
      let m := min bs.length (128 - a % 128)
      hostBytes k (physWrite s a m (leNat (bs.take m))) (a + m) (bs.drop m)

/-- A host write (R306): a device-scope access performed at the home, or an error completion where it reaches outside the module's memory
(R356). -/
def execHostMemoryWrite (pa : BitVec 52) (bytes : List (BitVec 8)) (s : State) : Out :=
  let a := pa.toNat
  if bytes.isEmpty then .next s
  else if hostRefused s a bytes.length then .next (hostError s a)
  else if !anyPort s then .next s
  else .next (hostBytes (bytes.length / 128 + 2) s a bytes)

-- Far-tier cache configuration ---------------------------------------------------------------------------------------

/-- R282: whether a region is refused. -/
def ftcRefused (n size base : Nat) : Bool :=
  let z := ftcBytes size
  size != 0 && (base % z != 0 || !nearPop base || !nearPop (base + z - 1) || base / 0x1000000000 != (base + z - 1) / 0x1000000000 ||
    base / 0x1000000000 / 3 != n)

/-- The slot lines of a far-tier cache that may be dirty: those with metadata or errors, and where their stack is lost every one (R334,
R380). -/
def ftcLines (s : State) (n : NDie) : List (Nat × Nat) :=
  let lines :=
    if lostAt s n.ftcBase then (List.range (ftcBytes n.ftcSize / 128)).map (fun i => n.ftcBase / 128 + i)
    else (s.spareEcc.map (fun (e : Nat × BitVec 16) => e.1 / 2) ++ s.badBlocks.map (fun b => b / 2)).eraseDups
  (lines.filter (fun l => n.ftcBase / 128 ≤ l && l < (n.ftcBase + ftcBytes n.ftcSize) / 128)).map (fun l =>
    ((l - n.ftcBase / 128) / 16, (l - n.ftcBase / 128) % 16))

/-- A write to FTCCFGn (R282): refused, ignored while BUSY, or the change begins. The lines are written out as it begins, since
requests are served as misses from then on. -/
def execFtccfg (n : BitVec 2) (v : BitVec 64) (s : State) : Out :=
  let k := n.toNat
  let x := s.ndie k
  let size := fieldOf v 59 56
  let base := fieldOf v 51 28 * 2 ^ 28
  if !regOpen s || x.ftcBusy then .next s
  else if fieldOf v 61 60 != 0 || fieldOf v 55 52 != 0 || fieldOf v 27 13 != 0 || size ≥ 8 || ftcRefused k size base then
    .next (s.updNDie k (fun x => { x with ftcResult := true }))
  else
    let s1 := if x.ftcSize == 0 then s else (ftcLines s x).foldl (fun s (e : Nat × Nat) => ftcWriteOut (makeRoom s k 1) k e.1 e.2) s
    .next ((s1.updNDie k (fun x => { x with ftcBusy := true, ftcResult := false, newSize := size, newBase := base })).postE (.ftcChangeDone n))

/-- R282: the contents of a region that returns to ordinary use, from `lo` up to `hi` but for what the new region keeps, are undefined. -/
def ftcLeave (s : State) (lo hi lo' hi' : Nat) : State :=
  let out := [(lo, min hi (max lo lo')), (max lo (min hi hi'), hi)].filter (fun r => r.1 < r.2)
  let out := if hi' ≤ lo || hi ≤ lo' then [(lo, hi)] else out
  { s.tick1 with
    mem := s.mem.filter (fun c => !out.any (fun r => r.1 ≤ c.1 && c.1 < r.2)),
    freed := out.map (fun r => (r.1 / 128, r.2 / 128, s.fresh)) ++ s.freed }

/-- The change of a far-tier cache ends (R282 steps 2 and 3). -/
def execFtcChangeDone (n : BitVec 2) (s : State) : Out :=
  let k := n.toNat
  let x := s.ndie k
  if !x.ftcBusy then .next s
  else
    let e := (x.epoch + 1) % 2 ^ 13
    let s1 := if x.ftcSize == 0 then s
      else ftcLeave s x.ftcBase (x.ftcBase + ftcBytes x.ftcSize) x.newBase (x.newBase + ftcBytes x.newSize)
    let s2 := s1.updNDie k (fun x => { x with ftcSize := x.newSize, ftcBase := x.newBase, epoch := e, ftcBusy := false })
    .next (if e != 0 then s2
      else { touchRange s2 x.newBase (ftcBytes x.newSize) with spareEcc := s2.spareEcc.filter (fun (b : Nat × BitVec 16) =>
              !(x.newBase / 64 ≤ b.1 && b.1 < (x.newBase + ftcBytes x.newSize) / 64)) })

-- Attestation --------------------------------------------------------------------------------------------------------

/-- A write to ATTADDR (R366): a report begins. -/
def execAttaddr (v : BitVec 64) (s : State) : Out :=
  if s.safe || fieldOf s.host.attaddr 1 1 == 1 || fieldOf v 63 52 != 0 || fieldOf v 7 2 != 0 then .next s
  else .next (s.updHost (fun h => { h with attaddr := BitVec.ofNat 64 (fieldOf v 51 8 * 256 + 2) }))

/-- The report's bytes after the nonce (R366): the SHA-384 digests of the running firmware images and of the identity record, BOOTSTAT, and
the signatures. `rep` holds what the part computes: the digests, then the signatures. -/
def reportBody (s : State) (rep : List Byte) : List Byte :=
  let n := 48 * (Config.fwImages + 1)
  rep.take n ++ bytesOf 8 (bootstat s).toNat ++ rep.drop n

/-- The report is written (R366) within the 4 KiB buffer from offset 256 on: the nonce and what follows it; then BUSY 0 and DONE 1, in another
module's buffer once every write of the device has been performed (R346). -/
def execAttestationReportDone (rep : List (BitVec 8)) (s : State) : Out :=
  let a := fieldOf s.host.attaddr 51 8 * 256
  let fin (s : State) : Out :=
    .next (if inRemote a && devUnacked s then { s with attSent := true }
      else ({ s with attSent := false } : State).updHost (fun h => { h with attaddr := BitVec.ofNat 64 (a + 1) }))
  if fieldOf s.host.attaddr 1 1 != 1 then .next s
  else if s.attSent then fin s
  else
    match physAsk s a 32 with
    | .wait s1 => .next s1
    | .fault _ s1 => .next s1
    | .ok r s1 =>
      let bytes := (bytesOf 32 r.1 ++ reportBody s rep).take 3840
      fin (physWrite s1 (a + 256) bytes.length (leNat bytes))

-- Fibre ports --------------------------------------------------------------------------------------------------------

/-- The mode that FIBMODE holds for a port. -/
def fibMode (s : State) (port : Nat) : Nat := fieldOf s.host.fibmode (2 * port + 1) (2 * port)

/-- A string with its mode changed (R205): while it is IN, its comb state is that of the feeding module's string and its own comb is idle. -/
def Str.withMode (t : Str) (m : Nat) : Str :=
  if (m == 2) == t.isIn then { t with mode := m }
  else if m == 2 then
    { t with mode := m, idle := if t.failing then (.standby, t.failovers + 1) else (t.comb, t.failovers), comb := .primary, failovers := 0, failing := false }
  else { t with mode := m, comb := t.idle.1, failovers := t.idle.2, failing := false }

/-- A written mode is applied to a port whose string has no session (R368). -/
def execFibmodeApply (port : BitVec 1) (s : State) : Out :=
  let n := 6 + port.toNat
  let t := s.str n
  if t.sess != .free || t.cal.isSome then .next s
  else .next (postAdmit (tellComb (s.updStr n (fun t => t.withMode (fibMode s port.toNat))) n) n)

end Sys2Proof.Machine
end

