-- ==== Sys2Proof/Machine/Memory.lean ====
section
/-! DEFINITION. What the memory system does on its own: write queues (R276), posted reductions (R148), fills (R271), refresh (R278),
conversions of local banks (R192), far writes (R285), and the loss of storage and corrected errors (R334). -/

namespace Sys2Proof.Machine

/-- The oldest reduction in an N-die's write queue is performed (R276, R148). -/
def execWriteQueueRequest (n : BitVec 2) (s : State) : Out :=
  match (s.ndie n.toNat).queue with
  | [] => .next s
  | r :: _ =>
    let s1 := makeRoom s n.toNat (entriesFor (r.pa / 128))
    match (s1.ndie n.toNat).queue with
    | [] => .next s1
    | r :: rs => .next (performRed (s1.updNDie n.toNat (fun x => { x with queue := rs })) n.toNat r)

/-- The oldest posted reduction of a die is applied in its L2 (R148). -/
def execL2ReductionApplied (die : BitVec 4) (s : State) : Out :=
  match (s.die die.toNat).reds with
  | [] => .next s
  | r :: rs => .next (Option.getD (applyRed (s.updDie die.toNat (fun x => { x with reds := rs })) r) s)

/-- The translation of a physical line that a die's shared TLB holds. -/
def lineTr (s : State) (d line : Nat) : Option Tr :=
  ((s.die d).tlb.find? (fun t =>
    let base := fieldOf t.leaf 51 16 * 65536
    base ≤ 128 * line && 128 * line < base + 2 ^ lvlShift t.lvl)).map (fun t => { pa := 128 * line, leaf := t.leaf })

/-- Fill data returns into an L1 or an L2, whose victim is evicted (R269 to R272). Only a line of the module's own memory that the die has
a translation for is filled. -/
def execCacheFill (l2 : BitVec 1) (unit : BitVec 7) (line victim : BitVec 45) (s : State) : Out :=
  let u := unit.toNat
  let d := if l2 == 1 then u else dieOf u
  if d ≥ 12 then .next s
  else
    match lineTr s d line.toNat with
    | none => .next s
    | some t =>
      if !ownMem s t.pa || l2Down s d || notReady s (unitOf t.pa) then .next s
      else if l2 == 1 then
        match (if victim == line then some s else l2Evict s d victim.toNat) with
        | some s1 => .next (l2Ensure s1 d t 15)
        | none => .next s
      else if !hasL1 s u || l1Draining s u line.toNat then .next s
      else .next (Option.getD ((if victim == line then some s else l1Flush s u victim.toNat).bind (fun s => l1Fill s u t)) s)

/-- A refresh of a row group falls due (R278): skipped where the group was activated within 32 ms, else performed. -/
def execRefresh (stack : BitVec 4) (row : BitVec 40) (s : State) : Out :=
  let k := stack.toNat * 2 ^ 40 + row.toNat
  if (s.rowTimes.lookup k).any (fun t => s.cycle ≤ t + 32000 * s.clockMHz) then .next s
  else .next { s with rowTimes := setA s.rowTimes k s.cycle }

/-- The last miss allocated into a converting bank completes: DRAINING W (Table 10-1). -/
def execBankFillDone (core : BitVec 7) (bank : BitVec 5) (s : State) : Out :=
  let c := core.toNat
  let b := bank.toNat
  match (s.core c).banks[b]? with
  | none => .next s
  | some k =>
    if k.mode != .drainF then .next s
    else
      .next ((s.updCore c (fun x => { x with banks := updAt x.banks b (fun k => { k with mode := .drainW, misses := 0 }) })).postE
        (.bankWritebackDone core bank))

/-- The last write-back of a converting bank completes: its lines are in L2 or discarded, and it enters its target mode (Table 10-1). Its
bytes, granules and counts are those of the group that owns it. -/
def execBankWritebackDone (core : BitVec 7) (bank : BitVec 5) (s : State) : Out :=
  let c := core.toNat
  let b := bank.toNat
  match (s.core c).banks[b]? with
  | none => .next s
  | some k =>
    if k.mode != .drainW then .next s
    else
      let ls := ((s.core c).l1.filter (fun x => x.bank == b)).map (fun x => x.line)
      .next (Option.getD ((allOf ls s (fun s l => l1Flush s c l)).map (fun s => s.updCore c (fun x => { x with
        banks := updAt x.banks b (fun k => { k with mode := k.target }) }))) s)

/-- A write to far memory completes (R285). -/
def execFarWriteCompletion (line : BitVec 45) (s : State) : Out :=
  .next { s with ndies := s.ndies.map (fun n => { n with farWrites := n.farWrites.filter (fun l => l != line.toNat) }) }

/-- An HBM4E stack (`far` 0) or an expander is lost: its addresses are fenced (R334). -/
def execStorageLost (far : BitVec 1) (idx : BitVec 4) (s : State) : Out :=
  let i := idx.toNat
  let k := if far == 1 then 16 + i else i
  if (far == 1 && (i ≥ 8 || !bitAt s.cxlMask i)) || (far == 0 && i ≥ 12) || s.lost.contains k then .next s
  else
    .next (eventRecord { s with
      lost := insSorted k s.lost, ready := updAt s.ready (if far == 1 then 120 + i else 108 + i) (fun _ => 2) }
      (if far == 1 then 5 else 3) i 4 1 0 0)

/-- Correctable errors of a unit's storage, corrected in place (R334, Table 18-4). -/
def execCorrectableError (u : BitVec 8) (idx : BitVec 16) (count : BitVec 32) (s : State) : Out :=
  .next (noteCorrected s u.toNat idx.toNat 0 count.toNat)

end Sys2Proof.Machine
end

