-- ==== Sys2Proof/Machine/Slots.lean ====
section
/-! DEFINITION. The reduction slots of the collective engine (R356): what the other members post and contribute is kept in them, and the switch
ALU combines contributions in the order of R355. -/

namespace Sys2Proof.Machine

-- The order of a reduction -------------------------------------------------------------------------------------------

/-- The adder, MAX or MIN of a switch ALU (R354). -/
def aluOp (redop : Nat) (a b : W32) : W32 :=
  match redop with
  | 0 => fp32Add a b
  | 1 => f32Max a b
  | _ => f32Min a b

/-- A heap of ranks combined from position `k` (R355): op(op(own, left), right). The first argument bounds the depth. -/
def treeFrom (redop : Nat) (x : Nat → W32) (m : Nat) : Nat → Nat → W32
  | 0, k => x k
  | d + 1, k =>
    let l := if 2 * k + 1 < m then aluOp redop (x k) (treeFrom redop x m d (2 * k + 1)) else x k
    if 2 * k + 2 < m then aluOp redop l (treeFrom redop x m d (2 * k + 2)) else l

/-- R355, Table 19-7: the contributions `x` of ranks 0 to m − 1 to the element at position `k` of a bucket of `n` elements, combined in
the order of an algorithm: 1 RING, 2 TREE, 3 DIRECT. `root` is ROOT of a REDUCE. -/
def combine (alg redop m root n k : Nat) (x : Nat → W32) : W32 :=
  match alg with
  | 1 =>
    let j := k / ((n + m - 1) / m)
    (List.range (m - 1)).foldl (fun p i => aluOp redop p (x ((j + i + 1) % m))) (x (j % m))
  | 2 => treeFrom redop (fun p => x ((p + root) % m)) m 8 0
  | _ => (List.range (m - 1)).foldl (fun p i => aluOp redop p (x (i + 1))) (x 0)

/-- The order in which RING (1) and DIRECT take the ranks for the element at position `k` of a bucket of `n` elements (Table 19-7). -/
def ringOrder (alg m n k : Nat) : List Nat :=
  let j := if alg == 1 then k / ((n + m - 1) / m) else 0
  (List.range m).map (fun i => (j + i) % m)

/-- A heap of ranks combined from position `k` as far as contributions have arrived in their turn (R355); none where its own has not. -/
def treeSeen (redop : Nat) (x : Nat → Option W32) (m : Nat) : Nat → Nat → Option W32
  | 0, k => x k
  | d + 1, k => (x k).map (fun own =>
    let step (p : W32) (c : Nat) : Option W32 := if c < m then (treeSeen redop x m d c).map (aluOp redop p) else some p
    match step own (2 * k + 1) with
    | none => own
    | some l => (step l (2 * k + 2)).getD l)

/-- The partial that a slot holds for an element: the contributions that have arrived, combined up to the first whose turn has come and which has
not arrived; early arrivals are held (R355). 0 where nothing can be combined. -/
def combineSeen (alg redop m root n k : Nat) (x : Nat → Option W32) : W32 :=
  if alg == 2 then (treeSeen redop (fun p => x ((p + root) % m)) m 8 0).getD 0
  else
    match (((ringOrder alg m n k).map x).takeWhile Option.isSome).filterMap id with
    | [] => 0
    | y :: ys => ys.foldl (aluOp redop) y

/-- AUTO of Table 19-7: DIRECT for two members, else RING for buckets of 256 KiB or more, else TREE. -/
def CollBlock.algOf (b : CollBlock) (m : Nat) : Nat :=
  if b.alg != 0 then b.alg else if m == 2 then 3 else if b.bucket * dtypeBytes b.dty ≥ 262144 then 1 else 2

-- Messages -----------------------------------------------------------------------------------------------------------

/-- Its block. -/
def Coll.blk (c : Coll) : CollBlock := collBlock c.words
/-- The number of buckets (R353). -/
def Coll.buckets (c : Coll) : Nat := (c.blk.count + c.blk.bucket - 1) / c.blk.bucket
/-- The first element of a bucket. -/
def Coll.lo (c : Coll) (b : Nat) : Nat := b * c.blk.bucket
/-- The elements of a bucket. -/
def Coll.len (c : Coll) (b : Nat) : Nat := min c.blk.count ((b + 1) * c.blk.bucket) - b * c.blk.bucket

/-- Whether a message is about a collective of a group and number. -/
def CollMsg.about (x : CollMsg) (cg seq : Nat) : Bool := x.cg == cg && x.seq == seq

/-- A collective's message kept in the slots (R356; its format is the model's own, log entry 93). -/
def keepMsg (s : State) (x : CollMsg) : State := { s with slots := s.slots ++ [x] }

/-- The first post of each member about a collective, which belongs to the collective here, taken out of the slots (R352). -/
def dropPosts (cg seq : Nat) : List CollMsg → List Nat → List CollMsg
  | [], _ => []
  | x :: xs, seen =>
    if x.kind == 0 && x.about cg seq && !seen.contains x.m then dropPosts cg seq xs (x.m :: seen) else x :: dropPosts cg seq xs seen

/-- A member's latest post about a collective and its contributions taken out of the slots: its collective is over (R357). -/
def dropMember (cg seq m : Nat) (l : List CollMsg) : List CollMsg :=
  let mine (x : CollMsg) : Bool := x.about cg seq && x.m == m
  let rec last : List CollMsg → List CollMsg
    | [] => []
    | x :: xs => if mine x && x.kind == 0 && !xs.any (fun y => mine y && y.kind == 0) then xs else x :: last xs
  (last l).filter (fun x => !(mine x && x.kind == 1))

/-- A member's contribution to a bucket, once all of it is in the slots. -/
def Coll.part (c : Coll) (s : State) (b r : Nat) : Option (List W32) :=
  let ms := s.slots.filter (fun x => x.kind == 1 && x.about c.blk.cg c.blk.seq && x.m == c.mods.getD r 64 && x.bucket == b)
  let l := ms.flatMap (fun x => x.words.map (fun w => w.setWidth 32))
  if ms.isEmpty || l.length != (if c.blk.usesSrc r then c.len b else 0) then none else some l

/-- Every member's contribution to a bucket by rank, once all have joined it (R353). -/
def Coll.allParts (c : Coll) (s : State) (b : Nat) : Option (List (List W32)) :=
  (List.range c.mods.length).foldr (fun r acc => acc.bind (fun l => (c.part s b r).map (fun x => x :: l))) (some [])

/-- A member's contribution to an element of a bucket, where it has arrived. -/
def Coll.seen (c : Coll) (s : State) (b r i : Nat) : Option W32 :=
  (s.slots.find? (fun x => x.kind == 1 && x.about c.blk.cg c.blk.seq && x.m == c.mods.getD r 64 && x.bucket == b && x.off ≤ i &&
    i < x.off + x.words.length)).map (fun x => (x.words.getD (i - x.off) 0).setWidth 32)

/-- The word at a place of a collective's slot: the partial that the switch ALU has combined for the lowest bucket in progress (R355), and with
REDOP NONE the bits of the lowest rank that has pushed some there (R354); none where nothing has been pushed. -/
def Coll.slotAt (c : Coll) (s : State) (i : Nat) : Option W32 :=
  let k := c.blk
  let ranks := List.range c.mods.length
  ((List.range c.buckets).find? (fun b => !c.ended.contains b && ranks.any (fun r => (c.seen s b r i).isSome))).map (fun b =>
    if k.redop == 3 then (ranks.findSome? (fun r => c.seen s b r i)).getD 0
    else combineSeen (k.algOf c.mods.length) k.redop c.mods.length (if k.op == 4 then k.root else 0) (c.len b) i (fun r => c.seen s b r i))

/-- The word at a place of a slot (R356): that of the group's oldest collective which has one there; 0 where nothing has been pushed (log entry
93). -/
def slotWord (s : State) (cg i : Nat) : Nat :=
  BitVec.toNat (((s.colls.filter (fun (c : Coll) => c.blk.cg == cg)).findSome? (fun (c : Coll) => c.slotAt s i)).getD 0)

/-- Whether a member's failure notice is about the collective here and not about an earlier one of its number: the member's post for it has
come. A member posts before it fails, and its packets keep their order (R344, R352). -/
def noticeLive (s : State) (cg seq m : Nat) : Bool :=
  s.colls.any (fun c => c.blk.cg == cg && c.blk.seq == seq && c.matched) || s.slots.any (fun x => x.kind == 0 && x.about cg seq && x.m == m)

end Sys2Proof.Machine
end

