-- ==== Sys2Proof/Machine/Link.lean ====
section
/-! DEFINITION. Avdon links: their states (R340, Table 19-1), flits and replay (R341 to R344), routes and reroutes (R339, R345), and
safe mode (R363). -/

namespace Sys2Proof.Machine

-- Safe mode ----------------------------------------------------------------------------------------------------------

/-- R363, R364: the module enters safe mode for a reason: only Ovpol runs, and every link is DOWN. A lower reason replaces a higher one. -/
def enterSafe (s : State) (reason : Nat) : State :=
  { s with
    safe := true, reason := if s.reason == 0 then reason else min s.reason reason, agenda := [],
    ready := (List.range 161).map (fun f => if f == 160 then 1 else if s.ready.getD f 0 == 3 then 3 else 0),
    links := s.links.map (fun l => { Link.reset with replays := l.replays }) }

-- Routes -------------------------------------------------------------------------------------------------------------

/-- R345: a change of links or routes, after which a destination whose route in use changed and that has unanswered requests is rerouted:
those that have not been sent yet are held with the later ones;
where no route remains its requests are answered under R348. -/
def withReroutes (s s' : State) : State :=
  let turned (m : Nat) : Bool := routeTo s m != routeTo s' m && (routeTo s' m).isSome
  let unsent (p : Packet) : Bool := s'.outbox.contains p
  { s' with
    outbox := s'.outbox.filter (fun p => !(turned p.dstm.toNat && (s'.dest p.dstm.toNat).unans.contains p)),
    dests := (List.range 64).map (fun m =>
      let d := s'.dest m
      if routeTo s m == routeTo s' m || d.open.isEmpty then d
      else if (routeTo s' m).isNone then { d with reroute := none, unans := d.open, held := [] }
      else { d with reroute := some s'.cycle, unans := d.unans.filter (fun p => !unsent p), held := d.unans.filter unsent ++ d.held }) }

/-- A host write to ROUTEn (R339): the module's own entry has no effect on traffic. -/
def execRouteWrite (n : BitVec 6) (v : BitVec 64) (s : State) : Out :=
  if !regOpen s then .next s
  else
    let s1 := s.updHost (fun h => { h with routes := updAt h.routes n.toNat (fun _ => v &&& 0x3FF) })
    .next (flushOutbox (withReroutes s s1))

/-- A reroute of a destination ends once its requests are answered or have waited 2^20 core cycles: what is unanswered is resent in order
on the new route, then what was held (R345). -/
def execRerouteResend (m : BitVec 6) (s : State) : Out :=
  let d := s.dest m.toNat
  match d.reroute with
  | none => .next s
  | some t =>
    if !d.unans.isEmpty && s.cycle < t + 2 ^ 20 then .next s
    else
      .next (d.open.foldl enqueue (s.updDest m.toNat (fun d => { d with reroute := none, unans := d.open, held := [] })))

-- Link states --------------------------------------------------------------------------------------------------------

/-- A link that carries no traffic: its replay buffer is empty and its numbers start again when it is trained. -/
def Link.quiet (l : Link) (st : LinkState) : Link :=
  { l with
    st := st, waves := 0, nextSeq := 0, expSeq := 0, unacked := [], tries := [], timeouts := 0, partialPkt := [], nak := none,
    credits := [0, 0, 0, 0] }

/-- READY of a link. -/
def linkReady (s : State) (n v : Nat) : State := { s with ready := updAt s.ready (128 + n) (fun x => if x == 3 then 3 else v) }

/-- Whether links may be trained: the firmware and the identity record have been verified, and the module is not in safe mode (R363, R365). -/
def linksOpen (s : State) : Bool := !s.safe && 2 ≤ s.phase

/-- A link enters DOWN or FENCED: reroutes, and an event record (R340). -/
def linkLost (s : State) (n : Nat) (st : LinkState) : State :=
  let s1 := linkReady (s.updLink n (fun l => l.quiet st)) n (if st == .fenced then 2 else 0)
  eventRecord (withReroutes s s1) 7 n 4 1 0 0

/-- Light and training succeed (R340): UP with 16 working wavelengths, DEGRADED with 8 to 15, a failed training below. The neighbour
that it trains to is held against the trained topology and the module's own id (R363). -/
def execLinkTrained (n : BitVec 4) (waves : BitVec 5) (neighbour : BitVec 6) (s : State) : Out :=
  let k := n.toNat
  let w := min 18 waves.toNat
  if !linksOpen s || (s.link k).st != .training then .next s
  else if w < 8 then .next (s.postE (.linkTrainingFailed n))
  else if neighbour.toNat != s.topo.2.2.2.2.getD k 64 then .next (enterSafe s 4)
  else if neighbour.toNat == s.modid then .next (enterSafe s 5)
  else
    let s1 := linkReady (s.updLink k (fun l => { l.quiet (if w ≥ 16 then .up else .degraded) with
      waves := w, failed := 0, neighbour := neighbour.toNat })) k 1
    .next (flushOutbox (withReroutes s s1))

/-- A training fails (R340); the third in a row fences the link. -/
def execLinkTrainingFailed (n : BitVec 4) (s : State) : Out :=
  let k := n.toNat
  if (s.link k).st != .training then .next s
  else if (s.link k).failed ≥ 2 then .next (linkLost (s.updLink k (fun l => { l with failed := 0 })) k .fenced)
  else .next (s.updLink k (fun l => { l with failed := l.failed + 1 }))

/-- A wavelength is lost (R340): a spare is mapped in while one remains, then DEGRADED while 8 work, then FENCED. -/
def execWavelengthLost (n : BitVec 4) (s : State) : Out :=
  let k := n.toNat
  let w := (s.link k).waves - 1
  if !linkUsable s k then .next s
  else if w ≥ 16 then .next (s.updLink k (fun l => { l with waves := w }))
  else if w ≥ 8 then .next (s.updLink k (fun l => { l with waves := w, st := .degraded }))
  else .next (linkLost s k .fenced)

/-- Light is lost (R340). -/
def execLightLost (n : BitVec 4) (s : State) : Out :=
  let k := n.toNat
  match (s.link k).st with
  | .down => .next s
  | .fenced => .next s
  | _ => .next (linkLost s k .down)

/-- A management reset (R340): TRAINING from every state. -/
def execLinkManagementReset (n : BitVec 4) (s : State) : Out :=
  let k := n.toNat
  if !linksOpen s then .next s
  else .next (withReroutes s (linkReady (s.updLink k (fun l => { l.quiet .training with failed := 0 })) k 0))

/-- Light appears on a link that is DOWN (R340). -/
def execLinkLightDetected (n : BitVec 4) (s : State) : Out :=
  let k := n.toNat
  if !linksOpen s || (s.link k).st != .down then .next s else .next (s.updLink k (fun l => l.quiet .training))

-- Notices of sessions (R205) ------------------------------------------------------------------------------------------

/-- The modules that a notice about a string goes to: from an IN string the feeding module, else the module of the listener that it admits, or
every module that the string feeds (R205; log entry 26). -/
def noteTargets (s : State) (n : Nat) (k : SNote) : List Nat :=
  let ms := if (s.str n).isIn then [feederOf s.modid n] else if k.kind == 1 then [fieldOf k.fields 53 48]
    else (List.range 64).filter (fun m => feederOf m n == s.modid)
  ms.filter (fun m => m != s.modid && (routeTo s m).isSome)

/-- A notice sent as control packets, POP 9 (Table 19-4). -/
def sendNote (s : State) (n : Nat) (k : SNote) : State :=
  (noteTargets s n k).foldl (fun s m =>
    sendReply s { packet0 m 9 0 with
      arg := BitVec.ofNat 8 (n + 8 * k.kind), data := bytesOf 8 k.fields.toNat ++ bytesOf 4 (k.member + k.key * 2 ^ 16 + k.ctx * 2 ^ 24) }) s

/-- Every notice that waits at a string sent. -/
def sendNotes (s : State) : State :=
  (List.range 8).foldl (fun s n =>
    if (s.str n).notes.isEmpty then s
    else (s.str n).notes.foldl (fun s k => sendNote s n k) (s.updStr n (fun t => { t with notes := [] }))) s

-- Replay -------------------------------------------------------------------------------------------------------------

/-- An ACK (R341): the flits before the number are acknowledged. -/
def takeAck (s : State) (n ack : Nat) : State :=
  let l := s.link n
  let first := (l.nextSeq + 4096 - l.unacked.length) % 4096
  let k := (ack + 4096 - first) % 4096
  if k == 0 || k > l.unacked.length then s
  else flushOutbox (s.updLink n (fun l => { l with 
    unacked := l.unacked.drop k, tries := l.tries.drop k, timeouts := 0, since := s.cycle }))

/-- R343: every unacknowledged flit is resent from the oldest; sixteen resends of one flit fence the link. -/
def resendAll (s : State) (n : Nat) : State :=
  let l := s.link n
  if l.unacked.isEmpty then s
  else if l.tries.any (fun t => t + 1 ≥ 16) then linkLost s n .fenced
  else s.updLink n (fun l => { l with tries := l.tries.map (fun t => t + 1), replays := min 65535 (l.replays + 1), since := s.cycle })

/-- A NAK with the number that the other side expects (R343): what lies before it is acknowledged, and the rest is resent. -/
def execNakReceive (n : BitVec 4) (seq : BitVec 12) (s : State) : Out :=
  if !linkUsable s n.toNat then .next s else .next (resendAll (takeAck s n.toNat seq.toNat) n.toNat)

/-- 2^16 core cycles with unacknowledged flits and no ACK progress (R343): a resend; eight in a row fence the link. -/
def execAckTimeout (n : BitVec 4) (s : State) : Out :=
  let k := n.toNat
  let l := s.link k
  if !linkUsable s k || l.unacked.isEmpty || s.cycle < l.since + 2 ^ 16 then .next s
  else if l.timeouts + 1 ≥ 8 then .next (linkLost s k .fenced)
  else .next (resendAll (s.updLink k (fun l => { l with timeouts := l.timeouts + 1 })) k)

/-- Bit count of a mask. -/
def maskCount (m : BitVec 128) : Nat := ((List.range 128).filter (bitAt m)).length

/-- The bytes of data that a packet of an operation carries, of the `n` that its flits have room for (R342): a write those of its mask, an
atomic its operands, a reduction one, the others what the format gives. -/
def popBytes (pop n : Nat) (mask : BitVec 128) : Nat :=
  match pop with
  | 0 => 0
  | 1 => maskCount mask
  | 2 => 16
  | 3 => 8
  | 5 => 0
  | 6 => 8
  | 7 => 0
  | _ => n

/-- A packet from the payloads of its flits (Table 19-3, R342). -/
def packetOf (fs : List (BitVec 512)) : Packet :=
  let pay (f : BitVec 512) : Nat := f.toNat / 2 ^ 32 % 2 ^ 448
  let h := pay (fs.headD 0)
  let room := 56 * (fs.length - 1)
  let pop := h / 2 ^ 46 % 64
  let mask : BitVec 128 := BitVec.ofNat 128 (h / 2 ^ 128)
  { dstm := BitVec.ofNat 6 (h / 2 ^ 58), srcm := BitVec.ofNat 6 (h / 2 ^ 52), pop := BitVec.ofNat 6 pop, nflit := BitVec.ofNat 6 (h / 2 ^ 40),
    arg := BitVec.ofNat 8 (h / 2 ^ 32), rid := BitVec.ofNat 16 (h / 2 ^ 16), tag := BitVec.ofNat 16 h, addr := BitVec.ofNat 45 (h / 2 ^ 64),
    cls := BitVec.ofNat 3 ((fs.headD 0).toNat / 4), mask := mask,
    data := ((fs.drop 1).flatMap (fun f => bytesOf 56 (pay f))).take (min room (popBytes pop room mask)) }

/-- POP 12 (R352, R357): a member's post, ARG 0 with words 0 and 3 of its block, or the end of its collective, ARG being the cause that
`execCollectiveFailure` takes, with the unreachable module of LINK; the member's messages are then void, and a notice about a collective that
is over here changes nothing else. -/
def takeMatch (s : State) (p : Packet) : State :=
  let w0 : W64 := BitVec.ofNat 64 (leNat (p.data.take 8))
  let x : CollMsg := { cg := fieldOf w0 47 40, seq := fieldOf w0 31 0, m := p.srcm.toNat, kind := 0, bucket := 0, off := 0,
                       words := [w0, BitVec.ofNat 64 (leNat ((p.data.drop 8).take 8))] }
  let m : BitVec 6 := if p.arg == 4 then BitVec.ofNat 6 (leNat ((p.data.drop 8).take 8)) else p.srcm
  if p.arg == 0 then keepMsg s x
  else
    let s1 : State := { s with slots := dropMember x.cg x.seq x.m s.slots }
    if noticeLive s x.cg x.seq x.m then s1.postE (.collectiveFailure (BitVec.ofNat 8 x.cg) (BitVec.ofNat 32 x.seq) p.arg m) else s1

/-- POP 10 (R354, R356): as many elements of a member's contribution to a bucket as the packet says, four bytes each, pushed into the slot of
the collective's group.
Nothing is kept for a collective that is over. -/
def takePush (s : State) (p : Packet) : State :=
  let n := min (leNat (p.data.take 16) / 2 ^ 96) ((p.data.length - 16) / 4)
  let v := leNat (p.data.drop 16)
  let hd := leNat (p.data.take 16)
  let x : CollMsg := { cg := p.addr.toNat / 2 ^ 32 % 256, seq := hd % 2 ^ 32, m := p.srcm.toNat, kind := 1, bucket := hd / 2 ^ 32 % 2 ^ 32,
                       off := hd / 2 ^ 64 % 2 ^ 32, words := (List.range n).map (fun i => BitVec.ofNat 64 (v / 2 ^ (32 * i) % 2 ^ 32)) }
  if s.colls.any (fun c => (collBlock c.words).cg == x.cg && (collBlock c.words).seq == x.seq) then keepMsg s x else s

/-- POP 11 (R356): a pull, answered with the combined words that the slot holds; the data of one that this module never asks for is dropped (log entry 93). -/
def takePull (s : State) (p : Packet) : State :=
  if !p.data.isEmpty then s
  else
    let i := p.addr.toNat % 2 ^ 32 / 4
    sendReply s { packet0 p.srcm.toNat 11 p.cls.toNat with
      tag := p.tag, addr := p.addr, data := (List.range (2 * p.arg.toNat)).flatMap (fun k => bytesOf 4 (slotWord s (p.addr.toNat / 2 ^ 32 % 256) (i + k))) }

/-- Whether a packet shows that another module has this module's id (R338; DEDUCED, log entry 120): it names this module as its source, and
is for this module, or is a request that this module is not waiting for. A packet of this module's own that a route through another module
has brought back (R339) shows nothing. -/
def showsDuplicate (s : State) (p : Packet) : Bool :=
  p.srcm.toNat == s.modid &&
    (p.dstm.toNat == s.modid || (p.pop.toNat < 4 && !(s.dest p.dstm.toNat).open.any (fun x => x.tag == p.tag && x.pop == p.pop)))

/-- A packet that has arrived over link `n` (Table 19-4): passed on where it is for another module, else handed to its agent. -/
def takePacket (s : State) (n : Nat) (p : Packet) : State :=
  if showsDuplicate s p then enterSafe s 5
  else if p.dstm.toNat != s.modid then enqueue s p
  else
    let id : W32 := BitVec.ofNat 32 (leNat (p.data.take 4))
    match p.pop.toNat with
    | 4 => s.postE (.remoteReply p)
    | 5 => s.postE (.remoteReply p)
    | 6 => s.postE (.remoteReply p)
    | 7 => s.postE (.remoteReply p)
    | 8 => s.postE (if p.data.isEmpty then .remoteReply p else .remoteRequest p)
    | 9 =>
      let d := leNat (p.data.drop 8)
      s.postE (.sessionControlFlit (BitVec.ofNat 3 p.arg.toNat) (BitVec.ofNat 2 (p.arg.toNat / 8)) (BitVec.ofNat 14 d) (BitVec.ofNat 6 (d / 2 ^ 16))
        (BitVec.ofNat 8 (d / 2 ^ 24)) (BitVec.ofNat 64 (leNat (p.data.take 8))))
    | 10 => takePush s p
    | 11 => takePull s p
    | 12 => takeMatch s p
    | 13 =>
      match p.arg.toNat with
      | 0 => s.postE (.gangReadyReceived id p.srcm)
      | 1 => s.postE (.gangCommitReceived id)
      | 2 => s.postE (.gangAbortReceived id (BitVec.ofNat 6 (leNat (p.data.drop 4))))
      | 3 => s.postE (.gangQueryReceived id p.srcm)
      | _ => s
    | 14 => s.postE (if p.data.isEmpty then .remoteReply p else .remoteRequest p)
    | k => if k ≥ 15 then eventRecord s 7 n 0 1 0 0 else s.postE (.remoteRequest p)

/-- A flit discarded: one NAK with the expected number is sent, and no other until that number arrives (R343). -/
def discardFlit (s : State) (n : Nat) : State :=
  s.updLink n (fun l => if l.nak.isSome then l else { l with nak := some (flitOf 0 l.expSeq 3 0 0 0) })

/-- A flit arrives on a link (R343): ACK progress, a NAK, or a sequenced flit that is accepted in order and completes its packet at LAST. -/
def execFlitReceive (n : BitVec 4) (flit : BitVec 512) (s : State) : Out :=
  let k := n.toNat
  if !linkUsable s k then .next s
  else if !flitGood flit then .next (discardFlit (noteCorrected s 7 k 1 1) k)
  else
    let s1 := takeAck s k (fieldOf flit 19 8)
    match fieldOf flit 7 5 with
    | 0 => .next s1
    | 3 => .next (resendAll s1 k)
    | _ =>
      let l := s1.link k
      if fieldOf flit 31 20 != l.expSeq then .next (discardFlit s1 k)
      else
        let fs := l.partialPkt ++ [flit]
        let last := fieldOf flit 1 1 == 1
        let s2 := s1.updLink k (fun l => { l with expSeq := (l.expSeq + 1) % 4096, nak := none, partialPkt := if last then [] else fs })
        .next (if last then takePacket s2 k (packetOf fs) else s2)

end Sys2Proof.Machine
end

