-- ==== Sys2Proof/Machine/Fabric.lean ====
section
/-! DEFINITION. Requests of other modules performed at this home (R346, R347), the answers to this module's own (R346, R348), and
interrupts by handle that arrive from elsewhere (R125). -/

namespace Sys2Proof.Machine

/-- Status of an answer in ARG (log entry 69): 0 done, 16 and the source of an uncorrectable error, 32 for an unpopulated address. -/
def statusBad (s : State) (pa : Nat) : Nat := 16 + memSource s (homeOf pa none) pa

/-- The answer to a request: its operation, status and data. -/
def replyTo (p : Packet) (pop status : Nat) (data : List Byte) : Packet :=
  { packet0 p.srcm.toNat pop p.cls.toNat with tag := p.tag, rid := p.rid, arg := BitVec.ofNat 8 status, data := data }

/-- The line data that a packet's bytes give under its mask, in ascending order (R342). -/
def lineOf (mask : BitVec 128) (data : List Byte) : BitVec 1024 :=
  let step (acc : Nat × List Byte) (i : Nat) : Nat × List Byte :=
    if bitAt mask i then (acc.1 + (acc.2.headD 0).toNat * 2 ^ (8 * i), acc.2.drop 1) else acc
  BitVec.ofNat 1024 ((List.range 128).foldl step (0, data)).1

/-- An atomic or a reduction of another module performed in the home's write queue (R146, R276): the old value, or its status. -/
def remoteAtomic (s : State) (p : Packet) : Nat × Nat × State :=
  let pa := p.addr.toNat
  let o := p.arg.toNat / 8
  let t := p.arg.toNat % 8
  let w := atomWidth t
  let op := leNat (p.data.take 8) % 2 ^ (8 * w)
  let cmp := leNat ((p.data.drop 8).take 8) % 2 ^ (8 * w)
  if !ownMem s pa || pa % w != 0 then (0, 32, s)
  else
    match homeAtomic s (homeOf pa none) pa w (fun old => atomNew o t (8 * w) old op cmp) with
    | some (old, s1) => (old, 0, s1)
    | none => (0, statusBad s pa, atomicMissed s (homeOf pa none) pa)

/-- A request of another module performed at its home (R346): the answer and the state after. -/
def performRemote (s : State) (p : Packet) : Packet × State :=
  let pa := p.addr.toNat
  match p.pop.toNat with
  | 0 =>
    let n := 8 * p.arg.toNat
    if !ownMem s pa || n == 0 || n > 128 || !ownMem s (pa + n - 1) then (replyTo p 4 32 [], s)
    else
      let r := physRead s pa n
      if r.2.1 then (replyTo p 4 (statusBad s pa) [], r.2.2) else (replyTo p 4 0 (bytesOf n r.1), r.2.2)
  | 1 =>
    if !ownMem s pa then (replyTo p 5 32 [], s)
    else (replyTo p 5 0 [], homeWrite s (homeOf pa none) (pa / 128) p.mask (lineOf p.mask p.data))
  | 2 => let r := remoteAtomic s p
         (replyTo p 6 r.2.1 (bytesOf 8 r.1), r.2.2)
  | _ => let r := remoteAtomic s p
         (replyTo p 5 r.2.1 [], r.2.2)

/-- Whether a request of another module waits for its storage to be READY (R367; log entry 150). -/
def remoteHeld (s : State) (p : Packet) : Bool :=
  let pa := p.addr.toNat
  ownMem s pa && (notReady s (unitOf pa) || (p.pop == 0 && notReady s (unitOf (pa + 8 * p.arg.toNat - 1))))

/-- A packet arrives at its home module (R346, R347): a request that writes and whose number the reply cache holds is answered from it,
any other is performed, once its storage is READY. Promotion requests and interrupts go to the distributor. -/
def execRemoteRequest (p : Packet) (s : State) : Out :=
  let m := p.srcm.toNat
  let pop := p.pop.toNat
  if pop == 8 then .next (s.postE (.promoteRequest (BitVec.ofNat 64 (leNat (p.data.take 8))) (BitVec.ofNat 45 (p.addr.toNat / 128)) p.arg
    (BitVec.ofNat 7 m) p.tag))
  else if pop == 14 then .next (s.postE (.interruptPacket (BitVec.ofNat 64 (leNat (p.data.take 8))) (BitVec.ofNat 32 (leNat ((p.data.drop 8).take 4)))
    p.arg p.srcm p.tag))
  else if pop ≥ 15 then .next (eventRecord s 8 0 0 1 0 0)
  else if pop > 3 then .next s
  else
    let i := p.rid.toNat % 256
    match (if popWrites pop then ((s.dest m).cache.lookup i).filter (fun r => r.rid == p.rid) else none) with
    | some old => .next (sendReply s { old with tag := p.tag })
    | none =>
      if remoteHeld s p then .next { s with remWait := s.remWait ++ [p] }
      else
        let r := performRemote s p
        .next (sendReply (if popWrites pop then r.2.updDest m (fun d => { d with cache := setA d.cache i r.1 }) else r.2) r.1)

/-- A reduction posted to another module whose acknowledgement reports an error leaves its fault (R148). -/
def remoteRedFault (s : State) (r : RedReq) (status : Nat) : State :=
  let f : FaultInfo := { code := if status < 32 then cMEMUNC else cACCESS, stream := 0, async := true, imprecise := true, elvalid := false,
                         element := 0, pc := 0, addr := r.va, ipc := r.pc, word := r.word,
                         detail := BitVec.ofNat 32 (if status < 32 then status - 16 else 0), opa := r.va, opb := r.opnd, opc := 0, cycle := s.cycle }
  s.updGroup r.handle (fun g => { g with redFaults := g.redFaults ++ [(f, r.scope)] })

/-- A waiting access that an answer belongs to has its data and status. -/
def answered (p : Packet) (r : RemoteWait) : RemoteWait :=
  let dist := p.pop == 8 || p.pop == 14
  if r.tag == p.tag && r.got.isNone then { r with got := some (if dist then [p.arg] else p.data.take r.len), status := if dist then 0 else p.arg.toNat }
  else r

/-- An answer returns to the requester (R346): the request is no longer outstanding, a waiting access of a group or of the device has its
value and status, and a reduction's error is kept for its ordering instruction. -/
def execRemoteReply (p : Packet) (s : State) : Out :=
  match s.tagOwner.find? (fun t => t.1 == p.tag && t.2.1 == p.srcm.toNat) with
  | none => .next s
  | some t =>
    let m := t.2.1
    let cut (l : List Packet) : List Packet := l.filter (fun x => x.tag != p.tag)
    let s1 := (({ s with
      tagOwner := s.tagOwner.filter (fun x => x != t), remReds := s.remReds.filter (fun r => r.1 != p.tag) } : State).updDest m
        (fun d => { d with unans := cut d.unans, held := cut d.held }))
    let s2 := match s.remReds.lookup p.tag with
      | some r => if p.arg == 0 then s1 else remoteRedFault s1 r p.arg.toNat
      | none => s1
    .next ({ s2.updGroup t.2.2.2 (fun g => { g with rwait := g.rwait.map (answered p) }) with
      devw := if t.2.2.1 == noCore then s2.devw.map (answered p) else s2.devw })

/-- An interrupt by handle from another module (R125): raised on a live group of the issuer's context, and answered with 0, or 1 where
there is none. -/
def execInterruptPacket (h : BitVec 64) (v : BitVec 32) (c : BitVec 8) (src : BitVec 6) (tag : BitVec 16) (s : State) : Out :=
  let r := interruptGroup s h c.toNat v
  .next (sendReply r.2 { packet0 src.toNat 14 0 with tag := tag, arg := BitVec.ofNat 8 (if r.1 then 0 else 1) })

end Sys2Proof.Machine
end

