-- ==== Sys2Proof/Machine/Collective.lean ====
section
/-! DEFINITION. The collective engine at this member (R304, R352 to R357): matching, buckets, the order in which contributions combine,
and failures. What the other members post and contribute arrives in packets and is kept in the slots (R356, log entries 16, 93). -/

namespace Sys2Proof.Machine

-- Buffers ------------------------------------------------------------------------------------------------------------

/-- The translation of an address of a collective's block, made when it was posted (R350). -/
def Coll.tr (c : Coll) (s : State) (va : Nat) : Acc Tr :=
  match c.pages.find? (fun p => p.1 == va / 65536) with
  | some p => .ok { pa := p.2.1 * 65536 + va % 65536, leaf := p.2.2 } s
  | none => .fault (exc cACCESS va) s

/-- The ranges of whole lines of this module in which the `n` bytes from an address lie, page by page. -/
def Coll.spans (c : Coll) (va n : Nat) : List (Nat × Nat) :=
  if n == 0 then []
  else
    c.pages.eraseDups.filterMap (fun p =>
      let lo := max va (p.1 * 65536)
      let hi := min (va + n) (p.1 * 65536 + 65536)
      let at' (v : Nat) : Nat := p.2.1 * 65536 + v % 65536
      if hi ≤ lo || inRemote (at' lo) then none else some (at' lo / 128 * 128, (at' (hi - 1) / 128 - at' lo / 128 + 1) * 128))

/-- R304: a buffer's range written back from every L1 and drained from every journal; none where a promotion waits (R297). -/
def Coll.drain (c : Coll) (s : State) (va n : Nat) : Option State := allOf (c.spans va n) s (fun s r => rangeDrain s r.1 r.2)

/-- R304: the clean bytes of the lines of a range discarded from every L1 and L2, dirty bytes kept. -/
def dropClean (s : State) (pa n : Nat) : State :=
  let cut (l : List CLine) : List CLine :=
    (l.filter (fun x => !inBytes pa n x.line || x.dirty != 0)).map (fun x => if inBytes pa n x.line then x.dirtyOnly else x)
  { s with cores := s.cores.map (fun c => { c with l1 := cut c.l1 }), dies := s.dies.map (fun d => { d with l2 := cut d.l2 }) }

/-- R354: an element widened to FP32. -/
def collWiden (dty v : Nat) : W32 :=
  match dty with
  | 1 => toF32 (fpDecode fmtBf16 v)
  | 2 => toF32 (fpDecode fmtH16 v)
  | _ => BitVec.ofNat 32 v

/-- R354, R19: an FP32 result narrowed at its final write. -/
def collNarrow (dty : Nat) (w : W32) : Nat :=
  match dty with
  | 1 => fpEncode fmtBf16 (f32 w)
  | 2 => fpEncode fmtH16 (f32 w)
  | _ => w.toNat

-- A collective and its end -------------------------------------------------------------------------------------------

/-- The collective of a group and sequence number. -/
def collOf (s : State) (cg seq : Nat) : Option Coll :=
  s.colls.find? (fun c => (collBlock c.words).cg == cg && (collBlock c.words).seq == seq)
/-- Whether a collective is another one's post. -/
def Coll.same (c d : Coll) : Bool := c.blk.cg == d.blk.cg && c.blk.seq == d.blk.seq
/-- A collective changed. -/
def updColl (s : State) (c : Coll) (f : Coll → Coll) : State := { s with colls := s.colls.map (fun d => if d.same c then f d else d) }
/-- R353: a collective ends: STAT is written, the engine forgets it and what its slots hold for it, and where its group has retired an event
record is left. -/
def collEnd (s : State) (c : Coll) (status : Nat) : State :=
  let v := status + c.ended.length % 2 ^ 32 * 2 ^ 8
  let s1 := if c.blk.stat == 0 then s
    else
      match devWriteBy c.tr s c.blk.stat 8 v with
      | .ok _ s => s
      | .fault _ s => s
      | .wait s => s
  let s2 : State := { s1 with
    colls := s1.colls.filter (fun d => !d.same c), slots := (if c.matched then id else fun l => dropPosts c.blk.cg c.blk.seq l []) (s1.slots.filter (fun x => !(x.kind == 1 && x.about c.blk.cg c.blk.seq))) }
  if (s2.groupOf c.handle).isSome then s2 else eventRecord s2 8 153 (if status == 0 then 0 else 4) 1 0 c.handle

/-- R331, R357: a fault that a collective meets after posting, as its record will describe it. -/
def collFault (c : Coll) (e : Exc) (cycle : Nat) : FaultInfo :=
  { code := e.code, stream := 3, async := true, imprecise := true, elvalid := true, element := c.elem, pc := c.pc, addr := e.addr, ipc := c.pc,
    word := c.word, detail := e.detail, opa := c.blockVa, opb := c.cnt, opc := 0, cycle := cycle }

/-- R357: a failing member informs every member that it can reach (POP 12); with the DETAIL of its fault, the unreachable module of LINK_DOWN. -/
def collTell (s : State) (c : Coll) (cause detail : Nat) : State :=
  (c.mods.filter (fun m => m != s.modid && (routeTo s m).isSome)).foldl (fun s m =>
    sendReply s { packet0 m 12 0 with arg := BitVec.ofNat 8 cause, data := bytesOf 8 (c.words.getD 0 0).toNat ++ bytesOf 8 detail }) s

/-- A collective ends in failure at this member (R357): STAT, and the fault for its group; STOPPING and RETIRING suppress it (R95). -/
def collFail (s : State) (c : Coll) (status : Nat) (e : Exc) : State :=
  let s1 := collEnd s c status
  s1.updGroup c.handle (fun g =>
    if g.st == .stopping || g.st == .retiring then { g with faultsupp := true } else { g with asyncs := g.asyncs ++ [collFault c e s.cycle] })

/-- A collective fails at this member by what it has met itself: the other members are informed. -/
def collFailHere (s : State) (c : Coll) (status : Nat) (e : Exc) : State :=
  collTell (collFail s c status e) c (status + if status == 3 then 8 * e.code else 0) e.detail.toNat

/-- A collective fails at this member by another's notice: the others drop what this member has posted to them (R352). -/
def collFailTold (s : State) (c : Coll) (status : Nat) (e : Exc) : State := collTell (collFail s c status e) c 8 0

/-- MISMATCH and TIMEOUT give FMT_INVALID (R357), with the count register as the address (Table 18-1). -/
def collInvalid (c : Coll) : Exc := exc cFMTINV c.cnt.toNat

-- Matching -----------------------------------------------------------------------------------------------------------

/-- R352: the compared fields of a post: OP, DTYPE, REDOP, ALG, ROOT, and COUNT with BUCKET. -/
def postKey (w0 w3 : W64) : Nat × Nat × Nat := (fieldOf w0 63 50, fieldOf w0 39 32, w3.toNat)

/-- Every other member has posted, with words 0 and 3 of its block, and the posts are compared (R352). A collective that transfers nothing
completes. -/
def execCollectiveMatch (cg : BitVec 8) (seq : BitVec 32) (posts : List (BitVec 64 × BitVec 64)) (s : State) : Out :=
  match collOf s cg.toNat seq.toNat with
  | none => .next s
  | some c =>
    if c.matched || posts.length + 1 < c.mods.length then .next s
    else if posts.any (fun p => postKey p.1 p.2 != postKey (c.words.getD 0 0) (c.words.getD 3 0)) then .next (collFailHere s c 1 (collInvalid c))
    else
      let s1 := updColl { s with slots := dropPosts c.blk.cg c.blk.seq s.slots [] } c (fun d => { d with matched := true })
      .next (if c.blk.count == 0 then collEnd s1 { c with matched := true } 0 else s1)

/-- A member has not posted within 2^26 core cycles (R352). -/
def execCollectiveMatchTimeout (cg : BitVec 8) (seq : BitVec 32) (s : State) : Out :=
  match collOf s cg.toNat seq.toNat with
  | none => .next s
  | some c => if c.matched || s.cycle < c.since + 2 ^ 26 then .next s else .next (collFailHere s c 2 (collInvalid c))

-- Buckets ------------------------------------------------------------------------------------------------------------

/-- The ranges of DST that bucket `b` writes at this member, in elements: position and count (Table 19-6). -/
def Coll.dstParts (c : Coll) (b : Nat) : List (Nat × Nat) :=
  let k := c.blk
  let m := c.mods.length
  if !k.usesDst c.rank then []
  else if k.op == 1 then [(b * k.bucket / m, c.len b / m)]
  else if k.op == 2 then (List.range m).map (fun r => (r * k.count + c.lo b, c.len b))
  else [(c.lo b, c.len b)]

/-- R304: the ranges of bucket `b` drained: the send buffer before it is read, the receive buffer before it is written. -/
def bucketDrain (s : State) (c : Coll) (b : Nat) : Option State :=
  let z := dtypeBytes c.blk.dty
  (if c.blk.usesSrc c.rank then c.drain s (c.blk.src + z * c.lo b) (z * c.len b) else some s).bind (fun s =>
    allOf (c.dstParts b) s (fun s p => c.drain s (c.blk.dst + z * p.1) (z * p.2)))

/-- Whether this member's trigger for bucket `b` has fired (R353): noticed at a write of its counter, or found now. -/
def bucketFired (s : State) (c : Coll) (b : Nat) : Acc Bool :=
  if c.blk.trig == 0 || c.fired.contains b then .ok true s
  else (devReadBy c.tr s c.blk.trig 4).bind (fun v s => .ok (reached (BitVec.ofNat 32 v) (BitVec.ofNat 32 (c.blk.thresh + b))) s)

/-- `n` elements of `z` bytes from an address, for the engine. -/
def collRead (s : State) (c : Coll) (va n z : Nat) : Acc (List Nat) :=
  (devReadBy c.tr s va (n * z)).bind (fun v s => .ok ((List.range n).map (fun i => v / 2 ^ (8 * z * i) % 2 ^ (8 * z))) s)

/-- This member's contribution to a bucket as the engine carries it: FP32 for a reduction, the bits for a move; nothing where SRC is not
used. -/
def ownPart (s : State) (c : Coll) (b : Nat) : Acc (List W32) :=
  let z := dtypeBytes c.blk.dty
  if !c.blk.usesSrc c.rank then .ok [] s
  else (collRead s c (c.blk.src + z * c.lo b) (c.len b) z).bind (fun l s =>
    .ok (l.map (fun v => if c.blk.redop == 3 then BitVec.ofNat 32 v else collWiden c.blk.dty v)) s)

/-- A list cut into parts of 128, each with its offset; an empty list is one empty part. The first argument bounds their number. -/
def parts128 : Nat → Nat → List W32 → List (Nat × List W32)
  | 0, _, _ => []
  | k + 1, off, l => (off, l.take 128) :: if l.length ≤ 128 then [] else parts128 k (off + 128) (l.drop 128)

/-- A contribution pushed to every other member (R354, R356), in class COLLHI or COLL (Table 19-8), and kept in this member's own slot. -/
def pushPart (s : State) (c : Coll) (b : Nat) (l : List W32) : State :=
  let k := c.blk
  let ps := parts128 (l.length / 128 + 1) 0 l
  let s1 := keepMsg s { cg := k.cg, seq := k.seq, m := s.modid, kind := 1, bucket := b, off := 0, words := l.map (fun x => x.setWidth 64) }
  (c.mods.filter (fun m => m != s.modid)).foldl (fun s m =>
    ps.foldl (fun s p => sendReply s { packet0 m 10 (if k.bw == 1 then 1 else 2) with
      addr := BitVec.ofNat 45 (k.cg * 2 ^ 32 + 4 * p.1 % 2 ^ 32),
      data := bytesOf 16 (k.seq + b * 2 ^ 32 + p.1 * 2 ^ 64 + p.2.length * 2 ^ 96) ++ p.2.flatMap (fun x => bytesOf 4 x.toNat) }) s) s1

/-- This member joins bucket `b` once its trigger has fired: the ranges are drained, and its contribution is read and pushed (R304, R353). -/
def execCollectiveBucketStart (cg : BitVec 8) (seq b : BitVec 32) (s : State) : Out :=
  match collOf s cg.toNat seq.toNat with
  | none => .next s
  | some c =>
    let k := b.toNat
    if !c.matched || k ≥ c.buckets || c.started.contains k then .next s
    else
      match bucketFired s c k with
      | .fault e s1 => .next (collFailHere s1 c 3 e)
      | .wait s1 => .next s1
      | .ok false s1 => .next s1
      | .ok true s1 =>
        match bucketDrain s1 c k with
        | none => .next s1
        | some s2 =>
          match ownPart s2 c k with
          | .fault e s3 => .next (collFailHere s3 c 3 e)
          | .wait s3 => .next s3
          | .ok l s3 => .next (updColl (pushPart s3 c k l) c (fun d => { d with started := insSorted k d.started }))

/-- The elements that each of the ranges of `dstParts` receives, from the contributions by rank (Table 19-6, R354, R355). -/
def Coll.results (c : Coll) (b : Nat) (xs : Nat → Nat → W32) : List (List Nat) :=
  let k := c.blk
  let m := c.mods.length
  let n := c.len b
  let red (i : Nat) : Nat := collNarrow k.dty (combine (k.algOf m) k.redop m (if k.op == 4 then k.root else 0) n i (fun r => xs r i))
  let raw (r i : Nat) : Nat := (xs r i).toNat % 2 ^ (8 * dtypeBytes k.dty)
  if !k.usesDst c.rank then []
  else
    match k.op with
    | 1 => [(List.range (n / m)).map (fun i => red (c.rank * (n / m) + i))]
    | 2 => (List.range m).map (fun r => (List.range n).map (raw r))
    | 3 => [(List.range n).map (raw k.root)]
    | _ => [(List.range n).map red]

/-- Elements written from an address and the clean copies of their range discarded (R304, R353). -/
def collWrite (s : State) (c : Coll) (va z : Nat) (vs : List Nat) : Acc Unit :=
  (devWriteBy c.tr s va (z * vs.length) (packNat (8 * z) vs)).bind (fun _ s =>
    .ok () ((c.spans va (z * vs.length)).foldl (fun s p => dropClean s p.1 p.2) s))

/-- The key of a bucket's increment of DONECTR. -/
def Coll.key (c : Coll) (b : Nat) : Nat := 4 * ((c.blk.cg * 2 ^ 32 + c.blk.seq) * 2 ^ 32 + b) + 2

/-- R353: bucket `b` of a collective written, and, once that is performed at its homes, counted on DONECTR. -/
def bucketWrite (s : State) (c : Coll) (b : Nat) (xs : List (List W32)) : Acc Unit :=
  let z := dtypeBytes c.blk.dty
  let write : Acc Unit :=
    if c.written.contains b then .ok () s
    else
      let own : Acc (List W32) :=
        match c.part s b c.rank with
        | some l => .ok l s
        | none => ownPart s c b
      own.bind (fun own s =>
        let x (r i : Nat) : W32 := if r == c.rank then own.getD i 0 else (xs.getD r []).getD i 0
        (((c.dstParts b).zip (c.results b x)).foldl (fun (a : Acc Unit) p => a.bind (fun _ s => collWrite s c (c.blk.dst + z * p.1.1) z p.2)) (Acc.ok () s)).bind (fun _ s =>
          .ok () (updColl s c (fun d => { d with written := insSorted b d.written }))))
  write.bind (fun _ s =>
    if c.blk.donectr == 0 then .ok () s
    else if !devCounting s (c.key b) && devUnacked s then .wait s
    else (devCountBy c.tr s c.blk.donectr (c.key b)).bind (fun _ s => .ok () s))

/-- Bucket `b` is done (R353, R355): `xs` holds the other members' contributions by rank, FP32 for a reduction. After the last bucket STAT
is written and the collective ends. -/
def execCollectiveBucketDone (cg : BitVec 8) (seq b : BitVec 32) (xs : List (List (BitVec 32))) (s : State) : Out :=
  match collOf s cg.toNat seq.toNat with
  | none => .next s
  | some c =>
    let k := b.toNat
    if !c.started.contains k || c.ended.contains k then .next s
    else
      match bucketWrite s c k xs with
      | .fault e s1 => .next (collFailHere s1 c 3 e)
      | .wait s1 => .next s1
      | .ok _ s1 =>
        let c1 : Coll := { c with ended := insSorted k c.ended }
        if c1.ended.length == c.buckets then .next (collEnd s1 c1 0) else .next (updColl s1 c (fun d => { d with ended := insSorted k d.ended }))

/-- A failure notice of another member, or a member that becomes unreachable (R357): the collective ends with the status in bits 2:0 of
`cause` (Table of R353), and for a FAULT the code in bits 7:3. -/
def execCollectiveFailure (cg : BitVec 8) (seq : BitVec 32) (cause : BitVec 8) (m : BitVec 6) (s : State) : Out :=
  match collOf s cg.toNat seq.toNat with
  | none => .next s
  | some c =>
    match fieldOf cause 2 0 with
    | 1 => .next (collFailTold s c 1 (collInvalid c))
    | 2 => .next (collFailTold s c 2 (collInvalid c))
    | 3 => .next (collFailTold s c 3 (exc (if fieldOf cause 7 3 == 0 then cACCESS else fieldOf cause 7 3) 0))
    | 4 => .next ((if (routeTo s m.toNat).isNone then collFailHere else collFailTold) s c 4 (linkDown c.blk.src m.toNat))
    | _ => .next s

end Sys2Proof.Machine
end

