-- ==== Sys2Proof/Machine/Bringup.lean ====
section
/-! DEFINITION. Reset and readiness (R363 to R367), power (R370), and faults of cores with the takeover by a spare (R335, R336). -/

namespace Sys2Proof.Machine

-- Reset --------------------------------------------------------------------------------------------------------------

/-- R364: the reason of a reset that ends in safe mode, 0 for none: a failed signature (bit 0 RSA, bit 1 SLH-DSA of `sigs`), then straps
that differ from the trained topology. -/
def resetReason (s : State) (modid : Nat) (cxl : BitVec 8) (fibre : BitVec 4) (sigs : BitVec 2) : Nat :=
  if bitAt sigs 0 then 1
  else if bitAt sigs 1 then 2
  else if modid != s.topo.1 || cxl != s.topo.2.1 || fibre != s.topo.2.2.1 then 3
  else 0

/-- The mode of a fibre port that a strap or FIBMODE value gives; the value 3 is not a mode and reads as OFF. -/
def portMode (v port : Nat) : Nat := let m := v / 2 ^ (2 * port) % 4; if m == 3 then 0 else m

/-- Package reset, or power-on (R363, R364): every piece of state is discarded but the identity record, the straps are sampled, the
signatures are verified, and the functions begin to start or the module enters safe mode. -/
def execPackageReset (modid : BitVec 6) (cxl : BitVec 8) (fibre : BitVec 4) (sigs : BitVec 2) (s : State) : Out :=
  let why := resetReason s modid.toNat cxl fibre sigs
  let r : State := { State.reset with
    modid := modid.toNat, cxlMask := cxl, fibStrap := fibre, topo := s.topo, keys := s.keys, fresh := s.fresh,
    ready := (List.range 161).map (fun f => if 120 ≤ f && f < 128 && !bitAt cxl (f - 120) then 3 else if f == 160 then 1 else 0),
    host := { HostRegs.reset with fibmode := BitVec.ofNat 64 (portMode fibre.toNat 0 + 4 * portMode fibre.toNat 1) },
    strs := (List.range 8).map (fun n =>
      let m := if n < 6 then 0 else portMode fibre.toNat (n - 6)
      { Str.reset with mode := m, notes := if m == 2 then [askComb modid.toNat] else [] }) }
  .next (if why == 0 then { r with phase := 2 } else enterSafe { r with phase := 1 } why)

/-- Whether a function can report READY once it has started (R367): the firmware has been verified (R365), and of a link, it carries
traffic. -/
def canStart (s : State) (k : Nat) : Bool :=
  !s.safe && 2 ≤ s.phase && k ≤ 160 && s.ready.getD k 3 == 0 && !(128 ≤ k && k < 144 && !linkUsable s (k - 128))

/-- What has waited for a function that is READY now goes on (R367): admissions to its string, requests of other modules. -/
def readyNow (s : State) (k : Nat) : State :=
  let s1 := s.remWait.foldl (fun s p => s.postE (.remoteRequest p)) { s with remWait := [] }
  if 144 ≤ k && k < 152 then postAdmit s1 (k - 144) else if k == 154 || k == 155 then postAdmit s1 (k - 148) else s1

/-- A function finishes starting and reports READY (R367); with the last of them the module is running (R364). -/
def execFunctionReady (f : BitVec 8) (s : State) : Out :=
  let k := f.toNat
  if !canStart s k then .next s
  else
    let s1 : State := { s with ready := updAt s.ready k (fun _ => 1) }
    .next (readyNow (flushMsi { s1 with phase := phaseOf s1 }) k)

/-- The bytes of an address range forgotten: the storage comes back unwritten. -/
def dropBytes (s : State) (lo n : Nat) : State :=
  { s with
    mem := s.mem.filter (fun c => !(lo ≤ c.1 && c.1 < lo + n)),
    badBlocks := s.badBlocks.filter (fun b => !(lo ≤ 64 * b && 64 * b < lo + n)),
    spareEcc := s.spareEcc.filter (fun (e : Nat × BitVec 16) => !(lo ≤ 64 * e.1 && 64 * e.1 < lo + n)) }

/-- A string in its starting state: comb PRIMARY, every channel working, identity map, trims and drive levels unset (R204, R219,
R221); modules that it feeds are told (R205). DESIGN CHOICE: its count of failovers starts anew with it (log entry 160). -/
def startString (s : State) (n : Nat) : State :=
  let s1 := s.updStr n (fun t => { t with comb := .primary, failovers := 0, failing := false, chmap := List.range 64, failed := 0, idle := (.primary, 0) })
  tellComb { s1 with cores := s1.cores.map (Core.unsetTrims (fun k => k / 64 == n)) } n

/-- A function in its starting state (R367): a core and an L2 with nothing in them, storage unwritten, a link that trains, a distributor
without queues, a collective engine without collectives, a fibre port in the mode of its strap, a host port with every vector unmasked. -/
def startFunction (s : State) (k : Nat) : State :=
  if k < 96 then s.updCore k (fun _ => .reset)
  else if k < 108 then s.updDie (k - 96) (fun d => { d with l2 := [] })
  else if k < 120 then dropBytes { s with lost := s.lost.filter (fun x => x != k - 108) } ((k - 108) * 0x1000000000) 0x1000000000
  else if k < 128 then dropBytes { s with lost := s.lost.filter (fun x => x != k - 104) } (farBase + (k - 120) * 0x10000000000) 0x10000000000
  else if k < 144 then s.updLink (k - 128) (fun l => { l.quiet .training with failed := 0 })
  else if k < 152 then startString s (k - 144)
  else if k == 152 then { s with queues := [], gangs := [], turns := List.replicate 8 (0, false) }
  else if k == 153 then { s with colls := [], slots := [] }
  else if k < 156 then startString (s.updStr (k - 148) (fun t => { t with mode := portMode s.fibStrap.toNat (k - 154) })) (k - 148)
  else if k < 160 then { s with msiMask := updAt s.msiMask (k - 156) (fun _ => []) }
  else s

/-- Ovpol returns a FENCED function, or a STANDBY string, to its starting state (R367); a STANDBY string that is not fenced once it has no
session. The session on a fenced string ends, as at its talker's leaving. -/
def execFunctionRestore (f : BitVec 8) (s : State) : Out :=
  let k := f.toNat
  let down (s : State) : State := { s with ready := updAt s.ready k (fun _ => 0) }
  if s.safe || k > 160 then .next s
  else if 144 ≤ k && k < 152 then
    let t := s.str (k - 144)
    if s.ready.getD k 0 == 2 then .next (down (startFunction (if t.sess == .free then s else talkerLeft s (k - 144)) k))
    else if t.comb == .standby && t.sess == .free && t.cal.isNone then .next (down (startFunction s k))
    else .next s
  else if s.ready.getD k 0 != 2 then .next s
  else .next (withReroutes s (down (startFunction s k)))

/-- The management controller installs a trained topology from the straps, with the module serial and the neighbours of the links (R363), 64 where a link has none;
a reset takes it into use. -/
def execManagementInstall (serial : BitVec 64) (neigh : List (BitVec 7)) (s : State) : Out :=
  .next { s with topo := (s.modid, s.cxlMask, s.fibStrap, serial, (List.range 16).map (fun i => (neigh.getD i 64).toNat)) }

-- Power --------------------------------------------------------------------------------------------------------------

/-- A function fenced, with its event record (R370); one that is ABSENT or fenced already is left. -/
def fencePort (s : State) (p : Nat) : State :=
  if s.ready.getD (156 + p) 0 ≥ 2 then s
  else eventRecord { s with ready := updAt s.ready (156 + p) (fun _ => 2) } 9 p 4 1 0 0

/-- The power or coolant limit (R370): the core clock falls by 100 MHz down to 1.2 GHz; at 1.2 GHz the host ports and the links are
fenced. In safe mode no link leaves DOWN and nothing else runs (R363). -/
def execPowerLimitThrottle (s : State) : Out :=
  if s.clockMHz > 1200 then .next { s with clockMHz := s.clockMHz - 100 }
  else if s.safe then .next s
  else
    let s1 := (List.range 16).foldl (fun s n => if (s.link n).st == .fenced then s else linkLost s n .fenced) s
    .next ((List.range 4).foldl fencePort s1)

-- Core faults --------------------------------------------------------------------------------------------------------

/-- The groups that a core holds and runs. -/
def coreGroups (s : State) (c : Nat) : List W64 :=
  (s.groups.filter (fun g => g.core == c && g.slot < 4 && (g.st == .running || g.st == .handler))).map (fun g => g.handle)

/-- R335 step 1: a group stops as at a trap, without a frame: an undecided `vld` is decided, and where it fails it is replayed, and its trap taken,
once the group runs again (R336). What Table 4-3 does not hold is dropped (R74). -/
def stopForMove (s : State) (h : W64) : State :=
  onGroup s h (fun s =>
    (if s.grp.hmode || s.grp.pairHold then s.updGrp (fun g => { g with rwait := [], swait := none, bwait := none, cbwait := none })
      else stopStreams (retireDue (settleSeqs (leaveTraps s)))).updGrp Group.cold)

/-- Whether everything begun in a group that a failed core holds can be left. -/
def groupQuiet (s : State) (h : W64) : Bool := quiet (s.focus h)

/-- R335 step 5: whether the state of a group cannot be read in full. -/
def moveUnreadable (s : State) (h : W64) : Bool := saveUnreadable ((s.focus h).updGrp (fun g => { g with hint := none }))

/-- R335 step 3: a group that the spare runs now resumes where it stopped; the deadline of a pre-emption request counts from here, for every
group that the request reaches (R336). One whose streams had all ended at the stop retires (R95). -/
def resumeMoved (s0 : State) (h : W64) : State :=
  let with' := if (s0.groupOf h).any (fun g => g.preq) then preemptSet 400 s0 [h] else []
  let s := s0.updGroups (fun g => g.preq && with'.contains g.handle) (fun g => { g with predl := s0.cycle + deadlineOf s0 g.queue })
  let back (t : StreamSt) : StreamSt := { t with run := if t.kept == .ended then .ended else .ready }
  onGroup (s.updGroup h (fun g =>
    if g.hmode then { g with ss := { g.ss with run := .ready } }
    else if g.pairHold then g
    else { g with ss := back g.ss, vs := back g.vs, ms := back g.ms, cs := back g.cs })) h retireIfEnded

/-- R335 step 5: a group whose state cannot be read is aborted. -/
def abortMoved (s : State) (h : W64) : State := onGroup s h abortUnreadable

/-- A core faults (R335): its groups stop, once what they have begun can be left, and its dirty L1 bytes go to L2; an idle spare begins to
take over, else the core is fenced and its groups are saved in full. `unreadable` names groups whose state the device cannot read, beside
those that hold uncorrectable data. -/
def execCoreFault (core : BitVec 7) (unreadable : List (BitVec 64)) (s : State) : Out :=
  let c := core.toNat
  let d := s.die (dieOf c)
  if c ≥ 96 || s.ready.getD c 0 != 1 || d.moving == some c then .next s
  else
    let hs := coreGroups s c
    let bad := unreadable ++ (s.core c).failing.getD []
    let later : Out := .next (s.updCore c (fun x => { x with failing := some bad }))
    if !hs.all (groupQuiet s) then later
    else
      match l1WbAll (hs.foldl stopForMove s) c with
      | none => later
      | some s0 =>
        let lost := hs.filter (fun h => bad.contains h || moveUnreadable s0 h)
        let s1 := lost.foldl abortMoved (s0.updCore c (fun x => { x with failing := none }))
        if !d.spareUsed && d.moving.isNone then
          .next ((eventRecord (s1.updDie (dieOf c) (fun d => { d with moving := some c })) 0 c 3 1 0 0).postE
            (.spareTakeoverDone (BitVec.ofNat 4 (dieOf c))))
        else
          let s2 := eventRecord { s1 with ready := updAt s1.ready c (fun _ => 2) } 0 c 4 1 0 0
          let keep := hs.filter (fun h => !lost.contains h)
          let s3 := keep.foldl (fun s h => (requestPreempt s h none).updGroup h (fun g => { g with hint := none })) s2
          .next { s3 with agenda := keep.map (fun h => .event (.groupSave h)) ++ s3.agenda }

/-- The takeover ends (R10, R335): the spare answers to the core's number with nothing in its L1 and TLB, performs the acquire of a
resumption (R288), and runs the groups. -/
def execSpareTakeoverDone (die : BitVec 4) (s : State) : Out :=
  let d := die.toNat
  match (s.die d).moving with
  | none => .next s
  | some c =>
    let s1 := (s.updDie d (fun x => { x with moving := none, spareUsed := true })).updCore c (fun x => { x with
      onSpare := true, l1 := x.l1.filter (fun l => l.dirty != 0), tlb := [], rxTimes := [], errTimes := [] })
    let s2 := match acquire s1 0 c 3 with
      | .ok _ s => s
      | .fault _ s => s
      | .wait s => s
    .next ((coreGroups s2 c).foldl resumeMoved s2)

end Sys2Proof.Machine
end

