-- ==== Sys2Proof/Machine/Scalar.lean ====
section
/-! DEFINITION. Scalar register and immediate operations (R127 to R133), branches and jumps (R134, R135). -/

namespace Sys2Proof.Machine

/-- 1 where the condition holds, else 0. -/
def flag (b : Bool) : W64 := if b then 1 else 0

/-- Shift amount of a register form: bits 5:0 (R128). -/
def shAmt (b : W64) : Nat := fieldOf b 5 0

/-- The high half of a signed 64 × 64 product (Table 8-2). -/
def mulhS (a b : W64) : W64 := BitVec.ofInt 64 (a.toInt * b.toInt / 2 ^ 64)
/-- The high half of an unsigned 64 × 64 product (Table 8-2). -/
def mulhU (a b : W64) : W64 := BitVec.ofNat 64 (a.toNat * b.toNat / 2 ^ 64)
/-- `quo.i`: truncated towards zero, with the fixed results of Table 8-2. -/
def quoS (a b : W64) : W64 := if b == 0 then BitVec.allOnes 64 else BitVec.ofInt 64 (a.toInt.tdiv b.toInt)
/-- `quo.n` with the fixed result of Table 8-2. -/
def quoU (a b : W64) : W64 := if b == 0 then BitVec.allOnes 64 else BitVec.ofNat 64 (a.toNat / b.toNat)
/-- `rmd.i`: the remainder takes the sign of the dividend. -/
def rmdS (a b : W64) : W64 := if b == 0 then a else BitVec.ofInt 64 (a.toInt.tmod b.toInt)
/-- `rmd.n` with the fixed result of Table 8-2. -/
def rmdU (a b : W64) : W64 := if b == 0 then a else BitVec.ofNat 64 (a.toNat % b.toNat)
/-- Number of leading zero bits; 64 for 0 (Table 8-3). -/
def clz64 (a : W64) : Nat := lowest 64 (fun i => bitAt a (63 - i))
/-- Number of trailing zero bits; 64 for 0. -/
def ctz64 (a : W64) : Nat := lowest 64 (fun i => bitAt a i)
/-- Number of set bits. -/
def popc64 (a : W64) : Nat := ((List.range 64).filter (fun i => bitAt a i)).length
/-- The eight bytes in reverse order. -/
def bswap64 (a : W64) : W64 := BitVec.ofNat 64 (leNat (toBytes a 8).reverse)

/-- `add` (R128). -/
def execAdd (d a b : BitVec 5) (s : State) : Out := sAlu s d (s.x a + s.x b)
/-- `sub` (R128). -/
def execSub (d a b : BitVec 5) (s : State) : Out := sAlu s d (s.x a - s.x b)
/-- `and` (R128). -/
def execAnd (d a b : BitVec 5) (s : State) : Out := sAlu s d (s.x a &&& s.x b)
/-- `or` (R128). -/
def execOr (d a b : BitVec 5) (s : State) : Out := sAlu s d (s.x a ||| s.x b)
/-- `xor` (R128). -/
def execXor (d a b : BitVec 5) (s : State) : Out := sAlu s d (s.x a ^^^ s.x b)
/-- `andn` (R128). -/
def execAndn (d a b : BitVec 5) (s : State) : Out := sAlu s d (s.x a &&& ~~~(s.x b))
/-- `shl` (R128). -/
def execShl (d a b : BitVec 5) (s : State) : Out := sAlu s d (s.x a <<< shAmt (s.x b))
/-- `shr.n` (R128). -/
def execShrN (d a b : BitVec 5) (s : State) : Out := sAlu s d (s.x a >>> shAmt (s.x b))
/-- `shr.i` (R128). -/
def execShrI (d a b : BitVec 5) (s : State) : Out := sAlu s d ((s.x a).sshiftRight (shAmt (s.x b)))
/-- `cmplt.i` (R128). -/
def execCmpltI (d a b : BitVec 5) (s : State) : Out := sAlu s d (flag ((s.x a).slt (s.x b)))
/-- `cmplt.n` (R128). -/
def execCmpltN (d a b : BitVec 5) (s : State) : Out := sAlu s d (flag ((s.x a).ult (s.x b)))
/-- `min.i` (R128). -/
def execMinI (d a b : BitVec 5) (s : State) : Out := sAlu s d (if (s.x a).slt (s.x b) then s.x a else s.x b)
/-- `max.i` (R128). -/
def execMaxI (d a b : BitVec 5) (s : State) : Out := sAlu s d (if (s.x a).slt (s.x b) then s.x b else s.x a)
/-- `min.n` (R128). -/
def execMinN (d a b : BitVec 5) (s : State) : Out := sAlu s d (if (s.x a).ult (s.x b) then s.x a else s.x b)
/-- `max.n` (R128). -/
def execMaxN (d a b : BitVec 5) (s : State) : Out := sAlu s d (if (s.x a).ult (s.x b) then s.x b else s.x a)

/-- `mul` (R129). -/
def execMul (d a b : BitVec 5) (s : State) : Out := sAlu s d (s.x a * s.x b)
/-- `mulhi.i` (R129). -/
def execMulhiI (d a b : BitVec 5) (s : State) : Out := sAlu s d (mulhS (s.x a) (s.x b))
/-- `mulhi.n` (R129). -/
def execMulhiN (d a b : BitVec 5) (s : State) : Out := sAlu s d (mulhU (s.x a) (s.x b))
/-- `quo.i` (R129). -/
def execQuoI (d a b : BitVec 5) (s : State) : Out := sAlu s d (quoS (s.x a) (s.x b))
/-- `quo.n` (R129). -/
def execQuoN (d a b : BitVec 5) (s : State) : Out := sAlu s d (quoU (s.x a) (s.x b))
/-- `rmd.i` (R129). -/
def execRmdI (d a b : BitVec 5) (s : State) : Out := sAlu s d (rmdS (s.x a) (s.x b))
/-- `rmd.n` (R129). -/
def execRmdN (d a b : BitVec 5) (s : State) : Out := sAlu s d (rmdU (s.x a) (s.x b))

/-- `sel gD, gC, gA, gB` (R130). -/
def execSel (d a b c : BitVec 5) (s : State) : Out := sAlu s d (if s.x c == 0 then s.x b else s.x a)
/-- `clz` (R130). -/
def execClz (d a : BitVec 5) (s : State) : Out := sAlu s d (BitVec.ofNat 64 (clz64 (s.x a)))
/-- `ctz` (R130). -/
def execCtz (d a : BitVec 5) (s : State) : Out := sAlu s d (BitVec.ofNat 64 (ctz64 (s.x a)))
/-- `popc` (R130). -/
def execPopc (d a : BitVec 5) (s : State) : Out := sAlu s d (BitVec.ofNat 64 (popc64 (s.x a)))
/-- `bswap` (R130). -/
def execBswap (d a : BitVec 5) (s : State) : Out := sAlu s d (bswap64 (s.x a))

/-- `addi` (R131). -/
def execAddi (d a : BitVec 5) (i : BitVec 15) (s : State) : Out := sAlu s d (s.x a + sext64 i)
/-- `andi` (R131). -/
def execAndi (d a : BitVec 5) (i : BitVec 15) (s : State) : Out := sAlu s d (s.x a &&& sext64 i)
/-- `ori` (R131). -/
def execOri (d a : BitVec 5) (i : BitVec 15) (s : State) : Out := sAlu s d (s.x a ||| sext64 i)
/-- `xori` (R131). -/
def execXori (d a : BitVec 5) (i : BitVec 15) (s : State) : Out := sAlu s d (s.x a ^^^ sext64 i)
/-- `cmplti.i` (R131). -/
def execCmpltiI (d a : BitVec 5) (i : BitVec 15) (s : State) : Out := sAlu s d (flag ((s.x a).slt (sext64 i)))
/-- `cmplti.n` (R131): both read unsigned. -/
def execCmpltiN (d a : BitVec 5) (i : BitVec 15) (s : State) : Out := sAlu s d (flag ((s.x a).ult (sext64 i)))
/-- `shli` (R132). -/
def execShli (d a : BitVec 5) (n : BitVec 6) (s : State) : Out := sAlu s d (s.x a <<< n.toNat)
/-- `shri.n` (R132). -/
def execShriN (d a : BitVec 5) (n : BitVec 6) (s : State) : Out := sAlu s d (s.x a >>> n.toNat)
/-- `shri.i` (R132). -/
def execShriI (d a : BitVec 5) (n : BitVec 6) (s : State) : Out := sAlu s d ((s.x a).sshiftRight n.toNat)
/-- `imm.lo` (R133). -/
def execImmLo (d : BitVec 5) (i : BitVec 20) (s : State) : Out := sAlu s d (sext64 i)
/-- `imm.cat` (R133). -/
def execImmCat (d : BitVec 5) (i : BitVec 20) (s : State) : Out := sAlu s d ((s.x d <<< 20) + i.setWidth 64)
/-- `pcadd` (R133). -/
def execPcadd (d : BitVec 5) (i : BitVec 20) (s : State) : Out := sAlu s d (s.pc 0 + 4 * sext64 i)
/-- The scalar `nop` (R45). -/
def execNop (s : State) : Out := if noGroup s then .fault .noGroup else .next (s.advance 0)

/-- R134: a compare and branch. -/
def sBranch (s : State) (taken : Bool) (o : BitVec 15) : Out :=
  if noGroup s then .fault .noGroup
  else .next (if taken then s.branch 0 (s.pc 0 + 4 * sext64 o) else s.advance 0)

/-- `beq` (R134). -/
def execBeq (a b : BitVec 5) (o : BitVec 15) (s : State) : Out := sBranch s (s.x a == s.x b) o
/-- `bne` (R134). -/
def execBne (a b : BitVec 5) (o : BitVec 15) (s : State) : Out := sBranch s (s.x a != s.x b) o
/-- `blt.i` (R134). -/
def execBltI (a b : BitVec 5) (o : BitVec 15) (s : State) : Out := sBranch s ((s.x a).slt (s.x b)) o
/-- `bge.i` (R134). -/
def execBgeI (a b : BitVec 5) (o : BitVec 15) (s : State) : Out := sBranch s (!(s.x a).slt (s.x b)) o
/-- `blt.n` (R134). -/
def execBltN (a b : BitVec 5) (o : BitVec 15) (s : State) : Out := sBranch s ((s.x a).ult (s.x b)) o
/-- `bge.n` (R134). -/
def execBgeN (a b : BitVec 5) (o : BitVec 15) (s : State) : Out := sBranch s (!(s.x a).ult (s.x b)) o

/-- `jmp` (R135): the link, then the target. -/
def execJmp (d : BitVec 5) (o : BitVec 20) (s : State) : Out :=
  if noGroup s then .fault .noGroup
  else .next ((s.setX d (s.pc 0 + 4)).branch 0 (s.pc 0 + 4 * sext64 o))

/-- `jmpr` (R135): ALIGN where the target is not a multiple of 4, with no link and no jump; gA is read before the link is
written. -/
def execJmpr (d a : BitVec 5) (i : BitVec 15) (s : State) : Out :=
  let t := s.x a + 4 * sext64 i
  sDo s (fun s =>
    if fieldOf t 1 0 != 0 then .fault (exc cALIGN t.toNat) s else .ok () ((s.setX d (s.pc 0 + 4)).branch 0 t))

end Sys2Proof.Machine
end

