-- ==== Sys2Proof/Machine/Loop.lean ====
section
/-! DEFINITION. The nested-loop sequencer (R86 to R92): `loop.*` of the scalar stream and of the vector, matrix and copy
streams, and the step at the end of an iteration. What the prefixes govern is looked up when the stream reaches a word
(log entry 13). Then `nop`, `end` and `rend` of those streams (R45, R109). -/

namespace Sys2Proof.Machine

/-- The open level `lvl` of a stream. -/
def openAt (t : StreamSt) (lvl : Nat) : Option OpenLevel := t.levels.find? (fun l => l.lvl == lvl)

/-- A stream cycle passes for an issue of the vector stream (R156). -/
def issued (s : State) (st : Nat) : State := if st == 1 then vTick s else s

/-- R86: `loop.beg` by stream `st`. -/
def loopBeg (s : State) (st : Nat) (lvl len : Nat) : Out :=
  if noGroup s then .fault .noGroup
  else
    let e := s.grp.loopEnt lvl
    let t := s.grp.stream st
    let pc := t.pc.toNat
    let stop := pc + 4 + 4 * len
    let inner := match t.levels with
      | [] => true
      | l :: _ => l.lvl < lvl && stop ≤ l.stop
    if (st == 0 && s.grp.hmode) || lvl ≥ s.grp.loops.length || e.kind != 0 || !inner then .next (illegal s st)
    else if e.count == 0 then .next (issued (s.setPc st (BitVec.ofNat 64 stop)) st)
    else
      .next (issued ((s.updStream st (fun t => { t with
        levels := { lvl := lvl, start := pc + 4, stop := stop, idx := 0 } :: t.levels })).advance st) st)

/-- R87: `loop.first` and `loop.last` by stream `st`: their checks; what they govern is skipped or issued at the word. -/
def loopPrefix (s : State) (st : Nat) (lvl cnt : Nat) : Out :=
  if noGroup s then .fault .noGroup
  else
    let t := s.grp.stream st
    let within := match t.levels with
      | [] => false
      | l :: _ => t.pc.toNat + 4 + 4 * cnt ≤ l.stop
    if (st == 0 && s.grp.hmode) || (openAt t lvl).isNone || !within then .next (illegal s st)
    else .next (issued (s.advance st) st)

/-- The issuing stream as its number: of a word shared by V, M and C, the stream that issues it. -/
def strmNo (s : State) : Nat :=
  match s.strm with
  | .s => 0
  | .v => 1
  | .m => 2
  | .c => 3

/-- `loop.beg` (R86). -/
def execLoopBeg (l : BitVec 3) (n : BitVec 8) (s : State) : Out := loopBeg s 0 l.toNat (n.toNat + 1)
/-- `loop.first` (R87). -/
def execLoopFirst (l : BitVec 3) (c : BitVec 4) (s : State) : Out := loopPrefix s 0 l.toNat (c.toNat + 1)
/-- `loop.last` (R87). -/
def execLoopLast (l : BitVec 3) (c : BitVec 4) (s : State) : Out := loopPrefix s 0 l.toNat (c.toNat + 1)
/-- `loop.idx` (R88, R89): levels 6 and 7 raise ILLEGAL. -/
def execLoopIdx (d : BitVec 5) (l : BitVec 3) (s : State) : Out :=
  sDoIf s (l.toNat ≤ 5) (fun s =>
    done s d (match openAt s.grp.ss l.toNat with
      | some x => BitVec.ofNat 64 x.idx
      | none => BitVec.allOnes 64))
/-- `loop.beg` of V, M and C (R86). -/
def execLoopBegXn (l : BitVec 3) (n : BitVec 8) (s : State) : Out := loopBeg s (strmNo s) l.toNat (n.toNat + 1)
/-- `loop.first` of V, M and C (R87). -/
def execLoopFirstXn (l : BitVec 3) (c : BitVec 4) (s : State) : Out := loopPrefix s (strmNo s) l.toNat (c.toNat + 1)
/-- `loop.last` of V, M and C (R87). -/
def execLoopLastXn (l : BitVec 3) (c : BitVec 4) (s : State) : Out := loopPrefix s (strmNo s) l.toNat (c.toNat + 1)

/-- The end of an iteration (R86, R91): the issuing stream's pc stands at the `end` of its innermost open level. A vector
update waits for a free result in flight (R159) and for an undecided `vld` of its register (R185). -/
def execLoopIterationEnd (s : State) : Out :=
  if noGroup s then .fault .noGroup
  else
    let st := strmNo s
    if !atLoopEnd s.grp st then .next s
    else if st == 1 then
      let s1 := retireDue s
      if updateHeld s1.grp || ((seqTarget s1.grp).isSome && s1.grp.flight.length ≥ 8) then .next (vWait s1) else .next (loopStep s1 st)
    else .next (loopStep s st)

-- `nop`, `end` and `rend` of V, M and C -----------------------------------------------------------------------------

/-- `nop` of V, M and C (R45, R103). -/
def execNopXn (p q : BitVec 3) (s : State) : Out :=
  if strmNo s == 1 then vDo s p q [] false (fun s => .ok () (s.advance 1))
  else tDo s (strmNo s) p q (fun s => .ok () s)

/-- R109: the end of a vector, matrix or copy stream: its pops, a reservation of its pushes, then DRAINING. -/
def endXn (s : State) (p q : BitVec 3) (res : BitVec 16) : Out :=
  let st := strmNo s
  if noGroup s then .fault .noGroup
  else if res == 0xFFFF then .next (illegal s st)
  else if st == 2 && s.grp.mcmd.isSome then .next (s.block st)
  else
    let s0 := if st == 1 then retireDue s else s
    match tokCheck s0 st p q with
    | .ok _ s1 => .next (issued (startDrain (tokIssue s1 st p q) st res q) st)
    | .fault e s1 => .next (raise s1 st e none)
    | .wait s1 => .next (if st == 1 then vWait s1 else s1.block st)

/-- `end` of V, M and C (R109). -/
def execEndXn (p q : BitVec 3) (s : State) : Out := endXn s p q 0
/-- `rend` of V, M and C (R109). -/
def execRendXn (p q : BitVec 3) (i : BitVec 16) (s : State) : Out := endXn s p q i

end Sys2Proof.Machine
end

