-- ==== Sys2Proof/Machine/VMask.lean ====
section
/-! DEFINITION. Vector compares, masks, the mask stack and uniform branches (R172 to R175), and conversions (R169). -/

namespace Sys2Proof.Machine

-- Compares -----------------------------------------------------------------------------------------------------------

/-- R172: whether a comparison is in the table. -/
def cmpLegal (t c : Nat) : Bool := !(t == 3 && c ≥ 2)

/-- R172: the comparison of a lane: TYPE 0 `f32`, 1 `i32`, 2 `n32`, 3 `f32` order; condition 0 eq, 1 ne, 2 lt, 3 le. -/
def cmpLane (t c : Nat) (x y : W32) : Bool :=
  let nan := isNan x || isNan y
  match t, c with
  | 0, 0 => !nan && fpKey x == fpKey y
  | 0, 1 => nan || fpKey x != fpKey y
  | 0, 2 => !nan && fpKey x < fpKey y
  | 0, _ => !nan && fpKey x ≤ fpKey y
  | 1, 0 => x == y
  | 1, 1 => x != y
  | 1, 2 => x.slt y
  | 1, _ => x.sle y
  | 2, 0 => x == y
  | 2, 1 => x != y
  | 2, 2 => x.ult y
  | 2, _ => x.ule y
  | _, 0 => nan
  | _, _ => !nan

/-- `vcmp` (R172): inactive lanes write 0; `k0` as a destination raises ILLEGAL (R48). -/
def execVcmp (p q x : BitVec 3) (a b : BitVec 5) (k : BitVec 3) (t c : BitVec 2) (s : State) : Out :=
  vExecIf s (x != 0 && cmpLegal t.toNat c.toNat) p q [a.toNat, b.toNat] 1 (fun g =>
    let y := g.v a.toNat
    let z := g.v b.toNat
    kres x (BitVec.ofNat 128 (maskOf 128 (fun i => bitAt (g.k k.toNat) i && cmpLane t.toNat c.toNat (y.getD i 0) (z.getD i 0)))))

-- Masks --------------------------------------------------------------------------------------------------------------

/-- R173: a mask instruction; `k0` as a destination raises ILLEGAL (R48). -/
def kOp (s : State) (p q x : BitVec 3) (f : Group → BitVec 128) : Out :=
  vExecIf s (x != 0) p q [] 1 (fun g => kres x (f g))

/-- `kand` (R173). -/
def execKand (p q x y k : BitVec 3) (s : State) : Out := kOp s p q x (fun g => g.k k.toNat &&& g.k y.toNat)
/-- `kor` (R173). -/
def execKor (p q x y k : BitVec 3) (s : State) : Out := kOp s p q x (fun g => g.k k.toNat ||| g.k y.toNat)
/-- `kxor` (R173). -/
def execKxor (p q x y k : BitVec 3) (s : State) : Out := kOp s p q x (fun g => g.k k.toNat ^^^ g.k y.toNat)
/-- `kandn` (R173). -/
def execKandn (p q x y k : BitVec 3) (s : State) : Out := kOp s p q x (fun g => g.k k.toNat &&& ~~~g.k y.toNat)
/-- `kmov` (R173). -/
def execKmov (p q x k : BitVec 3) (s : State) : Out := kOp s p q x (fun g => g.k k.toNat)
/-- `knot` (R173). -/
def execKnot (p q x k : BitVec 3) (s : State) : Out := kOp s p q x (fun g => ~~~g.k k.toNat)

/-- R174: an instruction on the mask stack: at the forbidden depth MASK_STACK with the depth, else a change of the stack at
issue and a result. -/
def kStack (s : State) (p q x : BitVec 3) (bad : Nat) (res : Group → BitVec 128) (stk : Group → List (BitVec 128)) : Out :=
  if noGroup s then .fault .noGroup
  else if x == 0 then .next (illegal s 1)
  else
    match (vGate (retireDue s) p q [] false true).bind (fun _ s =>
      Acc.guard (s.grp.mstack.length == bad) (exc cMASKSTK s.grp.mstack.length) s) with
    | .ok _ s1 => vExec (s1.updGrp (fun g => { g with mstack := stk g })) p q [] 1 (fun _ => kres x (res s1.grp))
    | .fault e s1 => .next (raise s1 1 e none)
    | .wait s1 => .next (vWait s1)

/-- `kpush` (R174). -/
def execKpush (p q x k : BitVec 3) (s : State) : Out :=
  kStack s p q x 16 (fun g => g.k x.toNat &&& g.k k.toNat) (fun g => g.k x.toNat :: g.mstack)
/-- `kpop` (R174). -/
def execKpop (p q x : BitVec 3) (s : State) : Out := kStack s p q x 0 (fun g => g.mstack.headD 0) (fun g => g.mstack.tail)
/-- `kelse` (R174). -/
def execKelse (p q x : BitVec 3) (s : State) : Out :=
  kStack s p q x 0 (fun g => g.mstack.headD 0 &&& ~~~g.k x.toNat) (fun g => g.mstack)

-- Uniform branches ---------------------------------------------------------------------------------------------------

/-- R175: a branch of the vector stream. -/
def vBranch (s : State) (p q : BitVec 3) (o : BitVec 15) (taken : Group → Bool) : Out :=
  vDo s p q [] false (fun s =>
    .ok () (if taken s.grp then s.branch 1 (s.pc 1 + 4 * sext64 o) else s.advance 1))

/-- `vbr.any` (R175). -/
def execVbrAny (p q k : BitVec 3) (o : BitVec 15) (s : State) : Out := vBranch s p q o (fun g => g.k k.toNat != 0)
/-- `vbr.all` (R175). -/
def execVbrAll (p q k : BitVec 3) (o : BitVec 15) (s : State) : Out := vBranch s p q o (fun g => g.k k.toNat == BitVec.allOnes 128)
/-- `vbr.none` (R175). -/
def execVbrNone (p q k : BitVec 3) (o : BitVec 15) (s : State) : Out := vBranch s p q o (fun g => g.k k.toNat == 0)
/-- `vj` (R175). -/
def execVj (p q : BitVec 3) (o : BitVec 15) (s : State) : Out := vBranch s p q o (fun _ => true)

-- Conversions --------------------------------------------------------------------------------------------------------

/-- Table 9-4: whether an FN7 value is in the table. -/
def cvtLegal (f : Nat) : Bool := f ≤ 12 || (16 ≤ f && f ≤ 31)

/-- An FP32 value truncated towards zero; none for NaN, infinities as a magnitude beyond every format. -/
def fpTruncInt (w : W32) : Option Int :=
  match f32 w with
  | .nan => none
  | .inf neg => some (if neg then -(2 ^ 200 : Int) else 2 ^ 200)
  | .fin neg m e =>
    let v : Nat := if e ≥ 0 then m * 2 ^ e.toNat else m / 2 ^ (-e).toNat
    some (if neg then -(v : Int) else v)

/-- R169: a saturated integer, 0 for NaN. -/
def cvtInt (v : Option Int) (lo hi : Int) : W32 :=
  match v with
  | none => 0
  | some x => BitVec.ofInt 32 (saturate x lo hi)

/-- Table 9-4: PART of the lane that a conversion writes (R65): whole, a half, or a byte. -/
def cvtPart (f : Nat) : Nat :=
  match f with
  | 5 => 1
  | 6 => 2
  | 7 => 1
  | 8 => 2
  | _ => if 16 ≤ f && f ≤ 23 then 4 + f % 4 else 0

/-- Table 9-4: the converted value of a lane, in the bits that the conversion writes. -/
def cvtLane (f : Nat) (x : W32) : W32 :=
  let narrow (m : Fmt) : Nat := fpEncode m (f32 x)
  match f with
  | 0 => fp32 x.toInt 0
  | 1 => fp32 x.toNat 0
  | 2 => cvtInt (fpToInt x) (-(2 ^ 31)) (2 ^ 31 - 1)
  | 3 => cvtInt (fpTruncInt x) (-(2 ^ 31)) (2 ^ 31 - 1)
  | 4 => cvtInt (fpToInt x) 0 (2 ^ 32 - 1)
  | 5 => BitVec.ofNat 32 (narrow fmtBf16)
  | 6 => BitVec.ofNat 32 (narrow fmtBf16 * 65536)
  | 7 => BitVec.ofNat 32 (narrow fmtH16)
  | 8 => BitVec.ofNat 32 (narrow fmtH16 * 65536)
  | 9 => x <<< 16
  | 10 => (x >>> 16) <<< 16
  | 11 => toF32 (fpDecode fmtH16 (x.toNat % 65536))
  | 12 => toF32 (fpDecode fmtH16 (x.toNat / 65536))
  | _ =>
    let b := f % 4
    if f ≤ 19 then BitVec.ofNat 32 (narrow fmtE4m3 * 2 ^ (8 * b))
    else if f ≤ 23 then BitVec.ofNat 32 (narrow fmtE5m2 * 2 ^ (8 * b))
    else toF32 (fpDecode (if f ≤ 27 then fmtE4m3 else fmtE5m2) (x.toNat / 2 ^ (8 * b) % 256))

/-- `vcvt` (R169). -/
def execVcvt (p q : BitVec 3) (d a : BitVec 5) (k : BitVec 3) (f : BitVec 7) (s : State) : Out :=
  vExecIf s (cvtLegal f.toNat) p q [d.toNat, a.toNat] 4 (fun g =>
    { vres d (g.k k.toNat) ((g.v a.toNat).map (cvtLane f.toNat)) with part := cvtPart f.toNat })

end Sys2Proof.Machine
end

