-- ==== Sys2Proof/Machine/VQuant.lean ====
section
/-! DEFINITION. `vquant` (R178 to R180): a row of FP32 elements in scratch quantised into blocks (R24, R25). -/

namespace Sys2Proof.Machine

/-- The descriptor of `vquant`, lanes 0 to 4 (R178). -/
structure QDesc where
  src : Nat
  count : Nat
  data : Nat
  bmap : Nat
  hdr : Nat
deriving DecidableEq, Repr

/-- The descriptor in a vector register. -/
def qDesc (v : List W32) : QDesc :=
  { src := (v.getD 0 0).toNat, count := (v.getD 1 0).toNat, data := (v.getD 2 0).toNat, bmap := (v.getD 3 0).toNat,
    hdr := (v.getD 4 0).toNat }

/-- The regions of a row: offset and size (R178). -/
def QDesc.regions (d : QDesc) : List (Nat × Nat) :=
  [(d.src, 4 * d.count), (d.data, d.count / 2), (d.bmap, (d.count + 127) / 128), (d.hdr, d.count / 8)]

/-- R179: the offending offsets of check 3: past the scratch, or where two regions overlap. -/
def qOffending (size : Nat) (rs : List (Nat × Nat)) : List Nat :=
  let past := (rs.filter (fun r => r.1 + r.2 > size)).map (fun r => max r.1 size)
  let meets := (List.range 4).flatMap (fun i => (List.range 4).filterMap (fun j =>
    let a := rs.getD i (0, 0)
    let b := rs.getD j (0, 0)
    if i < j && a.1 < b.1 + b.2 && b.1 < a.1 + a.2 then some (max a.1 b.1) else none))
  past ++ meets

/-- R179: the checks of `vquant` in order; it waits for a bank that converts. DESIGN CHOICE: of several misaligned offsets the first of SRC, DATA,
BMAP, HDR is named (log entry 158). -/
def qCheck (s : State) (d : QDesc) : Acc Unit :=
  if d.count % 16 != 0 || d.count < 16 || d.count > 1048576 then .fault (exc cFMTINV 0) s
  else
    match [d.src, d.data, d.bmap, d.hdr].find? (fun o => o % 16 != 0) with
    | some o => .fault (exc cALIGN o) s
    | none =>
      match qOffending s.grp.scratchSize d.regions with
      | o :: os => .fault (exc cACCESS (os.foldl min o)) s
      | [] => d.regions.foldl (fun (acc : Acc Unit) r => acc.bind (fun _ s => scrCheck s r.1 r.2)) (.ok () s)

/-- Bit `i` of a bitmap in scratch. -/
def bmapBit (g : Group) (off i : Nat) : Bool := (g.scr (off + i / 8) 1).testBit (i % 8)

/-- Bit `i` of a bitmap in scratch written, the others of its byte kept. -/
def setBmapBit (s : State) (off i : Nat) (v : Bool) : State :=
  let old := s.grp.scr (off + i / 8) 1
  let m := 2 ^ (i % 8)
  s.setScr (off + i / 8) 1 (if v then old ||| m else old - (old &&& m))

/-- The set bits among the first `n` of a bitmap. -/
def bmapCount (g : Group) (off n : Nat) : Nat := ((List.range n).filter (bmapBit g off)).length

/-- Element `j` of the row, +0 where it is inactive (R25, R178). -/
def qElem (g : Group) (d : QDesc) (mask : BitVec 128) (j : Nat) : W32 :=
  if bitAt mask (j % 128) then BitVec.ofNat 32 (g.scr (d.src + 4 * j) 4) else 0

/-- A block from group `b` for `len` groups with number `num` written: data, bitmap bits, header (R24, R25, R180). -/
def qClose (s : State) (d : QDesc) (c : VCmd) : State :=
  let n := 16 * c.blen
  let xs := (List.range n).map (fun i => qElem s.grp d c.mask (16 * c.bstart + i))
  let r := quantBlock c.s4 (c.bnum % 8) xs
  let s1 := s.setScr (d.data + 8 * c.bstart) (n / 2) (packNat 4 r.2)
  let s2 := (List.range c.blen).foldl (fun s i => setBmapBit s d.bmap (c.bstart + i) (i == 0)) s1
  s2.setScr (d.hdr + 2 * c.bnum) 2 r.1

/-- Group exponent of group `k` (R24). -/
def qGroupExp (g : Group) (d : QDesc) (mask : BitVec 128) (k : Nat) : Option Int :=
  floorLog2Units ((List.range 16).map (fun i => fpUnits (qElem g d mask (16 * k + i))))

/-- `vquant` (R178, R179). -/
def execVquant (p q : BitVec 3) (d a : BitVec 5) (k : BitVec 3) (m : BitVec 1) (st : BitVec 3) (s : State) : Out :=
  let fin (s : State) (c : VCmd) : State :=
    let qd := qDesc c.vals
    s.updGrp (fun g => g.setV c.vd 1 0 [BitVec.ofNat 32 (bmapCount g qd.bmap (qd.count / 16))])
  vMulti s p q [d.toNat, a.toNat] (fun s e0 =>
    let qd := qDesc (s.grp.v a.toNat)
    (qCheck s qd).bind (fun _ s =>
      let c : VCmd :=
        { VCmd.new .quant with
          vd := d.toNat, vals := (s.grp.v a.toNat).take 5, mask := s.grp.k k.toNat, s4 := m == 1, step := st.toNat,
          bstart := e0, bnum := bmapCount s.grp qd.bmap e0 }
      (match scrBad s qd.bmap ((e0 + 7) / 8) with
        | some j => .fault (exc cMEMUNC (max qd.bmap (16 * j)) 1) s
        | none => .ok () s : Acc Unit).bind (fun _ s => .ok (c, qd.count / 16) s))) fin

/-- One group of a `vquant` in execution (R180): a block that it ends is written; after the last group the row is complete. -/
def execVquantGroup (h : BitVec 64) (s : State) : Out :=
  let s := s.focus h
  match s.grp.vcmd with
  | none => .next s
  | some c =>
    if !(s.focused h && goesOn s 1) || c.kind != .quant then .next s
    else
      let s := retireDue s
      let qd := qDesc c.vals
      match scrBad s (qd.src + 64 * c.elem) 64 with
      | some k => .next (vElementFault s c (exc cMEMUNC (max (qd.src + 64 * c.elem) (16 * k)) 1) c.bstart)
      | none =>
        let ge := qGroupExp s.grp qd c.mask c.elem
        let new := quantNew c.step c.blen c.bm ge (c.elem == c.bstart)
        let s1 := if new && c.blen > 0 then qClose s qd c else s
        let c1 : VCmd :=
          if new then { c with bstart := c.elem, blen := 1, bm := ge, bnum := if c.blen > 0 then c.bnum + 1 else c.bnum, elem := c.elem + 1 }
          else { c with blen := c.blen + 1, bm := maxOpt c.bm ge, elem := c.elem + 1 }
        if c1.elem ≥ qd.count / 16 then
          let s2 := qClose s1 qd c1
          .next (vTick (endVCmd (s2.updGrp (fun g => g.setV c.vd 1 0 [BitVec.ofNat 32 (c1.bnum + 1)])) c.push))
        else .next (vTick (s1.updGrp (fun g => { g with vcmd := some c1 })))

end Sys2Proof.Machine
end

