-- ==== Sys2Proof/Machine/VTrans.lean ====
section
/-! DEFINITION. The transcendental unit (R170, R171). `vrcp` and `vrsqrt` round the exact result. The other functions
return one of the two FP32 values that bracket the exact result: the model encloses the exact result in an interval,
takes the FP32 values around it, and leaves the choice to `Config.transUp` (log entry 8). Fixed-point numbers have 256
fraction bits. -/

namespace Sys2Proof.Machine

/-- 1 with 256 fraction bits. -/
def fxOne : Nat := 2 ^ 256
/-- ln 2 with 256 fraction bits, rounded down. -/
def fxLn2 : Nat := 80260960185991308862233904206310070533990667611589946606122867505419956976171
/-- 2π with 256 fraction bits, rounded down. -/
def fxTwoPi : Nat := 727543153783532648560469885555459725306786754656784859917544302235877788932370

/-- The code of the largest FP32 magnitude that does not exceed `m * 2 ^ e`. -/
def fpFloor (m : Nat) (e : Int) : Nat :=
  if m == 0 then 0
  else
    let x : Int := max ((m.log2 : Int) + e) (-126)
    let sh := e - (x - 23)
    let r := if sh ≥ 0 then m * 2 ^ sh.toNat else m / 2 ^ (-sh).toNat
    (x + 126).toNat * 2 ^ 23 + r

/-- R171: one of the values that bracket a result whose magnitude lies between `lo * 2 ^ e` and `hi * 2 ^ e` and is not an
FP32 value. `cap` is the largest code that may lie below the result. -/
def bracket (fn : Nat) (x : W32) (neg : Bool) (lo hi : Nat) (e : Int) (cap : Nat) : W32 :=
  let a := min (fpFloor lo e) cap
  let b := min (fpFloor hi e) cap
  let c := if a == b then (if Config.transUp fn x then a + 1 else a) else a + Config.transPick fn x % (b + 2 - a)
  BitVec.ofNat 32 (c + if neg then 2 ^ 31 else 0)

/-- The largest finite code. -/
abbrev capFinite : Nat := 0x7F7FFFFF
/-- The largest code below 1. -/
abbrev capOne : Nat := 0x3F7FFFFF

/-- Terms of the exponential series: fuel, index, argument, term, sum. -/
def expTerms : Nat → Nat → Nat → Nat → Nat → Nat
  | 0, _, _, _, acc => acc
  | n + 1, k, y, t, acc =>
    let t1 := t * y / fxOne / k
    expTerms n (k + 1) y t1 (acc + t1)

/-- A square with 256 fraction bits, `n` times. -/
def fxSquares : Nat → Nat → Nat
  | 0, v => v
  | n + 1, v => fxSquares n (v * v / fxOne)

/-- e^y for y below 32, with a relative error below 2^-200. -/
def fxExp (y : Nat) : Nat := fxSquares 8 (expTerms 48 1 (y / 256) fxOne fxOne)

/-- The width of an error of 2^-200 relative to a value. -/
def fxErr (v : Nat) : Nat := v / 2 ^ 200 + 1

/-- `vexp2` (Table 9-5). -/
def fpExp2 (x : W32) : W32 :=
  match f32 x with
  | .nan => nan32
  | .inf neg => if neg then 0 else 0x7F800000
  | .fin _ _ _ =>
    let u := fpUnits x
    if u ≥ 128 * 2 ^ 149 then 0x7F800000
    else if u < -150 * 2 ^ 149 then bracket 0 x false 0 0 0 capFinite
    else
      let n := u / 2 ^ 149
      let f := (u % 2 ^ 149).toNat
      if f == 0 && n ≥ -149 then fp32 1 n
      else
        let v := fxExp (f * 2 ^ 107 * fxLn2 / fxOne)
        bracket 0 x false (max fxOne (v - fxErr v)) (v + fxErr v) (n - 256) capFinite

/-- Bits of log2 of a number in [1, 2), enclosed in `lo` to `hi`: the bits found, as a number, and how many. -/
def logBits : Nat → Nat → Nat → Nat → Nat → Nat × Nat
  | 0, _, _, acc, n => (acc, n)
  | k + 1, lo, hi, acc, n =>
    let l := lo * lo / fxOne
    let h := hi * hi / fxOne + 1
    if l ≥ 2 * fxOne then logBits k (l / 2) (h / 2 + 1) (2 * acc + 1) (n + 1)
    else if h < 2 * fxOne then logBits k l h (2 * acc) (n + 1)
    else (acc, n)

/-- `vlog2` (Table 9-5). -/
def fpLog2 (x : W32) : W32 :=
  match f32 x with
  | .nan => nan32
  | .inf neg => if neg then nan32 else 0x7F800000
  | .fin neg m e =>
    if m == 0 then 0xFF800000
    else if neg then nan32
    else
      let ex : Int := (m.log2 : Int) + e
      let mm := m * 2 ^ (256 - m.log2)
      if mm == fxOne then fp32 ex 0
      else
        let b := logBits 100 mm mm 0 0
        let t : Int := ex * 2 ^ b.2 + b.1
        if t ≥ 0 then bracket 1 x false t.toNat (t.toNat + 1) (-(b.2 : Int)) capFinite
        else bracket 1 x true (-(t + 1)).toNat (-t).toNat (-(b.2 : Int)) capFinite

/-- Terms of sin(t)/t as an alternating series in z = t²: fuel, index, z, term, sum. -/
def sinTerms : Nat → Nat → Nat → Nat → Nat → Nat
  | 0, _, _, _, acc => acc
  | n + 1, k, z, t, acc =>
    let t1 := t * z / fxOne / ((2 * k) * (2 * k + 1))
    sinTerms n (k + 1) z t1 (if k % 2 == 1 then acc - t1 else acc + t1)

/-- sin of a number of turns in units of 2^-149, as the bracketed value (Table 9-5). -/
def fpSinUnits (fn : Nat) (x : W32) (u : Int) : W32 :=
  let r := (u % 2 ^ 149).toNat
  let neg := r ≥ 2 ^ 148
  let h := r % 2 ^ 148
  let q := if h > 2 ^ 147 then 2 ^ 148 - h else h
  if q == 0 then 0
  else if q == 2 ^ 147 then (if neg then 0xBF800000 else 0x3F800000)
  else
    let t := q * fxTwoPi / 2 ^ 149
    let v := sinTerms 36 1 (t * t / fxOne) fxOne fxOne
    bracket fn x neg (q * fxTwoPi * (v - fxErr v)) (q * (fxTwoPi + 1) * (v + fxErr v)) (-661) capOne

/-- `vsin` (Table 9-5). -/
def fpSin (x : W32) : W32 := if isNan x || isInf x then nan32 else fpSinUnits 4 x (fpUnits x)
/-- `vcos` (Table 9-5): the sine a quarter turn on. -/
def fpCos (x : W32) : W32 := if isNan x || isInf x then nan32 else fpSinUnits 5 x (fpUnits x + 2 ^ 147)

/-- `vtanh` (Table 9-5). -/
def fpTanh (x : W32) : W32 :=
  match f32 x with
  | .nan => nan32
  | .inf neg => if neg then 0xBF800000 else 0x3F800000
  | .fin neg m _ =>
    let u := (fpUnits x).natAbs
    if m == 0 then x
    else if u < 2 ^ 136 then
      -- below 2^-13: the result lies just below the operand in magnitude
      let c := x.toNat % 2 ^ 31
      BitVec.ofNat 32 ((if Config.transUp 6 x then c else c - 1) + if neg then 2 ^ 31 else 0)
    else if u ≥ 16 * 2 ^ 149 then bracket 6 x neg fxOne fxOne (-256) capOne
    else
      let v := fxExp (2 * u * 2 ^ 107)
      let l := v - fxErr v
      let h := v + fxErr v
      bracket 6 x neg ((l - fxOne) * fxOne / (l + fxOne)) ((h - fxOne) * fxOne / (h + fxOne) + 1) (-256) capOne

/-- `vexp2` (R170). -/
def execVexp2 (p q : BitVec 3) (d a : BitVec 5) (k : BitVec 3) (s : State) : Out := vUnary s true p q d a k 8 fpExp2
/-- `vlog2` (R170). -/
def execVlog2 (p q : BitVec 3) (d a : BitVec 5) (k : BitVec 3) (s : State) : Out := vUnary s true p q d a k 8 fpLog2
/-- `vrcp` (R170). -/
def execVrcp (p q : BitVec 3) (d a : BitVec 5) (k : BitVec 3) (s : State) : Out := vUnary s true p q d a k 8 fp32Rcp
/-- `vrsqrt` (R170). -/
def execVrsqrt (p q : BitVec 3) (d a : BitVec 5) (k : BitVec 3) (s : State) : Out := vUnary s true p q d a k 8 fp32Rsqrt
/-- `vsin` (R170). -/
def execVsin (p q : BitVec 3) (d a : BitVec 5) (k : BitVec 3) (s : State) : Out := vUnary s true p q d a k 8 fpSin
/-- `vcos` (R170). -/
def execVcos (p q : BitVec 3) (d a : BitVec 5) (k : BitVec 3) (s : State) : Out := vUnary s true p q d a k 8 fpCos
/-- `vtanh` (R170). -/
def execVtanh (p q : BitVec 3) (d a : BitVec 5) (k : BitVec 3) (s : State) : Out := vUnary s true p q d a k 8 fpTanh

end Sys2Proof.Machine
end

