-- ==== Sys2Proof/Machine/Dispatch.lean ====
section
/-! DEFINITION. The dispatch of every instruction and event to its meaning. -/

namespace Sys2Proof.Machine

def exec (i : Instr) (s : State) : Host.Outcome State Fault Refusal :=
  match i with
  | .add d a b => Sys2Proof.Machine.execAdd d a b s
  | .sub d a b => Sys2Proof.Machine.execSub d a b s
  | .and d a b => Sys2Proof.Machine.execAnd d a b s
  | .or d a b => Sys2Proof.Machine.execOr d a b s
  | .xor d a b => Sys2Proof.Machine.execXor d a b s
  | .andn d a b => Sys2Proof.Machine.execAndn d a b s
  | .shl d a b => Sys2Proof.Machine.execShl d a b s
  | .shrN d a b => Sys2Proof.Machine.execShrN d a b s
  | .shrI d a b => Sys2Proof.Machine.execShrI d a b s
  | .cmpltI d a b => Sys2Proof.Machine.execCmpltI d a b s
  | .cmpltN d a b => Sys2Proof.Machine.execCmpltN d a b s
  | .minI d a b => Sys2Proof.Machine.execMinI d a b s
  | .maxI d a b => Sys2Proof.Machine.execMaxI d a b s
  | .minN d a b => Sys2Proof.Machine.execMinN d a b s
  | .maxN d a b => Sys2Proof.Machine.execMaxN d a b s
  | .mul d a b => Sys2Proof.Machine.execMul d a b s
  | .mulhiI d a b => Sys2Proof.Machine.execMulhiI d a b s
  | .mulhiN d a b => Sys2Proof.Machine.execMulhiN d a b s
  | .quoI d a b => Sys2Proof.Machine.execQuoI d a b s
  | .quoN d a b => Sys2Proof.Machine.execQuoN d a b s
  | .rmdI d a b => Sys2Proof.Machine.execRmdI d a b s
  | .rmdN d a b => Sys2Proof.Machine.execRmdN d a b s
  | .sel d a b c => Sys2Proof.Machine.execSel d a b c s
  | .clz d a => Sys2Proof.Machine.execClz d a s
  | .ctz d a => Sys2Proof.Machine.execCtz d a s
  | .popc d a => Sys2Proof.Machine.execPopc d a s
  | .bswap d a => Sys2Proof.Machine.execBswap d a s
  | .addi d a m => Sys2Proof.Machine.execAddi d a m s
  | .andi d a m => Sys2Proof.Machine.execAndi d a m s
  | .ori d a m => Sys2Proof.Machine.execOri d a m s
  | .xori d a m => Sys2Proof.Machine.execXori d a m s
  | .cmpltiI d a m => Sys2Proof.Machine.execCmpltiI d a m s
  | .cmpltiN d a m => Sys2Proof.Machine.execCmpltiN d a m s
  | .shli d a n => Sys2Proof.Machine.execShli d a n s
  | .shriN d a n => Sys2Proof.Machine.execShriN d a n s
  | .shriI d a n => Sys2Proof.Machine.execShriI d a n s
  | .immLo d m => Sys2Proof.Machine.execImmLo d m s
  | .immCat d m => Sys2Proof.Machine.execImmCat d m s
  | .pcadd d m => Sys2Proof.Machine.execPcadd d m s
  | .nop => Sys2Proof.Machine.execNop s
  | .beq a b o => Sys2Proof.Machine.execBeq a b o s
  | .bne a b o => Sys2Proof.Machine.execBne a b o s
  | .bltI a b o => Sys2Proof.Machine.execBltI a b o s
  | .bgeI a b o => Sys2Proof.Machine.execBgeI a b o s
  | .bltN a b o => Sys2Proof.Machine.execBltN a b o s
  | .bgeN a b o => Sys2Proof.Machine.execBgeN a b o s
  | .jmp d o => Sys2Proof.Machine.execJmp d o s
  | .jmpr d a m => Sys2Proof.Machine.execJmpr d a m s
  | .ldI8 d a m => Sys2Proof.Machine.execLdI8 d a m s
  | .ldN8 d a m => Sys2Proof.Machine.execLdN8 d a m s
  | .ldI16 d a m => Sys2Proof.Machine.execLdI16 d a m s
  | .ldN16 d a m => Sys2Proof.Machine.execLdN16 d a m s
  | .ldI32 d a m => Sys2Proof.Machine.execLdI32 d a m s
  | .ldN32 d a m => Sys2Proof.Machine.execLdN32 d a m s
  | .ldI64 d a m => Sys2Proof.Machine.execLdI64 d a m s
  | .stI8 d a m => Sys2Proof.Machine.execStI8 d a m s
  | .stI16 d a m => Sys2Proof.Machine.execStI16 d a m s
  | .stI32 d a m => Sys2Proof.Machine.execStI32 d a m s
  | .stI64 d a m => Sys2Proof.Machine.execStI64 d a m s
  | .ldlI32 d a m => Sys2Proof.Machine.execLdlI32 d a m s
  | .ldlI64 d a m => Sys2Proof.Machine.execLdlI64 d a m s
  | .stlI32 d a m => Sys2Proof.Machine.execStlI32 d a m s
  | .stlI64 d a m => Sys2Proof.Machine.execStlI64 d a m s
  | .ldAcq d a n m => Sys2Proof.Machine.execLdAcq d a n m s
  | .stRel d a n m => Sys2Proof.Machine.execStRel d a n m s
  | .ldAcqp d a n b => Sys2Proof.Machine.execLdAcqp d a n b s
  | .fence n => Sys2Proof.Machine.execFence n s
  | .fenceRel n => Sys2Proof.Machine.execFenceRel n s
  | .fenceAcq n => Sys2Proof.Machine.execFenceAcq n s
  | .atom d a n b o t => Sys2Proof.Machine.execAtom d a n b o t s
  | .red a n b o t => Sys2Proof.Machine.execRed a n b o t s
  | .ldfe d a n m => Sys2Proof.Machine.execLdfe d a n m s
  | .stfe d a n m => Sys2Proof.Machine.execStfe d a n m s
  | .clineWb a b l => Sys2Proof.Machine.execClineWb a b l s
  | .clineInv a b l => Sys2Proof.Machine.execClineInv a b l s
  | .clineWbi a b l => Sys2Proof.Machine.execClineWbi a b l s
  | .clineZero a b => Sys2Proof.Machine.execClineZero a b s
  | .ftcWb a b => Sys2Proof.Machine.execFtcWb a b s
  | .ftcInv a b => Sys2Proof.Machine.execFtcInv a b s
  | .ftcWbi a b => Sys2Proof.Machine.execFtcWbi a b s
  | .ftcProbe d a => Sys2Proof.Machine.execFtcProbe d a s
  | .bmodeReset a => Sys2Proof.Machine.execBmodeReset a s
  | .bmodeEmpty a b => Sys2Proof.Machine.execBmodeEmpty a b s
  | .bmodeFull a b => Sys2Proof.Machine.execBmodeFull a b s
  | .bmodeQuery d a => Sys2Proof.Machine.execBmodeQuery d a s
  | .tlbInv d a => Sys2Proof.Machine.execTlbInv d a s
  | .tlbInvall d => Sys2Proof.Machine.execTlbInvall d s
  | .tlbSync => Sys2Proof.Machine.execTlbSync s
  | .pgProbe d a => Sys2Proof.Machine.execPgProbe d a s
  | .pgMig d a => Sys2Proof.Machine.execPgMig d a s
  | .toksend v m c n => Sys2Proof.Machine.execToksend v m c n s
  | .tokwait v m c n => Sys2Proof.Machine.execTokwait v m c n s
  | .fmtq a => Sys2Proof.Machine.execFmtq a s
  | .endS => Sys2Proof.Machine.execEndS s
  | .rend m => Sys2Proof.Machine.execRend m s
  | .exit m => Sys2Proof.Machine.execExit m s
  | .launch d a b => Sys2Proof.Machine.execLaunch d a b s
  | .sigAdd d a b => Sys2Proof.Machine.execSigAdd d a b s
  | .sigSet d a b => Sys2Proof.Machine.execSigSet d a b s
  | .sigWait d a b => Sys2Proof.Machine.execSigWait d a b s
  | .sigInt d a b => Sys2Proof.Machine.execSigInt d a b s
  | .hintSave b m => Sys2Proof.Machine.execHintSave b m s
  | .trap m => Sys2Proof.Machine.execTrap m s
  | .rett => Sys2Proof.Machine.execRett s
  | .sysr d r => Sys2Proof.Machine.execSysr d r s
  | .sysw a r => Sys2Proof.Machine.execSysw a r s
  | .barInit a b => Sys2Proof.Machine.execBarInit a b s
  | .barReg a => Sys2Proof.Machine.execBarReg a s
  | .barArr d a n => Sys2Proof.Machine.execBarArr d a n s
  | .barWait d a b n => Sys2Proof.Machine.execBarWait d a b n s
  | .barArd a n => Sys2Proof.Machine.execBarArd a n s
  | .barPub a b => Sys2Proof.Machine.execBarPub a b s
  | .barAtt a b => Sys2Proof.Machine.execBarAtt a b s
  | .barRarr d a b n => Sys2Proof.Machine.execBarRarr d a b n s
  | .barRdlo d a => Sys2Proof.Machine.execBarRdlo d a s
  | .barRdhi d a => Sys2Proof.Machine.execBarRdhi d a s
  | .loopBeg l n => Sys2Proof.Machine.execLoopBeg l n s
  | .loopFirst l c => Sys2Proof.Machine.execLoopFirst l c s
  | .loopLast l c => Sys2Proof.Machine.execLoopLast l c s
  | .loopIdx d l => Sys2Proof.Machine.execLoopIdx d l s
  | .loopIterationEnd => Sys2Proof.Machine.execLoopIterationEnd s
  | .vadd p q d a b k t => Sys2Proof.Machine.execVadd p q d a b k t s
  | .vsub p q d a b k t => Sys2Proof.Machine.execVsub p q d a b k t s
  | .vmul p q d a b k t => Sys2Proof.Machine.execVmul p q d a b k t s
  | .vfma p q d a b k t => Sys2Proof.Machine.execVfma p q d a b k t s
  | .vfms p q d a b k t => Sys2Proof.Machine.execVfms p q d a b k t s
  | .vmin p q d a b k t => Sys2Proof.Machine.execVmin p q d a b k t s
  | .vmax p q d a b k t => Sys2Proof.Machine.execVmax p q d a b k t s
  | .vaddInteger p q d a b k t => Sys2Proof.Machine.execVaddInteger p q d a b k t s
  | .vsubInteger p q d a b k t => Sys2Proof.Machine.execVsubInteger p q d a b k t s
  | .vmulInteger p q d a b k t => Sys2Proof.Machine.execVmulInteger p q d a b k t s
  | .vmulh p q d a b k t => Sys2Proof.Machine.execVmulh p q d a b k t s
  | .vminInteger p q d a b k t => Sys2Proof.Machine.execVminInteger p q d a b k t s
  | .vmaxInteger p q d a b k t => Sys2Proof.Machine.execVmaxInteger p q d a b k t s
  | .vand p q d a b k => Sys2Proof.Machine.execVand p q d a b k s
  | .vor p q d a b k => Sys2Proof.Machine.execVor p q d a b k s
  | .vxor p q d a b k => Sys2Proof.Machine.execVxor p q d a b k s
  | .vshl p q d a b k => Sys2Proof.Machine.execVshl p q d a b k s
  | .vshr p q d a b k => Sys2Proof.Machine.execVshr p q d a b k s
  | .vsra p q d a b k => Sys2Proof.Machine.execVsra p q d a b k s
  | .vaddi p q d a k m => Sys2Proof.Machine.execVaddi p q d a k m s
  | .vandi p q d a k m => Sys2Proof.Machine.execVandi p q d a k m s
  | .vshli p q d a k m => Sys2Proof.Machine.execVshli p q d a k m s
  | .vshri p q d a k m => Sys2Proof.Machine.execVshri p q d a k m s
  | .vcmp p q x a b k t c => Sys2Proof.Machine.execVcmp p q x a b k t c s
  | .kand p q x y k => Sys2Proof.Machine.execKand p q x y k s
  | .kor p q x y k => Sys2Proof.Machine.execKor p q x y k s
  | .kxor p q x y k => Sys2Proof.Machine.execKxor p q x y k s
  | .kandn p q x y k => Sys2Proof.Machine.execKandn p q x y k s
  | .kmov p q x k => Sys2Proof.Machine.execKmov p q x k s
  | .knot p q x k => Sys2Proof.Machine.execKnot p q x k s
  | .kpush p q x k => Sys2Proof.Machine.execKpush p q x k s
  | .kpop p q x => Sys2Proof.Machine.execKpop p q x s
  | .kelse p q x => Sys2Proof.Machine.execKelse p q x s
  | .vbrAny p q k o => Sys2Proof.Machine.execVbrAny p q k o s
  | .vbrAll p q k o => Sys2Proof.Machine.execVbrAll p q k o s
  | .vbrNone p q k o => Sys2Proof.Machine.execVbrNone p q k o s
  | .vj p q o => Sys2Proof.Machine.execVj p q o s
  | .vcvt p q d a k f => Sys2Proof.Machine.execVcvt p q d a k f s
  | .vquant p q d a k m n => Sys2Proof.Machine.execVquant p q d a k m n s
  | .vexp2 p q d a k => Sys2Proof.Machine.execVexp2 p q d a k s
  | .vlog2 p q d a k => Sys2Proof.Machine.execVlog2 p q d a k s
  | .vrcp p q d a k => Sys2Proof.Machine.execVrcp p q d a k s
  | .vrsqrt p q d a k => Sys2Proof.Machine.execVrsqrt p q d a k s
  | .vsin p q d a k => Sys2Proof.Machine.execVsin p q d a k s
  | .vcos p q d a k => Sys2Proof.Machine.execVcos p q d a k s
  | .vtanh p q d a k => Sys2Proof.Machine.execVtanh p q d a k s
  | .vradd p q d a k t => Sys2Proof.Machine.execVradd p q d a k t s
  | .vrmax p q d a k t => Sys2Proof.Machine.execVrmax p q d a k t s
  | .vrmin p q d a k t => Sys2Proof.Machine.execVrmin p q d a k t s
  | .vrmaxi p q d a k t => Sys2Proof.Machine.execVrmaxi p q d a k t s
  | .vperm p q d a b k => Sys2Proof.Machine.execVperm p q d a b k s
  | .vshuf p q d a b k => Sys2Proof.Machine.execVshuf p q d a b k s
  | .vrot p q d a b k => Sys2Proof.Machine.execVrot p q d a b k s
  | .vzip p q d a b k => Sys2Proof.Machine.execVzip p q d a b k s
  | .vsel p q d a b k => Sys2Proof.Machine.execVsel p q d a b k s
  | .vli p q d m => Sys2Proof.Machine.execVli p q d m s
  | .vlih p q d m => Sys2Proof.Machine.execVlih p q d m s
  | .vmov p q d a k => Sys2Proof.Machine.execVmov p q d a k s
  | .vlane p q d a k n => Sys2Proof.Machine.execVlane p q d a k n s
  | .vld p q d a k o => Sys2Proof.Machine.execVld p q d a k o s
  | .vst p q d a k o => Sys2Proof.Machine.execVst p q d a k o s
  | .vgather p q d a k o => Sys2Proof.Machine.execVgather p q d a k o s
  | .vscatter p q d a k o => Sys2Proof.Machine.execVscatter p q d a k o s
  | .vlut p q d a k o => Sys2Proof.Machine.execVlut p q d a k o s
  | .vrescale p q d a k t => Sys2Proof.Machine.execVrescale p q d a k t s
  | .vaccCol p q d a k => Sys2Proof.Machine.execVaccCol p q d a k s
  | .vaccColz p q d a k => Sys2Proof.Machine.execVaccColz p q d a k s
  | .vaccRow p q d a k => Sys2Proof.Machine.execVaccRow p q d a k s
  | .vaccRowz p q d a k => Sys2Proof.Machine.execVaccRowz p q d a k s
  | .vaccWcol p q d a k => Sys2Proof.Machine.execVaccWcol p q d a k s
  | .vaccAcol p q d a k => Sys2Proof.Machine.execVaccAcol p q d a k s
  | .vldfe p q d a k o => Sys2Proof.Machine.execVldfe p q d a k o s
  | .vstfe p q d a k o => Sys2Proof.Machine.execVstfe p q d a k o s
  | .loopBegXn l n => Sys2Proof.Machine.execLoopBegXn l n s
  | .loopFirstXn l c => Sys2Proof.Machine.execLoopFirstXn l c s
  | .loopLastXn l c => Sys2Proof.Machine.execLoopLastXn l c s
  | .rendXn p q m => Sys2Proof.Machine.execRendXn p q m s
  | .endXn p q => Sys2Proof.Machine.execEndXn p q s
  | .nopXn p q => Sys2Proof.Machine.execNopXn p q s
  | .mtile p q n m a b c => Sys2Proof.Machine.execMtile p q n m a b c s
  | .mbcast p q n a b => Sys2Proof.Machine.execMbcast p q n a b s
  | .mtileT p q n m a b c => Sys2Proof.Machine.execMtileT p q n m a b c s
  | .msync p q => Sys2Proof.Machine.execMsync p q s
  | .mdset p q d f m => Sys2Proof.Machine.execMdset p q d f m s
  | .mdadd p q d n m => Sys2Proof.Machine.execMdadd p q d n m s
  | .mdmov p q d n => Sys2Proof.Machine.execMdmov p q d n s
  | .mdld p q d n m => Sys2Proof.Machine.execMdld p q d n m s
  | .mjoin p q n r k v => Sys2Proof.Machine.execMjoin p q n r k v s
  | .mleave p q => Sys2Proof.Machine.execMleave p q s
  | .mcal p q n r => Sys2Proof.Machine.execMcal p q n r s
  | .mocfg p q o t m => Sys2Proof.Machine.execMocfg p q o t m s
  | .mstat p q o n m => Sys2Proof.Machine.execMstat p q o n m s
  | .maccAlloc p q b => Sys2Proof.Machine.execMaccAlloc p q b s
  | .maccFree p q b => Sys2Proof.Machine.execMaccFree p q b s
  | .maccZero p q n b => Sys2Proof.Machine.execMaccZero p q n b s
  | .maccShare p q k b => Sys2Proof.Machine.execMaccShare p q k b s
  | .maccAttach p q n k b => Sys2Proof.Machine.execMaccAttach p q n k b s
  | .cpy p q x y z f => Sys2Proof.Machine.execCpy p q x y z f s
  | .cpyS p q x y z f => Sys2Proof.Machine.execCpyS p q x y z f s
  | .ctld p q x y z f => Sys2Proof.Machine.execCtld p q x y z f s
  | .ctst p q x y z f => Sys2Proof.Machine.execCtst p q x y z f s
  | .cgath p q x y z f => Sys2Proof.Machine.execCgath p q x y z f s
  | .cscat p q x y z f => Sys2Proof.Machine.execCscat p q x y z f s
  | .cwalk p q x y z f => Sys2Proof.Machine.execCwalk p q x y z f s
  | .czero p q x z f => Sys2Proof.Machine.execCzero p q x z f s
  | .cfill p q x y z f => Sys2Proof.Machine.execCfill p q x y z f s
  | .cbarIn p q x b => Sys2Proof.Machine.execCbarIn p q x b s
  | .cbarOut p q x b => Sys2Proof.Machine.execCbarOut p q x b s
  | .cbarArr p q b => Sys2Proof.Machine.execCbarArr p q b s
  | .csigAdd p q x y => Sys2Proof.Machine.execCsigAdd p q x y s
  | .csigSet p q x y => Sys2Proof.Machine.execCsigSet p q x y s
  | .ccoll p q x z => Sys2Proof.Machine.execCcoll p q x z s
  | .cpref p q x z => Sys2Proof.Machine.execCpref p q x z s
  | .caLi p q a m => Sys2Proof.Machine.execCaLi p q a m s
  | .caLih p q a m => Sys2Proof.Machine.execCaLih p q a m s
  | .caAddi p q a m => Sys2Proof.Machine.execCaAddi p q a m s
  | .caAdd p q x y z => Sys2Proof.Machine.execCaAdd p q x y z s
  | .caMov p q x y => Sys2Proof.Machine.execCaMov p q x y s
  | .chLd p q x y m => Sys2Proof.Machine.execChLd p q x y m s
  | .chSt p q x y m => Sys2Proof.Machine.execChSt p q x y m s
  | .vectorResultWrite h => Sys2Proof.Machine.execVectorResultWrite h s
  | .vldChecksDecided h => Sys2Proof.Machine.execVldChecksDecided h s
  | .vldReplay h => Sys2Proof.Machine.execVldReplay h s
  | .latchWrite h => Sys2Proof.Machine.execLatchWrite h s
  | .vectorElement h => Sys2Proof.Machine.execVectorElement h s
  | .vquantGroup h => Sys2Proof.Machine.execVquantGroup h s
  | .copyElement h => Sys2Proof.Machine.execCopyElement h s
  | .tileCommandStart h => Sys2Proof.Machine.execTileCommandStart h s
  | .frameStart h dark pre => Sys2Proof.Machine.execFrameStart h dark pre s
  | .sessionTimeout h => Sys2Proof.Machine.execSessionTimeout h s
  | .tileElement h laser obs light => Sys2Proof.Machine.execTileElement h laser obs light s
  | .joinAdmitted str => Sys2Proof.Machine.execJoinAdmitted str s
  | .combFailoverDone str => Sys2Proof.Machine.execCombFailoverDone str s
  | .calibrationDone str found => Sys2Proof.Machine.execCalibrationDone str found s
  | .streamEnded h st => Sys2Proof.Machine.execStreamEnded h st s
  | .trapDelivery h => Sys2Proof.Machine.execTrapDelivery h s
  | .asyncFaultDelivery h => Sys2Proof.Machine.execAsyncFaultDelivery h s
  | .preemptionDeadline h => Sys2Proof.Machine.execPreemptionDeadline h s
  | .groupSave h => Sys2Proof.Machine.execGroupSave h s
  | .groupRetire h => Sys2Proof.Machine.execGroupRetire h s
  | .packetTake q => Sys2Proof.Machine.execPacketTake q s
  | .parameterBlockRead q => Sys2Proof.Machine.execParameterBlockRead q s
  | .groupDispatch => Sys2Proof.Machine.execGroupDispatch s
  | .spillExpiry q => Sys2Proof.Machine.execSpillExpiry q s
  | .packetComplete q n => Sys2Proof.Machine.execPacketComplete q n s
  | .ctxOpen c => Sys2Proof.Machine.execCtxOpen c s
  | .ctxSuspend c => Sys2Proof.Machine.execCtxSuspend c s
  | .ctxResume c => Sys2Proof.Machine.execCtxResume c s
  | .ctxClose c => Sys2Proof.Machine.execCtxClose c s
  | .kernelLoad c kid => Sys2Proof.Machine.execKernelLoad c kid s
  | .kernelLoadReadDone => Sys2Proof.Machine.execKernelLoadReadDone s
  | .kernelUnload c kid => Sys2Proof.Machine.execKernelUnload c kid s
  | .queueEnable q => Sys2Proof.Machine.execQueueEnable q s
  | .queueDisable q => Sys2Proof.Machine.execQueueDisable q s
  | .queuePause q => Sys2Proof.Machine.execQueuePause q s
  | .queueResume q => Sys2Proof.Machine.execQueueResume q s
  | .queueReset q => Sys2Proof.Machine.execQueueReset q s
  | .qdb q tail => Sys2Proof.Machine.execQdb q tail s
  | .gintv v => Sys2Proof.Machine.execGintv v s
  | .proma v => Sys2Proof.Machine.execProma v s
  | .promoteRequest h line c src tag => Sys2Proof.Machine.execPromoteRequest h line c src tag s
  | .promotion h => Sys2Proof.Machine.execPromotion h s
  | .ilcmdInvalidatePage c va sync => Sys2Proof.Machine.execIlcmdInvalidatePage c va sync s
  | .ilcmdInvalidateContext c sync => Sys2Proof.Machine.execIlcmdInvalidateContext c sync s
  | .ilcmdInvalidateAll sync => Sys2Proof.Machine.execIlcmdInvalidateAll sync s
  | .ilcmdSync => Sys2Proof.Machine.execIlcmdSync s
  | .invalidationAppend kind c va => Sys2Proof.Machine.execInvalidationAppend kind c va s
  | .pageWalk core c va => Sys2Proof.Machine.execPageWalk core c va s
  | .migh v => Sys2Proof.Machine.execMigh v s
  | .migrationStep e n => Sys2Proof.Machine.execMigrationStep e n s
  | .ftccfg n v => Sys2Proof.Machine.execFtccfg n v s
  | .ftcChangeDone n => Sys2Proof.Machine.execFtcChangeDone n s
  | .attaddr v => Sys2Proof.Machine.execAttaddr v s
  | .attestationReportDone rep => Sys2Proof.Machine.execAttestationReportDone rep s
  | .fibmodeApply port => Sys2Proof.Machine.execFibmodeApply port s
  | .routeWrite n v => Sys2Proof.Machine.execRouteWrite n v s
  | .hostRegisterWrite off v => Sys2Proof.Machine.execHostRegisterWrite off v s
  | .hostMemoryRead pa n => Sys2Proof.Machine.execHostMemoryRead pa n s
  | .hostMemoryWrite pa bytes => Sys2Proof.Machine.execHostMemoryWrite pa bytes s
  | .writeQueueRequest n => Sys2Proof.Machine.execWriteQueueRequest n s
  | .cacheFill l2 unit line victim => Sys2Proof.Machine.execCacheFill l2 unit line victim s
  | .refresh stack row => Sys2Proof.Machine.execRefresh stack row s
  | .bankFillDone core bank => Sys2Proof.Machine.execBankFillDone core bank s
  | .bankWritebackDone core bank => Sys2Proof.Machine.execBankWritebackDone core bank s
  | .packageReset modid cxl fibre sigs => Sys2Proof.Machine.execPackageReset modid cxl fibre sigs s
  | .functionReady f => Sys2Proof.Machine.execFunctionReady f s
  | .functionRestore f => Sys2Proof.Machine.execFunctionRestore f s
  | .managementInstall serial neigh => Sys2Proof.Machine.execManagementInstall serial neigh s
  | .powerLimitThrottle => Sys2Proof.Machine.execPowerLimitThrottle s
  | .coreFault core unreadable => Sys2Proof.Machine.execCoreFault core unreadable s
  | .spareTakeoverDone die => Sys2Proof.Machine.execSpareTakeoverDone die s
  | .correctableError u idx count => Sys2Proof.Machine.execCorrectableError u idx count s
  | .storageLost far idx => Sys2Proof.Machine.execStorageLost far idx s
  | .linkTrained n waves neighbour => Sys2Proof.Machine.execLinkTrained n waves neighbour s
  | .linkTrainingFailed n => Sys2Proof.Machine.execLinkTrainingFailed n s
  | .wavelengthLost n => Sys2Proof.Machine.execWavelengthLost n s
  | .lightLost n => Sys2Proof.Machine.execLightLost n s
  | .linkManagementReset n => Sys2Proof.Machine.execLinkManagementReset n s
  | .flitReceive n flit => Sys2Proof.Machine.execFlitReceive n flit s
  | .nakReceive n seq => Sys2Proof.Machine.execNakReceive n seq s
  | .ackTimeout n => Sys2Proof.Machine.execAckTimeout n s
  | .rerouteResend m => Sys2Proof.Machine.execRerouteResend m s
  | .remoteRequest p => Sys2Proof.Machine.execRemoteRequest p s
  | .remoteReply p => Sys2Proof.Machine.execRemoteReply p s
  | .collectiveMatch cg seq posts => Sys2Proof.Machine.execCollectiveMatch cg seq posts s
  | .collectiveMatchTimeout cg seq => Sys2Proof.Machine.execCollectiveMatchTimeout cg seq s
  | .collectiveBucketStart cg seq b => Sys2Proof.Machine.execCollectiveBucketStart cg seq b s
  | .collectiveBucketDone cg seq b xs => Sys2Proof.Machine.execCollectiveBucketDone cg seq b xs s
  | .collectiveFailure cg seq cause m => Sys2Proof.Machine.execCollectiveFailure cg seq cause m s
  | .gangReadyReceived g m => Sys2Proof.Machine.execGangReadyReceived g m s
  | .gangCommitReceived g => Sys2Proof.Machine.execGangCommitReceived g s
  | .gangAbortReceived g lacked => Sys2Proof.Machine.execGangAbortReceived g lacked s
  | .gangQueryReceived g m => Sys2Proof.Machine.execGangQueryReceived g m s
  | .gangLeaderTimeout g => Sys2Proof.Machine.execGangLeaderTimeout g s
  | .gangQueryTimeout g => Sys2Proof.Machine.execGangQueryTimeout g s
  | .gangAnswerTimeout g => Sys2Proof.Machine.execGangAnswerTimeout g s
  | .linkLightDetected n => Sys2Proof.Machine.execLinkLightDetected n s
  | .gangDecisionExpiry g => Sys2Proof.Machine.execGangDecisionExpiry g s
  | .l2ReductionApplied die => Sys2Proof.Machine.execL2ReductionApplied die s
  | .interruptPacket h v c src tag => Sys2Proof.Machine.execInterruptPacket h v c src tag s
  | .sessionControlFlit str kind member key c fields => Sys2Proof.Machine.execSessionControlFlit str kind member key c fields s
  | .farWriteCompletion line => Sys2Proof.Machine.execFarWriteCompletion line s

end Sys2Proof.Machine
end

