-- ==== Sys2Proof/Machine/Sched.lean ====
section
/-! DEFINITION. What moves next: the issue of one stream (R37, R47, R84, R87, R92, R97, R136), the events, arbitration among the streams of
a core (R100), and the clock, which finds what the device does on its own. -/

namespace Sys2Proof.Machine

/-- Whether the sequencer of a stream acts: a level is open, and the scalar stream is not in handler mode (R92). -/
def looping (g : Group) (st : Nat) : Bool := !(g.stream st).levels.isEmpty && !(g.hmode && st == 0)

/-- The word that stream `st` of the group in focus issues next: replayed, or fetched and kept for the replay (R92). -/
def nextWord (s : State) (st : Nat) : Acc Nat :=
  let pc := (s.pc st).toNat
  if looping s.grp st then
    match (s.grp.stream st).replay.lookup pc with
    | some w => .ok w.toNat s
    | none => (fetchWord s st pc).bind (fun w s =>
        .ok w (s.updStream st (fun t => { t with replay := setA t.replay pc (BitVec.ofNat 32 w) })))
  else fetchWord s st pc

-- Governed words (R87) -----------------------------------------------------------------------------------------------

/-- What a `loop.first` or `loop.last` in a stream's body says of the word `k` words behind it: none where it does not govern
that word, else whether the word issues. -/
def governs (g : Group) (t : StreamSt) (w k : Nat) (stm : Stream) : Option Bool :=
  let at' (l : BitVec 3) (c : BitVec 4) (want : Nat → Nat) : Option Bool :=
    if k ≤ c.toNat + 1 then (openAt t l.toNat).map (fun o => o.idx == want (g.loopEnt l.toNat).count) else none
  match decode stm (BitVec.ofNat 32 w) with
  | .ok (.loopFirst l c) => at' l c (fun _ => 0)
  | .ok (.loopLast l c) => at' l c (fun n => n - 1)
  | .ok (.loopFirstXn l c) => at' l c (fun _ => 0)
  | .ok (.loopLastXn l c) => at' l c (fun n => n - 1)
  | _ => none

/-- The word at an address of a stream's open body, where it may be a prefix: replayed, or as a fetch finds it; none where it cannot be
fetched. -/
def bodyWord (s : State) (st a : Nat) : Acc (Option Nat) :=
  match (s.grp.stream st).replay.lookup a with
  | some w => .ok (some w.toNat) s
  | none =>
    match fetchWord s st a with
    | .ok w s1 => .ok (some w) s1
    | .fault _ s1 => .ok none s1
    | .wait s1 => .wait s1

/-- The verdicts of the prefixes that govern the word at a stream's pc: governing is by address, whether or not the stream has passed the
prefix (R87; log entry 13). -/
def verdicts (s : State) (st : Nat) (stm : Stream) : Acc (List Bool) :=
  if !looping s.grp st then .ok [] s
  else
    let pc := (s.pc st).toNat
    let lo := ((s.grp.stream st).levels.getLast?.map (fun l => l.start)).getD 0
    (List.range 16).foldl (fun (acc : Acc (List Bool)) i => acc.bind (fun l s =>
      let back := 4 * (i + 1)
      if pc < lo + back then .ok l s
      else (bodyWord s st (pc - back)).bind (fun w s =>
        .ok (l ++ (w.bind (fun w => governs s.grp (s.grp.stream st) w (i + 1) stm)).toList) s))) (.ok [] s)

/-- Whether an instruction is a `loop.*` (R87). -/
def isLoop (i : Instr) : Bool :=
  match i with
  | .loopBeg .. => true
  | .loopFirst .. => true
  | .loopLast .. => true
  | .loopIdx .. => true
  | .loopBegXn .. => true
  | .loopFirstXn .. => true
  | .loopLastXn .. => true
  | _ => false

-- Issue --------------------------------------------------------------------------------------------------------------

/-- The word that a stream would issue is decoded and runs, or raises ILLEGAL (R46, R47, R87). -/
def issueWord (s : State) (st : Stream) (w : Nat) (governed : Bool) : Out :=
  let s1 : State := { s with strm := st, iw := BitVec.ofNat 32 w, ipc := s.pc st.num }
  match decode st (BitVec.ofNat 32 w) with
  | .error _ => .next (illegal s1 st.num)
  | .ok i => if governed && isLoop i then .next (illegal s1 st.num) else exec i s1

/-- A stream of the group in focus at what it issues next, at its pc: the replay of a failed `vld` (R185), a tile command that waits to start (R236),
the end of an iteration, a skipped word, or a word that is fetched and issued.
DESIGN CHOICE: the wait for the fetch of a word is no stream cycle (log entry 149). -/
def issueHere (s : State) (st : Stream) : Out :=
  let n := st.num
  if n == 1 && s.grp.vreplay.isSome then execVldReplay s.grp.handle s
  else if n == 2 && s.grp.mreq.isSome then execTileCommandStart s.grp.handle s
  else if atLoopEnd s.grp n then execLoopIterationEnd { s with strm := st }
  else
    match verdicts s n st with
    | .fault _ s1 => .next (s1.block n)
    | .wait s1 => .next (s1.block n)
    | .ok vs s0 =>
      if vs.any (fun b => !b) then .next (s0.advance n)
      else
        match nextWord s0 n with
        | .wait s1 => .next (s1.block n)
        | .fault e s1 => .next (raise { s1 with iw := 0, ipc := s1.pc n } n e none)
        | .ok w s1 => issueWord s1 st w (!vs.isEmpty)

/-- Whether the engine of a stream is busy with an earlier instruction of the group in focus (R158, R236, R245). -/
def engineBusy (g : Group) (n : Nat) : Bool :=
  match n with
  | 1 => g.vcmd.isSome
  | 2 => g.mcmd.any (fun c => !c.lastBegun)
  | 3 => g.ccmd.isSome
  | _ => false

/-- Whether an `mcal` of a group is in execution (R221). -/
def calibrating (s : State) (g : Group) : Bool := s.strs.any (fun t => t.cal.any (fun w => w.handle == g.handle))

/-- Whether a try of stream `n` of the group in focus at `s` that led to `t` has issued nothing: the stream stands BLOCKED at its
instruction, the replay of its `vld` or its tile command still waits (R97, R185, R236). -/
def unissued (s : State) (n : Nat) (t : State) : Bool :=
  (t.groupOf s.grp.handle).any (fun g =>
    if n == 1 && s.grp.vreplay.isSome then g.vreplay.isSome
    else if n == 2 && g.mreq.isSome then true
    else (g.stream n).run == .blocked && (g.stream n).pc == s.pc n && !engineBusy g n && !(n == 2 && calibrating t g) && (n != 2 || g.msync == s.grp.msync))

/-- A matrix stream whose tile command has begun its last element goes on behind it (R236): it stays at the command where nothing issues. -/
def issuePast (s : State) : Out :=
  match issueHere ((s.advance 2).updGrp (fun g => { g with mcmd := g.mcmd.map (fun c => { c with passed := some s.grp.ms }) })) .m with
  | .next t =>
    .next (if !unissued (s.advance 2) 2 t then t
      else t.updGroup s.grp.handle (fun g => { g with
        ms := { g.ms with pc := s.grp.ms.pc, run := .blocked }, mcmd := g.mcmd.map (fun c => { c with passed := none }) }))
  | r => r

/-- What a stream of the group in focus issues next. -/
def issueNext (s : State) (st : Stream) : Out :=
  if st == .m && s.grp.mcmd.any (fun c => c.passed.isNone && c.lastBegun) then issuePast s else issueHere s st

/-- Whether stream `n` of a group may issue now: the group runs, on a core that is READY and not being taken over, and nothing holds it, but
that what has begun goes on (R126). -/
def mayIssue (s : State) (g : Group) (n : Nat) : Bool :=
  (g.st == .running || g.st == .stopping || (g.st == .handler && n == 0)) && g.slot < 4 && !coreMoving s g && s.ready.getD g.core 0 == 1 &&
  ((g.stream n).run == .ready || (g.stream n).run == .blocked || (n == 1 && g.vreplay.isSome && g.st == .running)) && !engineBusy g n && !(n == 2 && calibrating s g) &&
  (!held s g || g.inFlight n)

/-- What the issue of stream `n` of the group in focus at `s` answers, in an issue slot of its core's engine, which it takes where it issues
(R100). Where the slot of this core cycle is taken, a stream that waits goes on waiting (R156), and a READY one stays as it is. -/
def thenSlot (s : State) (n : Nat) (o : Out) : Out :=
  match o with
  | .next t =>
    .next (if unissued s n t then t
      else if (s.core s.grp.core).slots.getD n 0 == s.cycle + 1 then s
      else t.updCore s.grp.core (fun c => { c with slots := updAt c.slots n (fun _ => s.cycle + 1) }))
  | r => r

/-- Stream `st` of the group of handle `h` issues, where it may, in an issue slot of its core's engine: one in a core cycle (R100). -/
def issue (h : W64) (st : Stream) (s0 : State) : Out :=
  let s := s0.focus h
  let n := st.num
  if s.safe || !s.focused h || !mayIssue s s.grp n then .next s
  else thenSlot s n (issueNext s st)

-- Events -------------------------------------------------------------------------------------------------------------

/-- An event, by the meaning of the constructor of `Instr` of its name. -/
def runEvent (e : Event) (s : State) : Out :=
  match e with
  | .vectorResultWrite h => execVectorResultWrite h s
  | .vldChecksDecided h => execVldChecksDecided h s
  | .vldReplay h => execVldReplay h s
  | .latchWrite h => execLatchWrite h s
  | .vectorElement h => execVectorElement h s
  | .vquantGroup h => execVquantGroup h s
  | .copyElement h => execCopyElement h s
  | .tileCommandStart h => execTileCommandStart h s
  | .frameStart h dark pre => execFrameStart h dark pre s
  | .sessionTimeout h => execSessionTimeout h s
  | .tileElement h laser obs light => execTileElement h laser obs light s
  | .joinAdmitted str => execJoinAdmitted str s
  | .combFailoverDone str => execCombFailoverDone str s
  | .calibrationDone str found => execCalibrationDone str found s
  | .streamEnded h st => execStreamEnded h st s
  | .trapDelivery h => execTrapDelivery h s
  | .asyncFaultDelivery h => execAsyncFaultDelivery h s
  | .preemptionDeadline h => execPreemptionDeadline h s
  | .groupSave h => execGroupSave h s
  | .groupRetire h => execGroupRetire h s
  | .packetTake q => execPacketTake q s
  | .parameterBlockRead q => execParameterBlockRead q s
  | .groupDispatch => execGroupDispatch s
  | .spillExpiry q => execSpillExpiry q s
  | .packetComplete q n => execPacketComplete q n s
  | .ctxOpen c => execCtxOpen c s
  | .ctxSuspend c => execCtxSuspend c s
  | .ctxResume c => execCtxResume c s
  | .ctxClose c => execCtxClose c s
  | .kernelLoad c kid => execKernelLoad c kid s
  | .kernelLoadReadDone => execKernelLoadReadDone s
  | .kernelUnload c kid => execKernelUnload c kid s
  | .queueEnable q => execQueueEnable q s
  | .queueDisable q => execQueueDisable q s
  | .queuePause q => execQueuePause q s
  | .queueResume q => execQueueResume q s
  | .queueReset q => execQueueReset q s
  | .qdb q tail => execQdb q tail s
  | .gintv v => execGintv v s
  | .proma v => execProma v s
  | .promoteRequest h line c src tag => execPromoteRequest h line c src tag s
  | .promotion h => execPromotion h s
  | .ilcmdInvalidatePage c va sync => execIlcmdInvalidatePage c va sync s
  | .ilcmdInvalidateContext c sync => execIlcmdInvalidateContext c sync s
  | .ilcmdInvalidateAll sync => execIlcmdInvalidateAll sync s
  | .ilcmdSync => execIlcmdSync s
  | .invalidationAppend kind c va => execInvalidationAppend kind c va s
  | .pageWalk core c va => execPageWalk core c va s
  | .migh v => execMigh v s
  | .migrationStep e n => execMigrationStep e n s
  | .ftccfg n v => execFtccfg n v s
  | .ftcChangeDone n => execFtcChangeDone n s
  | .attaddr v => execAttaddr v s
  | .attestationReportDone rep => execAttestationReportDone rep s
  | .fibmodeApply port => execFibmodeApply port s
  | .routeWrite n v => execRouteWrite n v s
  | .hostRegisterWrite off v => execHostRegisterWrite off v s
  | .hostMemoryRead pa n => execHostMemoryRead pa n s
  | .hostMemoryWrite pa bytes => execHostMemoryWrite pa bytes s
  | .writeQueueRequest n => execWriteQueueRequest n s
  | .cacheFill l2 unit line victim => execCacheFill l2 unit line victim s
  | .refresh stack row => execRefresh stack row s
  | .bankFillDone core bank => execBankFillDone core bank s
  | .bankWritebackDone core bank => execBankWritebackDone core bank s
  | .packageReset modid cxl fibre sigs => execPackageReset modid cxl fibre sigs s
  | .functionReady f => execFunctionReady f s
  | .functionRestore f => execFunctionRestore f s
  | .managementInstall serial neigh => execManagementInstall serial neigh s
  | .powerLimitThrottle => execPowerLimitThrottle s
  | .coreFault core unreadable => execCoreFault core unreadable s
  | .spareTakeoverDone die => execSpareTakeoverDone die s
  | .correctableError u idx count => execCorrectableError u idx count s
  | .storageLost far idx => execStorageLost far idx s
  | .linkTrained n waves neighbour => execLinkTrained n waves neighbour s
  | .linkTrainingFailed n => execLinkTrainingFailed n s
  | .wavelengthLost n => execWavelengthLost n s
  | .lightLost n => execLightLost n s
  | .linkManagementReset n => execLinkManagementReset n s
  | .flitReceive n flit => execFlitReceive n flit s
  | .nakReceive n seq => execNakReceive n seq s
  | .ackTimeout n => execAckTimeout n s
  | .rerouteResend m => execRerouteResend m s
  | .remoteRequest p => execRemoteRequest p s
  | .remoteReply p => execRemoteReply p s
  | .collectiveMatch cg seq posts => execCollectiveMatch cg seq posts s
  | .collectiveMatchTimeout cg seq => execCollectiveMatchTimeout cg seq s
  | .collectiveBucketStart cg seq b => execCollectiveBucketStart cg seq b s
  | .collectiveBucketDone cg seq b xs => execCollectiveBucketDone cg seq b xs s
  | .collectiveFailure cg seq cause m => execCollectiveFailure cg seq cause m s
  | .gangReadyReceived g m => execGangReadyReceived g m s
  | .gangCommitReceived g => execGangCommitReceived g s
  | .gangAbortReceived g lacked => execGangAbortReceived g lacked s
  | .gangQueryReceived g m => execGangQueryReceived g m s
  | .gangLeaderTimeout g => execGangLeaderTimeout g s
  | .gangQueryTimeout g => execGangQueryTimeout g s
  | .gangAnswerTimeout g => execGangAnswerTimeout g s
  | .linkLightDetected n => execLinkLightDetected n s
  | .gangDecisionExpiry g => execGangDecisionExpiry g s
  | .l2ReductionApplied die => execL2ReductionApplied die s
  | .interruptPacket h v c src tag => execInterruptPacket h v c src tag s
  | .sessionControlFlit str kind member key c fields => execSessionControlFlit str kind member key c fields s
  | .farWriteCompletion line => execFarWriteCompletion line s

/-- Whether an event happens in safe mode too (R363): what the host, Ovpol and the management controller do. -/
def Event.inSafe (e : Event) : Bool :=
  match e with
  | .hostRegisterWrite .. => true
  | .hostMemoryRead .. => true
  | .hostMemoryWrite .. => true
  | .packageReset .. => true
  | .managementInstall .. => true
  | .powerLimitThrottle => true
  | _ => false

/-- One act of the agenda. In safe mode only the Ovpol function runs (R363). -/
def runAct (a : Act) (s : State) : Out :=
  match a with
  | .issue h st => issue h st s
  | .event e => if s.safe && !e.inSafe then .next s else runEvent e s
  | .access off n w => hostAccess off n w s
  | .msiEntry p v m => msiEntry p v m s

-- Arbitration (R100) -------------------------------------------------------------------------------------------------

/-- Whether a group comes before another in an engine's choice (R100): starved streams by age, then priority, then age; half 0 counts as
older. -/
def before (n : Nat) (a b : Group) : Bool :=
  let older : Bool := a.age < b.age || (a.age == b.age && a.half ≤ b.half)
  let sa : Bool := (a.stream n).starved ≥ 64
  let sb : Bool := (b.stream n).starved ≥ 64
  if sa && sb then older
  else if sa then true
  else if sb then false
  else if a.prio != b.prio then b.prio < a.prio
  else older

/-- Insertion in the order of an engine's choice. -/
def insGroup (n : Nat) (g : Group) : List Group → List Group
  | [] => [g]
  | x :: xs => if before n g x then g :: x :: xs else x :: insGroup n g xs

/-- The groups of a core whose stream `n` stands at an instruction, in the order of the engine's choice. -/
def contenders (s : State) (core n : Nat) : List Group :=
  (s.groups.filter (fun g => g.core == core && mayIssue s g n)).foldl (fun l g => insGroup n g l) []

/-- Whether a stream is not READY: its issue would issue nothing (R97, R100). -/
def wouldBlock (s : State) (st : Stream) (g : Group) : Bool :=
  let u := s.focus g.handle
  match issueNext u st with
  | .next s1 => unissued u st.num s1
  | _ => false

/-- An engine's choice among contenders, in order: the first READY stream issues; those that are not READY try again behind it; the others
starve. The answer lists, for each, whether it is chosen and whether it starves. -/
def choose (s : State) (st : Stream) : List Group → Bool → List (W64 × Bool × Bool)
  | [], _ => []
  | g :: gs, taken =>
    if wouldBlock s st g then (g.handle, false, false) :: choose s st gs taken
    else (g.handle, !taken, taken) :: choose s st gs true

/-- The cores that hold groups, lowest first: what they do in one cycle is taken in that order, as R211 orders joins. -/
def busyCores (s : State) : List Nat := (s.groups.filter (fun g => g.slot < 4)).foldl (fun l g => insSorted g.core l) []

/-- The four streams. -/
def streams : List Stream := [.s, .v, .m, .c]

/-- One engine of a core: the acts of a cycle, and the consecutive cycles for which streams were READY and not chosen. Only one act takes
the issue slot (R100). -/
def arbitrate (s : State) (core : Nat) (st : Stream) : State :=
  let picks := choose s st (contenders s core st.num) false
  let starves := (picks.filter (fun p => p.2.2)).map (fun p => p.1)
  let s1 := s.updGroups (fun g => g.core == core && (starves.contains g.handle || (g.stream st.num).starved != 0)) (fun g =>
    g.updStream st.num (fun t => { t with starved := if starves.contains g.handle then t.starved + 1 else 0 }))
  s1.post (((picks.filter (fun p => p.2.1)) ++ (picks.filter (fun p => !p.2.1 && !p.2.2))).map (fun p => .issue p.1 st))

-- The clock ----------------------------------------------------------------------------------------------------------

/-- The elements of stream `n` of a group that are in execution (R188, R236, R246), the frame of its tile command, and what is taken at the
boundary of its copy stream (R331). -/
def streamEvents (s : State) (g : Group) (n : Nat) : List Event :=
  let h := g.handle
  match n with
  | 1 =>
    match g.vcmd with
    | none => []
    | some c => [if c.kind == .quant then .vquantGroup h else .vectorElement h]
  | 2 =>
    match g.mcmd with
    | none => []
    | some c =>
      let t := s.str g.strNo
      let leads := g.role == 2 || (talkerOf s g.strNo).any (fun x => x.handle == h)
      if c.inFrame then (if !t.isIn && leads then [.tileElement h (0, 0) [] []] else [])
      else if g.role == 2 || (!t.isIn && leads && frameDue s g.strNo) then [.frameStart h 0 []]
      else []
  | 3 =>
    (if g.ccmd.isSome then [.copyElement h] else []) ++ (if g.asyncs.isEmpty then [] else [.asyncFaultDelivery h])
  | _ => []

/-- What the device does on its own for a group, beside the elements of its streams. -/
def groupEvents (s : State) (g : Group) : List Event :=
  let h := g.handle
  (if g.trapDue then [.trapDelivery h] else []) ++
  (if g.flight.any (fun f => f.due ≤ g.vcyc) then [.vectorResultWrite h] else []) ++
  (if g.vld.isSome && g.st != .saved && !g.hmode then [.vldChecksDecided h] else []) ++
  ([0, 1, 2, 3].filter (fun n => g.st == .running && (g.stream n).run == .draining)).map (fun n => .streamEnded h (BitVec.ofNat 2 n)) ++
  (if g.preq && !g.saving && g.predl ≤ s.cycle && (g.st == .running || g.st == .handler) then [.preemptionDeadline h] else []) ++
  (if g.saving then [.groupSave h] else []) ++
  (if (g.st == .stopping || g.st == .retiring) && !g.retired then [.groupRetire h] else []) ++
  (if g.snap.isSome || s.proms.any (fun p => p.target == h && p.ans.isNone) then [.promotion h] else [])

/-- What a queue does on its own. -/
def queueEvents (s : State) (q : Nat × Queue) : List Event :=
  let n : BitVec 15 := BitVec.ofNat 15 q.1
  let x := q.2
  (if x.st == .ready && x.pending != 0 then [.packetTake n] else []) ++
  (if x.pkts.any (fun p => !p.captured && p.open) then [.parameterBlockRead n] else []) ++
  (if x.pkts.any (fun p => p.spillFrom.any (fun c => !p.spilled && c + fieldOf p.place 59 56 * 1024 ≤ s.cycle)) then [.spillExpiry n] else []) ++
  (x.pkts.filter Pkt.over).map (fun p => .packetComplete n (BitVec.ofNat 16 p.seq))

/-- What a gang does on its own. -/
def gangEvents (s : State) (x : Gang) : List Event :=
  (if x.st == .tentative && leads s x && gangLate s x 1 x.since then [.gangLeaderTimeout x.id] else []) ++
  (if x.st == .tentative && !leads s x && x.asked.isNone && gangLate s x 2 x.since then [.gangQueryTimeout x.id] else []) ++
  (if x.st == .tentative && x.asked.any (fun t => gangLate s x 1 t) then [.gangAnswerTimeout x.id] else []) ++
  (if x.decided.isSome && x.decidedAt + 2 ^ 26 ≤ s.cycle then [.gangDecisionExpiry x.id] else [])

/-- What a string does on its own: the durations of a failover and a calibration are timing (log entry 18). -/
def strEvents (s : State) (n : Nat) : List Event :=
  let t := s.str n
  (if t.waiting.isEmpty then [] else [.joinAdmitted (BitVec.ofNat 3 n)]) ++
  (if t.failing then [.combFailoverDone (BitVec.ofNat 3 n)] else []) ++
  (if t.cal.isSome then [.calibrationDone (BitVec.ofNat 3 n) (0, [])] else []) ++
  (if 6 ≤ n && fibMode s (n - 6) != t.mode && t.sess == .free && t.cal.isNone then [.fibmodeApply (BitVec.ofNat 1 (n - 6))] else [])

/-- The lowest number from `k` on that an ascending list does not hold. -/
def firstOut : Nat → List Nat → Nat
  | k, [] => k
  | k, x :: xs => if x == k then firstOut (k + 1) xs else k

/-- The posts of the other members of a collective, once all of them are here (R352). -/
def otherPosts (s : State) (c : Coll) : Option (List (W64 × W64)) :=
  (c.mods.filter (fun m => m != s.modid)).foldr (fun m acc => acc.bind (fun l =>
    (s.slots.find? (fun x => x.kind == 0 && x.about c.blk.cg c.blk.seq && x.m == m)).map (fun x =>
      (x.words.getD 0 0, x.words.getD 1 0) :: l))) (some [])

/-- What the collective engine does on its own: a member cannot be reached, or has not posted in time; the posts are compared; the next bucket
is joined, and those that every member has contributed to are written (R352, R353, R357); all of it while it is READY (R367). -/
def collEvents (s : State) (c : Coll) : List Event :=
  let cg : BitVec 8 := BitVec.ofNat 8 c.blk.cg
  let seq : BitVec 32 := BitVec.ofNat 32 c.blk.seq
  if s.ready.getD 153 0 != 1 then [] else
  match c.mods.find? (fun m => m != s.modid && (routeTo s m).isNone) with
  | some m => [.collectiveFailure cg seq 4 (BitVec.ofNat 6 m)]
  | none =>
    if c.matched then
      (if firstOut 0 c.started < c.buckets then [.collectiveBucketStart cg seq (BitVec.ofNat 32 (firstOut 0 c.started))] else []) ++
      (c.started.filter (fun b => !c.ended.contains b)).filterMap (fun b =>
        (c.allParts s b).map (fun xs => .collectiveBucketDone cg seq (BitVec.ofNat 32 b) xs))
    else
      match otherPosts s c with
      | some ps => [.collectiveMatch cg seq ps]
      | none => if c.since + 2 ^ 26 ≤ s.cycle then [.collectiveMatchTimeout cg seq] else []

/-- What the links do on their own. -/
def linkEvents (s : State) : List Event :=
  ((List.range 16).filter (fun n => linkUsable s n && !(s.link n).unacked.isEmpty && (s.link n).since + 2 ^ 16 ≤ s.cycle)).map
    (fun n => .ackTimeout (BitVec.ofNat 4 n)) ++
  ((List.range 64).filter (fun m => (s.dest m).reroute.any (fun t => (s.dest m).unans.isEmpty || t + 2 ^ 20 ≤ s.cycle))).map
    (fun m => .rerouteResend (BitVec.ofNat 6 m))

/-- What the memory system and the engines of the L-die do on their own. -/
def memEvents (s : State) : List Event :=
  ((List.range 4).filter (fun n => !(s.ndie n).queue.isEmpty)).map (fun n => .writeQueueRequest (BitVec.ofNat 2 n)) ++
  ((List.range 12).filter (fun d => !(s.die d).reds.isEmpty)).map (fun d => .l2ReductionApplied (BitVec.ofNat 4 d)) ++
  ((List.range 4).flatMap (fun n => (s.ndie n).farWrites)).map (fun l => .farWriteCompletion (BitVec.ofNat 45 l)) ++
  ((List.range 4).filter (fun n => (s.ndie n).ftcBusy)).map (fun n => .ftcChangeDone (BitVec.ofNat 2 n)) ++
  ((List.range 12).filter (fun d => (s.die d).moving.isSome)).map (fun d => .spareTakeoverDone (BitVec.ofNat 4 d)) ++
  (if s.loading.isSome then [.kernelLoadReadDone] else []) ++
  ([0, 1].flatMap (fun e => (List.range ((s.migActive.getD e []).length)).reverse.map (fun n =>
    .migrationStep (BitVec.ofNat 1 e) (BitVec.ofNat 4 n))))

/-- The conversions of local banks in progress on the cores that hold groups. -/
def bankEvents (s : State) (c : Nat) : List Event :=
  (List.range 32).flatMap (fun b =>
    match (s.core c).banks[b]? with
    | none => []
    | some k =>
      match k.mode with
      | .drainF => [.bankFillDone (BitVec.ofNat 7 c) (BitVec.ofNat 5 b)]
      | .drainW => [.bankWritebackDone (BitVec.ofNat 7 c) (BitVec.ofNat 5 b)]
      | _ => [])

/-- The command of the host that is BUSY waiting: an OPEN or RESUME for its descriptor, an ENABLE for its own, a DISABLE for its packets
(Tables 4-2 and 7-2), a submission to MIGH (R346). -/
def commandEvents (s : State) : List Event :=
  let c : BitVec 8 := BitVec.ofNat 8 (fieldOf s.host.ctxcmd 15 8)
  let q : BitVec 15 := BitVec.ofNat 15 (fieldOf s.host.qcmd 30 16)
  (if fieldOf s.host.ctxcmd 63 63 == 0 then []
    else if fieldOf s.host.ctxcmd 3 0 == 1 then [.ctxOpen c] else if fieldOf s.host.ctxcmd 3 0 == 3 then [.ctxResume c] else []) ++
  (if fieldOf s.host.qcmd 63 63 == 0 then []
    else if fieldOf s.host.qcmd 3 0 == 1 then [.queueEnable q] else if fieldOf s.host.qcmd 3 0 == 2 then [.queueDisable q] else []) ++
  (s.mighWait.map (fun v => Event.migh v)).toList

/-- What Ovpol and the host's commands still have to do: functions that start (R365, R367), cores that have failed (R335), commands that wait. -/
def bootEvents (s : State) : List Event :=
  ((List.range 161).filter (canStart s)).map (fun f => .functionReady (BitVec.ofNat 8 f)) ++
  ((List.range 96).filter (fun c => (s.core c).failing.isSome)).map (fun c => .coreFault (BitVec.ofNat 7 c) []) ++
  commandEvents s

/-- Everything that the device does on its own in a cycle, in the order of the model (log entry 3). -/
def clockEvents (s : State) : List Event :=
  s.groups.flatMap (groupEvents s) ++ (busyCores s).flatMap (bankEvents s) ++ (List.range 8).flatMap (strEvents s) ++ memEvents s ++
  linkEvents s ++ s.gangs.flatMap (gangEvents s) ++ s.colls.flatMap (collEvents s) ++
  ((s.proms.filter (fun p => (s.groupOf p.target).isNone && p.ans.isNone)).map (fun p => .promotion p.target)) ++
  s.queues.flatMap (queueEvents s) ++ (if s.queues.isEmpty then [] else [.groupDispatch]) ++ bootEvents s

/-- The frame waits that end in a cycle, behind the frames that start in it: a command that starts prevents the fault (R214). -/
def lateEvents (s : State) : List Event := (s.groups.filter (frameLate s)).map (fun g => .sessionTimeout g.handle)

/-- What one engine does in a cycle on every core that holds a group: the issues that arbitration has chosen, then the elements in execution. -/
def engineActs (s : State) (st : Stream) : State :=
  let s1 := (busyCores s).foldl (fun s c => arbitrate s c st) s
  s1.post ((s.groups.flatMap (fun g => streamEvents s g st.num) ++ (if st.num == 2 then lateEvents s else [])).map .event)

/-- What has waited for a turn of the links or of a host port goes out (R343, R205, R369), and PHASE follows the functions (R364). -/
def flushAll (s : State) : State := flushMsi (sendNotes (flushOutbox { s with phase := phaseOf s }))

/-- A core cycle begins: the clock advances, and what the device does in it is put on the agenda (R4, R100), the engines in the order S, V, M, C,
in which the streams' faults of a cycle are taken (R64). In safe mode nothing runs (R363). -/
def tick (s : State) : State :=
  let s1 : State := { s with cycle := s.cycle + 1 }
  if s1.safe then s1
  else
    let s2 := flushAll s1
    streams.foldl engineActs (s2.post ((clockEvents s2).map .event))

end Sys2Proof.Machine
end

