-- ==== Sys2Proof/Machine/Step.lean ====
section
/-! DEFINITION. The step of the module: the first act of the agenda, or, with the agenda empty, the clock (log entry 3). -/

namespace Sys2Proof.Machine

/-- One step: the act at the head of the agenda is taken off and runs; with none, a core cycle begins. -/
def step (s : State) : Host.Outcome State Fault Refusal :=
  match s.agenda with
  | [] => .next (tick s)
  | a :: rest => runAct a { s with agenda := rest }

/-- The physical address of the page that `State.withFetchWord` maps at virtual address 0 of context 0. -/
def fetchPage : Nat := 0x10000000

/-- The TLB entry of that page: a 64 KiB leaf, readable, writable and executable (R315, R316). -/
def fetchEnt : TlbEnt := { ctx := 0, lvl := 4, vpn := 0, leaf := BitVec.ofNat 64 (fetchPage + 0x33), leafPa := 0 }

/-- A group that has just been placed on core 0, slot 0, whose stream `st` has its code at virtual address 0 and whose
other streams have none (R98, R99). -/
def fetchGroup (st : Stream) : Group :=
  let g : Group := { Group.empty with st := .running, handle := 1 }
  g.updStream st.num (fun _ => { StreamSt.off with run := .ready, result := 0xFFFF })

/-- A state in which a group on core 0 issues the word next, from the stream whose encoding the decoder finds it in (log
entries 4, 5). A program comes to run by a launch; this stands for one. -/
def State.withFetchWord (s : State) (nbits w : Nat) : State :=
  let st := match decodeAny (BitVec.ofNat 32 (w % 2 ^ nbits)) with
    | some (st, _) => st
    | none => .s
  let line := fetchPage / 128
  let s1 : State :=
    { s with
      safe := false, ready := updAt (updAt (updAt s.ready 0 (fun _ => 1)) 96 (fun _ => 1)) (unitOf fetchPage) (fun _ => 1), grp := fetchGroup st,
      others := s.others.filter (fun g => g.handle != 1),
      mem := Memory.write s.mem fetchPage 4 (w % 2 ^ nbits % 2 ^ 32),
      lost := s.lost.filter (fun x => x != 0), badBlocks := s.badBlocks.filter (fun b => b != 2 * line && b != 2 * line + 1),
      freed := (defLine s line).freed, agenda := .issue 1 st :: s.agenda }
  let s2 : State := (s1.updCtx 0 (fun c => { c with st := .opened })).updCore 0 (fun c =>
    { c with tlb := [fetchEnt], l1 := c.l1.filter (fun l => l.line != line), failing := none, slots := [0, 0, 0, 0] })
  (s2.updDie 0 (fun d => { d with l2 := d.l2.filter (fun l => l.line != line), moving := none })).updNDie 0 (fun n =>
    { n with queue := n.queue.filter (fun r => r.pa / 128 != line) })

end Sys2Proof.Machine
end

