-- ==== Sys2Proof/Safety.lean ====
section
/-! DEFINITION. The terms in which the statements speak: what counts as a safe run (every step answers a next state and memory keeps its
canonical form), which states an instruction completes in, and what its frame leaves unchanged. -/

namespace Sys2Proof.Machine

-- Safe runs ----------------------------------------------------------------------------------------------------------

/-- A step answers a next state: the model does not stop. -/
def Runs (o : Out) : Prop := ∃ t, o = .next t

/-- Memory is in its canonical form (log entry 2). -/
def Canonical (s : State) : Prop := Memory.wf s.mem = true

-- Where instructions complete ----------------------------------------------------------------------------------------

/-- A group is in focus, so that an encoded instruction has a group to act on. -/
def Placed (s : State) : Prop := s.grp.st ≠ .none

/-- No reduction of scope up to `sc` is pending or has left a fault, so that a reduction-ordering instruction goes on (R148). -/
def RedQuiet (s : State) (sc : Nat) : Prop :=
  redPending s s.grp.handle sc = false ∧ s.grp.redFaults.find? (fun f => f.2 ≤ sc) = none

/-- The pops of an instruction find tokens whose producers count, and its pushes find room (R103, R105). -/
def TokOpen (s : State) (st : Nat) (p q : BitVec 3) : Prop := tokCheck s st p q = .ok () s

/-- The state of a vector instruction at its issue, with the results due written: it waits for no token, no undecided `vld` and no
result slot (R156, R159, R185). -/
def VOpen (s : State) (p q : BitVec 3) (names : List Nat) (mem mk : Bool) : Prop :=
  vGate (retireDue s) p q names mem mk = .ok () (retireDue s)

/-- The state after a vector instruction that makes the result `r` with latency `lam` (R158): pops made, pushes reserved, the result in
flight, the next word, one stream cycle more. -/
def vMade (s : State) (p q : BitVec 3) (lam : Nat) (r : VRes) : State :=
  let s1 := tokIssue (retireDue s) 1 p q
  vTick ((s1.updGrp (fun g => { g with
    flight := g.flight ++ [{ isMask := r.isMask, num := r.num, vals := r.vals, kval := r.kval, lanes := r.lanes, part := r.part,
                             due := g.vcyc + lam, push := q }] })).advance 1)

/-- The state after a vector instruction that completes at its issue in the state `s1` that its effect leaves (R103, R156). -/
def vDone (s1 : State) (p q : BitVec 3) : State := vTick (tokBoth (clearRemote s1 1) 1 p q)

/-- The state after a matrix or copy instruction that completes at its issue in the state `s1` that its effect leaves (R103). -/
def tDone (s1 : State) (st : Nat) (p q : BitVec 3) : State := (tokBoth (clearRemote s1 st) st p q).advance st

-- Frames -------------------------------------------------------------------------------------------------------------

/-- `t` differs from `s` at most in the scalar register `d` and in the scalar stream's pc and run state: no other register, no mask,
no status, no special register, no byte of memory. -/
def ScalarFrame (d : BitVec 5) (s t : State) : Prop :=
  t = { s with grp := { s.grp with gregs := t.grp.gregs, ss := { s.grp.ss with pc := t.grp.ss.pc, run := t.grp.ss.run } } } ∧
  ∀ r, r ≠ d → t.x r = s.x r

/-- The scalar register that an instruction of the register and immediate families writes (Tables 8-1 to 8-4). -/
def scalarDest : Instr → Option (BitVec 5)
  | .add d _ _ | .sub d _ _ | .and d _ _ | .or d _ _ | .xor d _ _ | .andn d _ _ | .shl d _ _ | .shrN d _ _ | .shrI d _ _
  | .cmpltI d _ _ | .cmpltN d _ _ | .minI d _ _ | .maxI d _ _ | .minN d _ _ | .maxN d _ _ | .mul d _ _ | .mulhiI d _ _ | .mulhiN d _ _
  | .quoI d _ _ | .quoN d _ _ | .rmdI d _ _ | .rmdN d _ _ | .sel d _ _ _ | .clz d _ | .ctz d _ | .popc d _ | .bswap d _
  | .addi d _ _ | .andi d _ _ | .ori d _ _ | .xori d _ _ | .cmpltiI d _ _ | .cmpltiN d _ _ | .shli d _ _ | .shriN d _ _ | .shriI d _ _
  | .immLo d _ | .immCat d _ | .pcadd d _ | .bmodeQuery d _ => some d
  | _ => none

end Sys2Proof.Machine
end

