-- ==== Sys2Proof/Certificates/Slice0/Obligations.lean ====
section
/-! DEFINITION. The statements: what the instructions and the events of the machine do, each from the rules that its docstring names. The
terms they share stand in `Safety.lean`. -/

open Sys2Proof Sys2Proof.Machine

-- Scalar registers -----------------------------------------------------------------------------------------------------

/-- R128, R129 (Tables 8-1 and 8-2): every register form of the scalar arithmetic completes, with the result of its table in gD and the
next word, for every operand value; nothing else changes, since the next state is that write and that step of the pc. R129 (Table 8-2):
dividing by zero gives all ones and leaves the dividend as the remainder; the most negative number divided by -1 gives itself, with
remainder 0. -/
def Obligations.ScalarRegisterForms : Prop :=
  (∀ (d a b : BitVec 5) (s : State), Placed s →
      let x := s.x a
      let y := s.x b
      let n := fieldOf y 5 0
      let w (v : W64) : Out := .next ((s.setX d v).advance 0)
      exec (.add d a b) s = w (x + y) ∧ exec (.sub d a b) s = w (x - y) ∧ exec (.and d a b) s = w (x &&& y) ∧
      exec (.or d a b) s = w (x ||| y) ∧ exec (.xor d a b) s = w (x ^^^ y) ∧ exec (.andn d a b) s = w (x &&& ~~~y) ∧
      exec (.shl d a b) s = w (x <<< n) ∧ exec (.shrN d a b) s = w (x >>> n) ∧ exec (.shrI d a b) s = w (x.sshiftRight n) ∧
      exec (.cmpltI d a b) s = w (if x.toInt < y.toInt then 1 else 0) ∧ exec (.cmpltN d a b) s = w (if x.toNat < y.toNat then 1 else 0) ∧
      exec (.minI d a b) s = w (if x.toInt < y.toInt then x else y) ∧ exec (.maxI d a b) s = w (if x.toInt < y.toInt then y else x) ∧
      exec (.minN d a b) s = w (if x.toNat < y.toNat then x else y) ∧ exec (.maxN d a b) s = w (if x.toNat < y.toNat then y else x) ∧
      exec (.mul d a b) s = w (x * y) ∧ exec (.mulhiI d a b) s = w (BitVec.ofInt 64 (x.toInt * y.toInt / 2 ^ 64)) ∧
      exec (.mulhiN d a b) s = w (BitVec.ofNat 64 (x.toNat * y.toNat / 2 ^ 64)) ∧
      (y ≠ 0 → exec (.quoI d a b) s = w (BitVec.ofInt 64 (x.toInt.tdiv y.toInt)) ∧ exec (.quoN d a b) s = w (BitVec.ofNat 64 (x.toNat / y.toNat)) ∧
        exec (.rmdI d a b) s = w (BitVec.ofInt 64 (x.toInt.tmod y.toInt)) ∧ exec (.rmdN d a b) s = w (BitVec.ofNat 64 (x.toNat % y.toNat)))) ∧
  (∀ (d a b : BitVec 5) (s : State), Placed s →
      let w (v : W64) : Out := .next ((s.setX d v).advance 0)
      (s.x b = 0 → exec (.quoI d a b) s = w (BitVec.allOnes 64) ∧ exec (.quoN d a b) s = w (BitVec.allOnes 64) ∧
        exec (.rmdI d a b) s = w (s.x a) ∧ exec (.rmdN d a b) s = w (s.x a)) ∧
      (s.x a = BitVec.ofNat 64 (2 ^ 63) → s.x b = BitVec.allOnes 64 →
        exec (.quoI d a b) s = w (BitVec.ofNat 64 (2 ^ 63)) ∧ exec (.rmdI d a b) s = w 0)) ∧
  (∀ x y : W64, y ≠ 0 → BitVec.ofInt 64 (x.toInt.tdiv y.toInt) * y + BitVec.ofInt 64 (x.toInt.tmod y.toInt) = x ∧
    BitVec.ofNat 64 (x.toNat / y.toNat) * y + BitVec.ofNat 64 (x.toNat % y.toNat) = x) ∧
  (∀ (d a b : BitVec 5) (k : Nat),
    let w (p n : Nat) : W32 := BitVec.ofNat 32 (p * 2 ^ 25 + d.toNat * 2 ^ 20 + a.toNat * 2 ^ 15 + b.toNat * 2 ^ 10 + n)
    let is (p n : Nat) (i : Instr) : Prop := decode .s (w p n) = .ok i
    is 1 0 (.add d a b) ∧ is 1 1 (.sub d a b) ∧ is 1 2 (.and d a b) ∧ is 1 3 (.or d a b) ∧ is 1 4 (.xor d a b) ∧ is 1 5 (.andn d a b) ∧
    is 1 6 (.shl d a b) ∧ is 1 7 (.shrN d a b) ∧ is 1 8 (.shrI d a b) ∧ is 1 9 (.cmpltI d a b) ∧ is 1 10 (.cmpltN d a b) ∧
    is 1 11 (.minI d a b) ∧ is 1 12 (.maxI d a b) ∧ is 1 13 (.minN d a b) ∧ is 1 14 (.maxN d a b) ∧ is 2 0 (.mul d a b) ∧
    is 2 1 (.mulhiI d a b) ∧ is 2 2 (.mulhiN d a b) ∧ is 2 3 (.quoI d a b) ∧ is 2 4 (.quoN d a b) ∧ is 2 5 (.rmdI d a b) ∧ is 2 6 (.rmdN d a b) ∧
    (15 ≤ k → k < 1024 → decode .s (w 1 k) = .error .function) ∧ (7 ≤ k → k < 1024 → decode .s (w 2 k) = .error .function)) ∧
  decode .s 0x02321400#32 = .ok (.add 3 4 5) ∧ decode .s 0x04321403#32 = .ok (.quoI 3 4 5)

/-- R130 to R133, R45: the selecting, counting and immediate forms complete with the results of their tables; `nop` only takes the next
word; a write to g0 is discarded. R130 to R132: the words of the forms, and the words that are refused (RSV bits, function values 5 to 31, FN 3 of the
immediate shifts); the IMM15 of primaries 0x04 to 0x0A is a field that a patch may name (R49). The worked words are the manual's. -/
def Obligations.ScalarImmediateForms : Prop :=
  (∀ (d a b c : BitVec 5) (i : BitVec 15) (n : BitVec 6) (j : BitVec 20) (s : State), Placed s →
    let x := s.x a
    let m : W64 := i.signExtend 64
    let w (v : W64) : Out := .next ((s.setX d v).advance 0)
    exec (.sel d a b c) s = w (if s.x c = 0 then s.x b else x) ∧
    (∃ k : Nat, exec (.clz d a) s = w (BitVec.ofNat 64 k) ∧ k ≤ 64 ∧ (∀ h, h < k → x.getLsbD (63 - h) = false) ∧ (k < 64 → x.getLsbD (63 - k) = true)) ∧
    (∃ k : Nat, exec (.ctz d a) s = w (BitVec.ofNat 64 k) ∧ k ≤ 64 ∧ (∀ h, h < k → x.getLsbD h = false) ∧ (k < 64 → x.getLsbD k = true)) ∧
    exec (.popc d a) s = w (BitVec.ofNat 64 ((List.range 64).countP (fun h => x.getLsbD h))) ∧
    (∃ v : W64, exec (.bswap d a) s = w v ∧ ∀ h, h < 8 → v.extractLsb' (8 * h) 8 = x.extractLsb' (8 * (7 - h)) 8) ∧
    exec (.addi d a i) s = w (x + m) ∧ exec (.andi d a i) s = w (x &&& m) ∧ exec (.ori d a i) s = w (x ||| m) ∧ exec (.xori d a i) s = w (x ^^^ m) ∧
    exec (.cmpltiI d a i) s = w (if x.toInt < m.toInt then 1 else 0) ∧ exec (.cmpltiN d a i) s = w (if x.toNat < m.toNat then 1 else 0) ∧
    exec (.shli d a n) s = w (x <<< n.toNat) ∧ exec (.shriN d a n) s = w (x >>> n.toNat) ∧ exec (.shriI d a n) s = w (x.sshiftRight n.toNat) ∧
    exec (.immLo d j) s = w (j.signExtend 64) ∧ exec (.immCat d j) s = w ((s.x d <<< 20) + j.setWidth 64) ∧
    exec (.pcadd d j) s = w (s.pc 0 + 4 * j.signExtend 64) ∧ exec .nop s = .next (s.advance 0) ∧ ∀ v, s.setX 0 v = s) ∧
  (∀ (d a b c : BitVec 5) (i : BitVec 15) (n : BitVec 6) (j : BitVec 20) (k : Nat), k < 2 ^ 15 →
    let w (p x : Nat) : W32 := BitVec.ofNat 32 (p * 2 ^ 25 + d.toNat * 2 ^ 20 + a.toNat * 2 ^ 15 + x)
    let is (p x : Nat) (q : Instr) : Prop := decode .s (w p x) = .ok q
    is 3 (b.toNat * 2 ^ 10 + c.toNat * 2 ^ 5) (.sel d a b c) ∧ is 3 1 (.clz d a) ∧ is 3 2 (.ctz d a) ∧ is 3 3 (.popc d a) ∧ is 3 4 (.bswap d a) ∧
    (5 ≤ k % 32 ∨ (k % 32 ≠ 0 ∧ k ≠ k % 32) → decode .s (w 3 k) = .error .function) ∧
    is 4 i.toNat (.addi d a i) ∧ is 5 i.toNat (.andi d a i) ∧ is 6 i.toNat (.ori d a i) ∧ is 7 i.toNat (.xori d a i) ∧
    is 9 i.toNat (.cmpltiI d a i) ∧ is 10 i.toNat (.cmpltiN d a i) ∧
    is 8 n.toNat (.shli d a n) ∧ is 8 (2 ^ 13 + n.toNat) (.shriN d a n) ∧ is 8 (2 ^ 14 + n.toNat) (.shriI d a n) ∧
    (k / 2 ^ 13 = 3 ∨ k / 2 ^ 6 % 2 ^ 7 ≠ 0 → decode .s (w 8 k) = .error .function) ∧
    decode .s (BitVec.ofNat 32 (0xB * 2 ^ 25 + d.toNat * 2 ^ 20 + j.toNat)) = .ok (.immLo d j) ∧
    decode .s (BitVec.ofNat 32 (0xC * 2 ^ 25 + d.toNat * 2 ^ 20 + j.toNat)) = .ok (.immCat d j) ∧
    decode .s (BitVec.ofNat 32 (0xD * 2 ^ 25 + d.toNat * 2 ^ 20 + j.toNat)) = .ok (.pcadd d j)) ∧
  (∀ p, (0x04 ≤ p → p ≤ 0x0A → patchFields 0 p = [(14, 0)]) ∧ (0x0B ≤ p → p ≤ 0x0D → patchFields 0 p = [(19, 0)])) ∧
  decode .s 0x06329880#32 = .ok (.sel 3 5 6 4) ∧ decode .s 0x0873FFFF#32 = .ok (.addi 7 7 0x7FFF) ∧ decode .s 0x1C000000#32 = .ok .nop ∧
  decode .s 0x10214003#32 = .ok (.shriI 2 2 3) ∧ decode .s 0x165FFFFE#32 = .ok (.immLo 5 0xFFFFE)

/-- Table 1-3, R48, R97: a write to `g0` is discarded and `g0` reads zero; a write to another register is read back and leaves the others
and everything but the scalar registers unchanged; taking the next word adds 4 to the pc of its stream alone and leaves the stream
READY. -/
def Obligations.RegisterWrites : Prop :=
  ∀ (d r : BitVec 5) (v : W64) (s : State), s.grp.gregs.length = 32 →
    (s.setX 0 v = s) ∧ (s.x 0 = 0) ∧
    (d ≠ 0 → (s.setX d v).x d = v) ∧ (r ≠ d → (s.setX d v).x r = s.x r) ∧
    (s.setX d v = { s with grp := { s.grp with gregs := (s.setX d v).grp.gregs } }) ∧
    (s.advance 0 = { s with grp := { s.grp with ss := { s.grp.ss with pc := s.grp.ss.pc + 4, run := .ready } } }) ∧
    (s.advance 1 = { s with grp := { s.grp with vs := { s.grp.vs with pc := s.grp.vs.pc + 4, run := .ready } } }) ∧
    (s.advance 2 = { s with grp := { s.grp with ms := { s.grp.ms with pc := s.grp.ms.pc + 4, run := .ready } } }) ∧
    (s.advance 3 = { s with grp := { s.grp with cs := { s.grp.cs with pc := s.grp.cs.pc + 4, run := .ready } } })

/-- The frame of the register, immediate and bank-query forms (R127, R48): whatever the operands, such an instruction changes at most the
register it names as destination and the scalar stream's pc and run state: no other register, status, special register, accumulator or
exception register, and no byte of memory. -/
def Obligations.ScalarFrames : Prop :=
  ∀ (i : Instr) (d : BitVec 5) (s t : State), scalarDest i = some d → exec i s = .next t → ScalarFrame d s t

/-- R134: a compare and branch takes pc + 4 × sext(OFF15) where its condition holds, and the next word where it does not; it writes no
register. R90, R92: outside every open level and in handler mode a taken branch changes the pc alone. R90: a taken branch inside the
innermost open level keeps every level; at its `end` it completes the iteration, as R86 says: what the stream does next there, its
iteration-end step, takes it to the body's first word with the index one higher, or, in the last iteration, closes the level and goes on
at `end`; any other target abandons every level of the stream, with no stride added or taken back, and leaves the loop state of the other
streams alone. -/
def Obligations.ScalarBranches : Prop :=
  (∀ (a b : BitVec 5) (o : BitVec 15) (s : State), Placed s →
      let x := s.x a
      let y := s.x b
      let w (p : Prop) [Decidable p] : Out := .next (if p then s.branch 0 (s.pc 0 + 4 * o.signExtend 64) else s.advance 0)
      exec (.beq a b o) s = w (x = y) ∧ exec (.bne a b o) s = w (x ≠ y) ∧ exec (.bltI a b o) s = w (x.toInt < y.toInt) ∧
      exec (.bgeI a b o) s = w (y.toInt ≤ x.toInt) ∧ exec (.bltN a b o) s = w (x.toNat < y.toNat) ∧ exec (.bgeN a b o) s = w (y.toNat ≤ x.toNat) ∧
      ((s.grp.ss.levels = [] ∨ s.grp.hmode = true) → ∀ p, s.branch 0 p = s.setPc 0 p)) ∧
  (∀ (p : W64) (l : OpenLevel) (ls : List OpenLevel) (s : State), s.grp.hmode = false → s.grp.ss.levels = l :: ls →
      (s.branch 0 p).grp.ss.pc = p ∧ (s.branch 0 p).grp.ss.run = .ready ∧
      (l.start ≤ p.toNat → p.toNat ≤ l.stop → (s.branch 0 p).grp.ss.levels = l :: ls) ∧
      (p.toNat < l.start ∨ l.stop < p.toNat → (s.branch 0 p).grp.ss.levels = []) ∧
      (s.branch 0 p).grp.vs = s.grp.vs ∧ (s.branch 0 p).grp.ms = s.grp.ms ∧ (s.branch 0 p).grp.cs = s.grp.cs ∧
      (s.branch 0 p).grp.gregs = s.grp.gregs ∧ (s.branch 0 p).mem = s.mem ∧
      (p.toNat = l.stop → s.strm = .s → Placed s → ∃ t, exec .loopIterationEnd (s.branch 0 p) = .next t ∧
        (l.idx + 1 < (s.grp.loopEnt l.lvl).count →
          t.grp.ss.levels = { l with idx := l.idx + 1 } :: ls ∧ t.grp.ss.pc = BitVec.ofNat 64 l.start) ∧
        ((s.grp.loopEnt l.lvl).count ≤ l.idx + 1 → t.grp.ss.levels = ls ∧ t.grp.ss.pc = p)) ∧
      (p.toNat = l.stop → issueNext (s.branch 0 p) .s = exec .loopIterationEnd { s.branch 0 p with strm := .s })) ∧
  (∀ (a b : BitVec 5) (o : BitVec 15) (s : State), Placed s →
    let w (p : Nat) : W32 := BitVec.ofNat 32 (p * 2 ^ 25 + a.toNat * 2 ^ 20 + b.toNat * 2 ^ 15 + o.toNat)
    decode .s (w 0x10) = .ok (.beq a b o) ∧ decode .s (w 0x11) = .ok (.bne a b o) ∧ decode .s (w 0x12) = .ok (.bltI a b o) ∧
    decode .s (w 0x13) = .ok (.bgeI a b o) ∧ decode .s (w 0x14) = .ok (.bltN a b o) ∧ decode .s (w 0x15) = .ok (.bgeN a b o) ∧
    exec (.beq a a 0) s = .next (s.branch 0 (s.pc 0))) ∧
  decode .s 0x22707FFD#32 = .ok (.bne 7 0 0x7FFD)

/-- R135: `jmp` writes pc + 4 to gD and continues at pc + 4 × sext(OFF20); `jmpr` takes t = gA + 4 × sext(IMM15), with gA read before the
link is written, writes pc + 4 to gD and continues at t, also where t has nonzero bits 63:57; a t that is not a multiple of 4 raises
ALIGN with t as its address, with no link and no jump. With gD = g0 the link is discarded. A patch may name the IMM15 of `jmpr` and no field
of `jmp`. The worked word is that of `jmpr g30, g12, 16`.
(What a jump does to open loop levels is R90's, stated with the branches.) -/
def Obligations.Jumps : Prop :=
  (∀ (d a : BitVec 5) (o : BitVec 20) (i : BitVec 15) (s : State), Placed s →
    let t := s.x a + 4 * i.signExtend 64
    exec (.jmp d o) s = .next ((s.setX d (s.pc 0 + 4)).branch 0 (s.pc 0 + 4 * o.signExtend 64)) ∧
    (t.toNat % 4 = 0 → exec (.jmpr d a i) s = .next (clearRemote ((s.setX d (s.pc 0 + 4)).branch 0 t) 0)) ∧
    (t.toNat % 4 ≠ 0 → exec (.jmpr d a i) s = .next (raise s 0 (exc cALIGN t.toNat) none)) ∧
    (∀ p, (s.branch 0 p).pc 0 = p ∧ ∀ r, (s.branch 0 p).x r = s.x r) ∧
    s.setX 0 (s.pc 0 + 4) = s ∧ (d ≠ 0 → s.grp.gregs.length = 32 → (s.setX d (s.pc 0 + 4)).x d = s.pc 0 + 4) ∧
    decode .s (BitVec.ofNat 32 (0x16 * 2 ^ 25 + d.toNat * 2 ^ 20 + o.toNat)) = .ok (.jmp d o) ∧
    decode .s (BitVec.ofNat 32 (0x17 * 2 ^ 25 + d.toNat * 2 ^ 20 + a.toNat * 2 ^ 15 + i.toNat)) = .ok (.jmpr d a i)) ∧
  patchFields 0 0x17 = [(14, 0)] ∧ patchFields 0 0x16 = [] ∧ decode .s 0x2FE60004#32 = .ok (.jmpr 30 12 4)

-- Scalar memory ----------------------------------------------------------------------------------------------------------

/-- R137, R138: a load whose address is aligned and readable (R140) completes: the object, sign- or zero-extended, goes to gD, and the next
word is taken; nothing else changes beyond what the access itself brings into the caches (`s1`). -/
def Obligations.ScalarLoads : Prop :=
  ∀ (d a : BitVec 5) (i : BitVec 12) (v : Nat) (s s1 : State), Placed s →
    let ea := (s.x a + i.signExtend 64).toNat
    let w (x : W64) : Out := .next (clearRemote ((s1.setX d x).advance 0) 0)
    (vaRead s 0 ea 1 = .ok v s1 →
      exec (.ldI8 d a i) s = w ((BitVec.ofNat 8 v).signExtend 64) ∧ exec (.ldN8 d a i) s = w (BitVec.ofNat 64 v)) ∧
    (ea % 2 = 0 → vaRead s 0 ea 2 = .ok v s1 →
      exec (.ldI16 d a i) s = w ((BitVec.ofNat 16 v).signExtend 64) ∧ exec (.ldN16 d a i) s = w (BitVec.ofNat 64 v)) ∧
    (ea % 4 = 0 → vaRead s 0 ea 4 = .ok v s1 →
      exec (.ldI32 d a i) s = w ((BitVec.ofNat 32 v).signExtend 64) ∧ exec (.ldN32 d a i) s = w (BitVec.ofNat 64 v)) ∧
    (ea % 8 = 0 → vaRead s 0 ea 8 = .ok v s1 → exec (.ldI64 d a i) s = w (BitVec.ofNat 64 v))

/-- R137, R139: a store whose address is aligned and writable (R140) completes: the low bits of gD are written by the access `vaWrite` at
the effective address, and the next word is taken. -/
def Obligations.ScalarStores : Prop :=
  ∀ (d a : BitVec 5) (i : BitVec 12) (s s1 : State), Placed s →
    let ea := (s.x a + i.signExtend 64).toNat
    let v := (s.x d).toNat
    let w : Out := .next (clearRemote (s1.advance 0) 0)
    (vaWrite s ea 1 (v % 2 ^ 8) = .ok () s1 → exec (.stI8 d a i) s = w) ∧
    (ea % 2 = 0 → vaWrite s ea 2 (v % 2 ^ 16) = .ok () s1 → exec (.stI16 d a i) s = w) ∧
    (ea % 4 = 0 → vaWrite s ea 4 (v % 2 ^ 32) = .ok () s1 → exec (.stI32 d a i) s = w) ∧
    (ea % 8 = 0 → vaWrite s ea 8 v = .ok () s1 → exec (.stI64 d a i) s = w)

/-- R140, R143: a load, a store or a local access whose address is not a multiple of its width raises ALIGN at its stream with that
address, before any other check, and does nothing else. R137, R317: an effective address whose bits 63:57 are not all zero raises
PAGE_FAULT with that address, for every global load and store that is aligned. R39, R40, R294: a scope above fabric raises ILLEGAL for an
acquire load, a release store, a fence, an atomic and a reduction, and `ld.acqp` takes only device and fabric scope. -/
def Obligations.AccessFaults : Prop :=
  (∀ (d a : BitVec 5) (i : BitVec 12) (s : State), Placed s →
      let ea := (s.x a + i.signExtend 64).toNat
      let w : Out := .next (raise s 0 (exc cALIGN ea) none)
      (ea % 2 ≠ 0 → exec (.ldI16 d a i) s = w ∧ exec (.ldN16 d a i) s = w ∧ exec (.stI16 d a i) s = w) ∧
      (ea % 4 ≠ 0 → exec (.ldI32 d a i) s = w ∧ exec (.ldN32 d a i) s = w ∧ exec (.stI32 d a i) s = w ∧ exec (.ldlI32 d a i) s = w ∧
        exec (.stlI32 d a i) s = w) ∧
      (ea % 8 ≠ 0 → exec (.ldI64 d a i) s = w ∧ exec (.stI64 d a i) s = w ∧ exec (.ldlI64 d a i) s = w ∧ exec (.stlI64 d a i) s = w)) ∧
  (∀ (d a : BitVec 5) (i : BitVec 12) (s : State), Placed s →
      let ea := (s.x a + i.signExtend 64).toNat
      let w : Out := .next (raise s 0 (exc cPAGE ea 16) none)
      2 ^ 57 ≤ ea →
        exec (.ldI8 d a i) s = w ∧ exec (.ldN8 d a i) s = w ∧ exec (.stI8 d a i) s = w ∧
        (ea % 2 = 0 → exec (.ldI16 d a i) s = w ∧ exec (.ldN16 d a i) s = w ∧ exec (.stI16 d a i) s = w) ∧
        (ea % 4 = 0 → exec (.ldI32 d a i) s = w ∧ exec (.ldN32 d a i) s = w ∧ exec (.stI32 d a i) s = w) ∧
        (ea % 8 = 0 → exec (.ldI64 d a i) s = w ∧ exec (.stI64 d a i) s = w)) ∧
  (∀ (d a b : BitVec 5) (n : BitVec 3) (i : BitVec 12) (o : BitVec 4) (t : BitVec 3) (s : State), Placed s →
      (4 < n.toNat → exec (.ldAcq d a n i) s = .next (illegal s 0) ∧ exec (.stRel d a n i) s = .next (illegal s 0) ∧
        exec (.fence n) s = .next (illegal s 0) ∧ exec (.fenceRel n) s = .next (illegal s 0) ∧ exec (.fenceAcq n) s = .next (illegal s 0) ∧
        exec (.atom d a n b o t) s = .next (illegal s 0) ∧ exec (.red a n b o t) s = .next (illegal s 0)) ∧
      (n ≠ 3 → n ≠ 4 → exec (.ldAcqp d a n b) s = .next (illegal s 0)) ∧
      (1 < n.toNat → exec (.ldfe d a n i) s = .next (illegal s 0) ∧ exec (.stfe d a n i) s = .next (illegal s 0)))

/-- R141: a load of the stream returns the value of its latest earlier store to the same bytes: in the state that a store of 1, 2, 4 or 8
aligned bytes to the module's own memory leaves, a load of those bytes completes with the stored value. (The core has an L1, or room in its
journal: an overflow that a store begins may promote other cores, whose racing bytes then reach L2.) -/
def Obligations.LoadAfterStore : Prop :=
  ∀ (va n v : Nat) (s t : State) (tr : Tr) (s0 : State), n = 1 ∨ n = 2 ∨ n = 4 ∨ n = 8 → va % n = 0 →
    translate s s.grp.core s.grp.ctxid va .store = .ok tr s0 → inRemote tr.pa = false →
    (hasL1 s s.grp.core = true ∨ (s.core s.grp.core).journal.length < 16384) →
    vaWrite s va n v = .ok () t → ∃ u, vaRead t 0 va n = .ok (v % 2 ^ (8 * n)) u

/-- R139, R141: a store writes no register, no mask, no status, no special register, no accumulator, no barrier and no session. The group in
focus and the others keep all but what an access performed at a home may settle: promotion logs (R299), the answer of a `sig.wait` (R125)
and the fault of a posted reduction (R148); the collectives keep all but the buckets that fired (R353). -/
def Obligations.StoreFrame : Prop :=
  ∀ (va n v : Nat) (s t : State), vaWrite s va n v = .ok () t →
    let kept (g : Group) : Group := { g with plog := [], snap := none, eager := none, swait := none, redFaults := [] }
    kept t.grp = kept s.grp ∧ t.others.map kept = s.others.map kept ∧ t.ctxs = s.ctxs ∧ t.kerns = s.kerns ∧ t.strs = s.strs ∧
    t.cycle = s.cycle ∧ t.agenda = s.agenda ∧ t.gangs = s.gangs ∧ t.colls.map (fun c => { c with fired := [] }) = s.colls.map (fun c => { c with fired := [] }) ∧ t.ready = s.ready ∧
    ∀ c, (t.core c).acc = (s.core c).acc ∧ (t.core c).bars = (s.core c).bars ∧ (t.core c).banks = (s.core c).banks

/-- R139, R141, R274, R285: the bytes that a store leaves alone. Where the core's L1 holds the stored bytes, the store changes no byte of the
memory arrays and, as the core sees memory, no byte but its own `n`, at the physical address that the translation of its virtual address
gives. The same holds where the line has to come from the L2 or its home, as long as nothing has to be evicted for it (the L1 holds the
line or has a way free for it, or the core has no L1 and room in its journal; the L2 holds the line or has room for it) and the line does
not hit in its home's far-tier cache. Where it hits there, the same is seen, and the arrays change only in the line itself, which the hit
writes out if it is dirty; for a sectored page that needs the dirty slot line on an expander that is not lost, or far memory that already
holds the slot line's contents. (No reduction waits in the write queue of the line's home, R276.) -/
def Obligations.StoredBytesOnly : Prop :=
  ∀ (va n v : Nat) (s t : State) (tr : Tr) (s0 : State), n = 1 ∨ n = 2 ∨ n = 4 ∨ n = 8 → va % n = 0 →
    translate s s.grp.core s.grp.ctxid va .store = .ok tr s0 → inRemote tr.pa = false →
    vaWrite s va n v = .ok () t → (s0.ndie tr.home).queue = [] →
    let c := s.grp.core
    let line := tr.pa / 128
    let nd := s0.ndie tr.home
    let w := ftcWhere nd line
    let sl := ftcLine nd w.1 w.2.2
    let others : Prop := ∀ b : Nat, (b < tr.pa ∨ tr.pa + n ≤ b) → viewByte t c tr.home b = viewByte s0 c tr.home b
    let held : Prop := ∃ cl, l1Find s0 c line = some cl ∧ cl.has (tr.pa % 128) n = true
    let way : Prop := (l1Find s0 c line).isSome = true ∨
      (cacheBanks (s0.core c)).any (fun p => !((s0.core c).l1.any (fun x => x.line % 1024 == line % 1024 && x.bank == p))) = true ∨
      (hasL1 s0 c = false ∧ (s0.core c).journal.length < 16384)
    let room : Prop := (findLine (s0.die (dieOf c)).l2 line).any (fun x => !x.zero) = true ∨
      ((s0.die (dieOf c)).l2.filter (fun x => !x.zero)).length < l2Lines
    let hits : Prop := farRange tr.pa = true ∧ ftcOn nd = true ∧ ftcHit s0 nd w.1 w.2.1 w.2.2 = true
    (held ∨ (way ∧ room ∧ ¬ hits) → t.mem = s0.mem ∧ others) ∧
    (way → room → hits →
      tr.sect = false ∨ (ftcDirty s0 sl = true ∧ lostAt s0 tr.pa = false) ∨ rawRead s0 sl = rawRead s0 line →
      (∀ b : Nat, b / 128 ≠ line → Memory.byte t.mem b = Memory.byte s0.mem b) ∧ others)

/-- R143: a local load whose scratch bytes can be accessed completes with their value, and a local store writes exactly its 4 or 8 bytes of
the group's scratch at its offset; no other byte of scratch changes, and no register but gD of a load. -/
def Obligations.ScratchAccesses : Prop :=
  ∀ (d a : BitVec 5) (i : BitVec 12) (s : State), Placed s →
    let off := (s.x a + i.signExtend 64).toNat
    (off % 4 = 0 → scrCheck s off 4 = .ok () s → scrBad s off 4 = none →
      exec (.ldlI32 d a i) s = .next (clearRemote ((s.setX d ((BitVec.ofNat 32 (Memory.read s.grp.scratch off 4)).signExtend 64)).advance 0) 0)) ∧
    (off % 8 = 0 → scrCheck s off 8 = .ok () s → scrBad s off 8 = none →
      exec (.ldlI64 d a i) s = .next (clearRemote ((s.setX d (BitVec.ofNat 64 (Memory.read s.grp.scratch off 8))).advance 0) 0)) ∧
    (off % 4 = 0 → scrCheck s off 4 = .ok () s →
      exec (.stlI32 d a i) s = .next (clearRemote ((s.setScr off 4 ((s.x d).toNat % 2 ^ 32)).advance 0) 0)) ∧
    (off % 8 = 0 → scrCheck s off 8 = .ok () s →
      exec (.stlI64 d a i) s = .next (clearRemote ((s.setScr off 8 (s.x d).toNat).advance 0) 0)) ∧
    ∀ n v b, (b < off ∨ off + n ≤ b) → Memory.byte (s.setScr off n v).grp.scratch b = Memory.byte s.grp.scratch b

/-- R294, R300, Table 15-1: an acquire load reads, then acquires; a release store releases, then writes, and at job, core or die scope logs
its line (R298); a fence releases and acquires as its form says; a promoting acquire of the module's own memory asks the target for its
promotion, reads the flag at its home and acquires. -/
def Obligations.AcquiresAndReleases : Prop :=
  ∀ (d a b : BitVec 5) (n : BitVec 3) (i : BitVec 12) (v : Nat) (s s1 s2 s3 s4 : State) (t : Tr) (k : Nat), Placed s → n.toNat ≤ 4 →
    let ea := (s.x a + i.signExtend 64).toNat
    let w (s : State) : Out := .next (clearRemote s 0)
    (ea % 8 = 0 → fabGate s n.toNat = .ok () s → vaRead s 0 ea 8 = .ok v s1 → acqG s1 n.toNat = .ok () s2 →
      exec (.ldAcq d a n i) s = w ((s2.setX d (BitVec.ofNat 64 v)).advance 0)) ∧
    (ea % 8 = 0 → RedQuiet s n.toNat → storeCheck s ea 8 = .ok t s1 → (n.toNat ≤ 2 → logBlocked s1.grp (t.pa / 128) = false) →
      relG s1 n.toNat = .ok () s2 → vaWrite s2 ea 8 (s2.x d).toNat = .ok () s3 →
      exec (.stRel d a n i) s = w ((if n.toNat ≤ 2 then logLine s3 (t.pa / 128) else s3).advance 0)) ∧
    (RedQuiet s 4 → fabGate s n.toNat = .ok () s → relG s n.toNat = .ok () s1 →
      exec (.fenceRel n) s = w (s1.advance 0) ∧ (acqG s1 n.toNat = .ok () s2 → exec (.fence n) s = w (s2.advance 0))) ∧
    (RedQuiet s 4 → fabGate s n.toNat = .ok () s → acqG s n.toNat = .ok () s1 → exec (.fenceAcq n) s = w (s1.advance 0)) ∧
    ((s.x a).toNat % 8 = 0 → n = 3 ∨ n = 4 → RedQuiet s 4 → translate s s.grp.core s.grp.ctxid (s.x a).toNat .load = .ok t s1 →
      inRemote t.pa = false → fabGate s1 n.toNat = .ok () s1 →
      (if fieldOf (s1.x b) 37 32 = s1.modid then promoteFor s1 (s1.x b) s1.grp.ctxid (t.pa / 128) (s.x a).toNat else .ok 2 s1) = .ok k s2 →
      (homeRead s2 t.home (t.pa / 128)).bad &&& blocksOf (t.pa % 128) 8 = 0 → acqG (homeRead s2 t.home (t.pa / 128)).st n.toNat = .ok () s4 →
      exec (.ldAcqp d a n b) s =
        w ((s4.setX d (BitVec.ofNat 64 (lineRead (homeRead s2 t.home (t.pa / 128)).data (t.pa % 128) 8))).advance 0))

/-- R144 to R146, R148 (Table 8-5): an admitted atomic whose location can be written completes at its site (the die's L2 up to die scope,
else the home of this module's memory): gD takes the old value, and the site is given the function that makes the new value from the
old; a reduction is posted to the same site with its operand and writes no register. -/
def Obligations.AtomicsComplete : Prop :=
  ∀ (d a b : BitVec 5) (n : BitVec 3) (o : BitVec 4) (t : BitVec 3) (old : Nat) (s s1 s2 : State) (tr : Tr), Placed s →
    let ea := (s.x a).toNat
    let w := if t = 2 ∨ t = 3 then 8 else 4
    let f (v : Nat) : Nat := atomNew o.toNat t.toNat (8 * w) v ((s.x b).toNat % 2 ^ (8 * w)) ((s.x d).toNat % 2 ^ (8 * w))
    n.toNat ≤ 4 → o.toNat ≤ 7 → t.toNat ≤ 4 → (t = 4 → o ≠ 1 ∧ o ≠ 2 ∧ o ≠ 3) → ea % w = 0 →
    translate s s.grp.core s.grp.ctxid ea .store = .ok tr s1 → inRemote tr.pa = false → fabGate s1 n.toNat = .ok () s1 → redLine s1 (tr.pa / 128) = false →
    ((if n.toNat ≤ 2 then l2Atomic s1 s1.grp.core tr ea w f else homeSite s1 s1.grp.core tr ea w f) = .ok old s2 →
      exec (.atom d a n b o t) s =
        .next (clearRemote ((s2.setX d (if t = 0 then (BitVec.ofNat 32 old).signExtend 64 else BitVec.ofNat 64 old)).advance 0) 0)) ∧
    (o.toNat ≤ 5 →
      let r : RedReq := { handle := s1.grp.handle, va := BitVec.ofNat 64 ea, pa := tr.pa, aop := o.toNat, ty := t.toNat, opnd := s1.x b,
                          scope := n.toNat, die := dieOf s1.grp.core, leaf := tr.leaf, pc := s1.pc 0, word := s1.iw }
      (n.toNat ≤ 2 → exec (.red a n b o t) s =
        .next (clearRemote ((s1.updDie (dieOf s1.grp.core) (fun x => { x with reds := x.reds ++ [r] })).advance 0) 0)) ∧
      (2 < n.toNat → awaitsHome s1 (dieOf s1.grp.core) (tr.pa / 128) = false → dieFlush s1 (dieOf s1.grp.core) (tr.pa / 128) = some s2 → exec (.red a n b o t) s =
        .next (clearRemote ((homePost s2 tr.home r).advance 0) 0)))

/-- R145 (Table 8-5): what an integer atomic of width `w` stores: the sum modulo 2^w, the bitwise combinations, the smaller or larger by
the signed or unsigned order of its type, the operand, or the operand where the old value equals the compared one. R145, R146: an atomic
at the die's L2 is one read and one write of its location: it answers the value that its line held there and the line then holds the new
value in those bytes, dirty. -/
def Obligations.AtomicEffects : Prop :=
  (∀ (w old op cmp : Nat), 0 < w → old < 2 ^ w → op < 2 ^ w →
      (∀ t, t ≤ 3 → atomNew 0 t w old op cmp = (old + op) % 2 ^ w) ∧
      (∀ t, atomNew 1 t w old op cmp = old &&& op ∧ atomNew 2 t w old op cmp = old ||| op ∧ atomNew 3 t w old op cmp = old ^^^ op ∧
        atomNew 6 t w old op cmp = op ∧ atomNew 7 t w old op cmp = if old = cmp then op else old) ∧
      (∀ t, t = 1 ∨ t = 3 → atomNew 4 t w old op cmp = min old op ∧ atomNew 5 t w old op cmp = max old op) ∧
      (∀ t, t = 0 ∨ t = 2 →
        (BitVec.ofNat w (atomNew 4 t w old op cmp)).toInt = min (BitVec.ofNat w old).toInt (BitVec.ofNat w op).toInt ∧
        (BitVec.ofNat w (atomNew 5 t w old op cmp)).toInt = max (BitVec.ofNat w old).toInt (BitVec.ofNat w op).toInt)) ∧
  (∀ (c : Nat) (t : Tr) (va w old : Nat) (f : Nat → Nat) (s s1 : State), c / 8 < s.dies.length → (s.core c).journal.length < 16384 → w = 4 ∨ w = 8 → t.pa % w = 0 →
      l2Atomic s c t va w f = .ok old s1 →
      ∃ cl, l2Find s1 (dieOf c) (t.pa / 128) = some cl ∧ lineRead cl.data (t.pa % 128) w = f old % 2 ^ (8 * w) ∧ old < 2 ^ (8 * w) ∧
        byteMask (t.pa % 128) w &&& ~~~cl.dirty = 0)

/-- R195, R193: `ldfe` of a full granule of scratch takes its 8 bytes and leaves it empty; `stfe` of an empty one stores 8 bytes and
leaves it full; of a FIFO, `ldfe` pops the granule at its head and `stfe` pushes one, where there is one and where there is room. R194: a
FIFO is a ring of 8,192 granules: what is pushed into one that was empty is what stands at its head, its count is then 1, and a pop makes
it empty again; a ring never counts more than it was given. -/
def Obligations.FullEmptyAccesses : Prop :=
  (∀ (d a : BitVec 5) (n : BitVec 3) (i : BitVec 12) (s s1 : State), Placed s → n.toNat ≤ 1 →
      let off := (s.x a + i.signExtend 64).toNat
      let f := (off - 2 ^ 31) / 131072
      off % 8 = 0 →
      (off < 2 ^ 31 → scrCheck s off 8 = .ok () s → scrBad s off 8 = none → off / 16 ∈ s.grp.full →
        acqG (s.updGrp (fun g => g.drain (off / 16))) n.toNat = .ok () s1 →
        exec (.ldfe d a n i) s = .next (clearRemote ((s1.setX d (BitVec.ofNat 64 (Memory.read s.grp.scratch off 8))).advance 0) 0)) ∧
      (2 ^ 31 ≤ off → fifoCheck s f off = .ok () s → 1 ≤ (s.grp.fifo f).count → (s.grp.fifo f).badTop 1 = false → acqG (s.updFifo f Fifo.pop) n.toNat = .ok () s1 →
        exec (.ldfe d a n i) s = .next (clearRemote ((s1.setX d ((s.grp.fifo f).top.setWidth 64)).advance 0) 0)) ∧
      (RedQuiet s n.toNat → off < 2 ^ 31 → scrCheck s off 8 = .ok () s → relG s n.toNat = .ok () s1 → off / 16 ∉ s1.grp.full →
        exec (.stfe d a n i) s = .next (clearRemote (((s1.setScr off 8 (s1.x d).toNat).updGrp (fun g => g.fill (off / 16))).advance 0) 0)) ∧
      (RedQuiet s n.toNat → 2 ^ 31 ≤ off → fifoCheck s f off = .ok () s → relG s n.toNat = .ok () s1 → (s1.grp.fifo f).count ≤ 8191 →
        exec (.stfe d a n i) s = .next (clearRemote ((s1.updFifo f (fun x => x.push ((s1.x d).setWidth 128))).advance 0) 0))) ∧
  (∀ (f : Fifo) (v : BitVec 128), f.head < 16384 → f.tail < 16384 →
      (f.count = 0 → (f.push v).top = v ∧ (f.push v).count = 1 ∧ (f.push v).pop.count = 0) ∧
      (f.count < 8192 → (f.push v).count = f.count + 1) ∧ (0 < f.count → f.pop.count + 1 = f.count) ∧
      (f.push v).head = f.head ∧ f.pop.tail = f.tail ∧ f.pop.data = f.data ∧ f.pop.bad = f.bad)


-- Scalar: caches, banks, pages, tokens, ends, launches, signals ----------------------------------------------------------

/-- R149 to R151: a range operation of length 0 does nothing; of more than 2^30 bytes it raises ACCESS_FAULT with its start; and over a range
within one 64 KiB page of this module each form has its own effect on the lines of the range: written back, discarded, both, or made zero,
in L1, in L2 or in the far-tier cache. -/
def Obligations.CacheRanges : Prop :=
  ∀ (a b : BitVec 5) (l : BitVec 1) (s s1 s2 s3 : State) (p : Piece), Placed s →
    let va := (s.x a).toNat
    let n := (s.x b).toNat
    let all (o : Out) : Prop :=
      exec (.clineWb a b l) s = o ∧ exec (.clineInv a b l) s = o ∧ exec (.clineWbi a b l) s = o ∧ exec (.clineZero a b) s = o ∧
      exec (.ftcWb a b) s = o ∧ exec (.ftcInv a b) s = o ∧ exec (.ftcWbi a b) s = o
    let w (t : State) : Out := .next (clearRemote (t.advance 0) 0)
    (n = 0 → all (w s)) ∧ (2 ^ 30 < n → all (.next (raise s 0 (exc cACCESS va) none))) ∧
    (0 < n → n ≤ 2 ^ 30 → inRemote p.tr.pa = false →
      (s1.die (dieOf s1.grp.core)).reds.any (fun r => r.handle == s1.grp.handle && p.hasLine (r.pa / 128)) = false →
      (pieces s va n .load = .ok [p] s1 →
        (pieceWb1 s1 p = some s2 →
          exec (.clineWb a b 0) s = w s2 ∧ (pieceWb2 s2 p = some s3 → exec (.clineWb a b 1) s = w s3)) ∧
        (pieceWbi1 s1 p = some s2 →
          exec (.clineWbi a b 0) s = w s2 ∧ (pieceWb2 s2 p = some s3 → exec (.clineWbi a b 1) s = w (pieceInv2 s3 p))) ∧
        exec (.ftcWb a b) s = w (ftcPiece s1 p ftcWriteOut) ∧ exec (.ftcWbi a b) s = w (ftcPiece s1 p ftcWbi)) ∧
      (pieces s va n .store = .ok [p] s1 →
        exec (.clineInv a b 0) s = w (pieceInv1 s1 p) ∧ exec (.clineInv a b 1) s = w (pieceInv2 (pieceInv1 s1 p) p) ∧
        (pieceWbi1 s1 p = some s2 → zeroPiece s2 s2.grp.core p = some s3 → exec (.clineZero a b) s = w s3) ∧ exec (.ftcInv a b) s = w (ftcPiece s1 p ftcDrop)))

/-- R152, R324, R325, R326: a probe of the far-tier cache or of the page tables completes with its result word; `tlb.inv` and `tlb.invall`
release, append one entry to every die's log and return its sequence number; `tlb.sync` makes every die apply its log; `pg.mig` submits
the block that it reads. A probe or a submission whose walk waits for a table kept in another module waits with it (R346, log entry 20). (`ftcLook` is the read of the
slot in its turn of the write queue, R276, which activates its rows, R278.) R320, R322: when every die has applied its log, every log is empty and no TLB of a die or of its cores holds a
translation that an entry of that die's log removes; entries of other pages and contexts are kept. -/
def Obligations.TranslationInstructions : Prop :=
  (∀ (d a : BitVec 5) (b : Nat) (s s1 : State) (t : Tr), Placed s →
      let va := (s.x a).toNat
      let w (s : State) (v : W64) : Out := .next (clearRemote ((s.setX d v).advance 0) 0)
      (translate s s.grp.core s.grp.ctxid va .load = .ok t s1 → exec (.ftcProbe d a) s = w (ftcLook s1 t) (ftcProbe (ftcLook s1 t) t)) ∧
      (walkWaits s s.grp.core s.grp.ctxid va = false →
        exec (.pgProbe d a) s = .next (((pgProbe s va).2.setX d (pgProbe s va).1).advance 0)) ∧
      (walkWaits s s.grp.core s.grp.ctxid va = true → exec (.pgProbe d a) s = .next ((findLeaf s s.grp.core s.grp.ctxid va).2.block 0)) ∧
      (RedQuiet s 3 → va < 2 ^ 57 → relG s 3 = .ok () s1 →
        exec (.tlbInv d a) s = w (ilAppend s1 0 s1.grp.ctxid va) (s1.ilSeq.setWidth 64)) ∧
      (RedQuiet s 3 → relG s 3 = .ok () s1 → exec (.tlbInvall d) s = w (ilAppend s1 1 s1.grp.ctxid 0) (s1.ilSeq.setWidth 64)) ∧
      (exec .tlbSync s = .next (clearRemote ((ilApplyAll s).advance 0) 0)) ∧
      (va % 32 = 0 → devLoad s va 32 = .ok b s1 →
        let r := migSubmit s1 s1.grp.core s1.grp.ctxid b
        (r.1 ≠ 5 → exec (.pgMig d a) s = w r.2 (BitVec.ofNat 64 r.1)) ∧ (r.1 = 5 → exec (.pgMig d a) s = .next (r.2.block 0)))) ∧
  (∀ (s : State) (d : Nat) (t : TlbEnt), s.dies.length = 12 → s.cores.length = 96 → d < 12 →
      ((ilApplyAll s).die d).ilog = [] ∧
      (t ∈ ((ilApplyAll s).die d).tlb ↔ t ∈ (s.die d).tlb ∧ ∀ e ∈ (s.die d).ilog, ilMatch e t = false) ∧
      ∀ c, c / 8 = d → (t ∈ ((ilApplyAll s).core c).tlb ↔ t ∈ (s.core c).tlb ∧ ∀ e ∈ (s.die d).ilog, ilMatch e t = false))

/-- R196: `bmode.reset` empties its FIFO; `bmode.empty` and `bmode.full` make exactly the granules of their range empty or full; and
`bmode.query` reads a bank, 7 where the group has no such bank. -/
def Obligations.BankModes : Prop :=
  ∀ (d a b : BitVec 5) (s : State), Placed s →
    let f := (s.x a).toNat
    let n := (s.x b).toNat
    let inside (k : Nat) : Prop := f / 16 ≤ k ∧ k < f / 16 + n / 16
    (f < s.grp.fifob → bankStand s (s.grp.scrb + f) .fifo ≠ .waits →
      exec (.bmodeReset a) s = .next (clearRemote ((s.updFifo f (fun x => { x with head := 0, tail := 0 })).advance 0) 0)) ∧
    (f % 16 = 0 → n % 16 = 0 → scrCheck s f n = .ok () s →
      (∃ t, exec (.bmodeEmpty a b) s = .next t ∧ (∀ k, k ∈ t.grp.full ↔ k ∈ s.grp.full ∧ ¬ inside k) ∧ t.pc 0 = s.pc 0 + 4 ∧
        t.grp.gregs = s.grp.gregs ∧ t.grp.scratch = s.grp.scratch ∧ t.mem = s.mem) ∧
      (∃ t, exec (.bmodeFull a b) s = .next t ∧ (∀ k, k ∈ t.grp.full ↔ k ∈ s.grp.full ∨ inside k) ∧ t.pc 0 = s.pc 0 + 4 ∧
        t.grp.gregs = s.grp.gregs ∧ t.grp.scratch = s.grp.scratch ∧ t.mem = s.mem)) ∧
    (exec (.bmodeQuery d a) s = .next ((s.setX d (bmodeState s f)).advance 0)) ∧ (s.grp.scrb + s.grp.fifob ≤ f → bmodeState s f = 7)

/-- R106, R107: `toksend` adds its count to the counters of the peers it names, after a job-scope release has nothing to wait for;
`tokwait` takes its count from theirs; `fmtq` appends gA to a queue of fewer than 16, or counts it where the matrix stream has ended.
R102, R103: of the twelve counters, the one from stream x to stream y is that which x's push and y's pop name; a push adds to it,
saturating at 63, and a pop takes it back. -/
def Obligations.TokenInstructions : Prop :=
  (∀ (v m c : BitVec 1) (n : BitVec 6) (a : BitVec 5) (s : State), Placed s → s.grp.hmode = false →
      let w (t : State) : Out := .next (clearRemote (t.advance 0) 0)
      (n ≠ 0 → ¬ (v = 0 ∧ m = 0 ∧ c = 0) → RedQuiet s 0 → pushRoom s.grp (sPeers v m c) n.toNat = true →
        exec (.toksend v m c n) s = w (s.updGrp (fun g => g.pushToks (sPeers v m c) n.toNat))) ∧
      (n ≠ 0 → ¬ (v = 0 ∧ m = 0 ∧ c = 0) → orphan s.grp ((sPeers v m c).map (fun y => 3 * y + 3)) n.toNat = none →
        popsReady s.grp ((sPeers v m c).map (fun y => 3 * y + 3)) n.toNat = true →
        exec (.tokwait v m c n) s =
          w (s.updGrp (fun g => g.updToks ((sPeers v m c).map (fun y => 3 * y + 3)) (fun t => t - n.toNat)))) ∧
      (s.grp.ended 2 = false → s.grp.fmtq.length < 16 →
        exec (.fmtq a) s = w (s.updGrp (fun g => { g with fmtq := g.fmtq ++ [s.x a] }))) ∧
      (s.grp.ended 2 = true → exec (.fmtq a) s = w (s.updGrp (fun g => { g with fmtres := min 255 (g.fmtres + 1) })))) ∧
  ((∀ x y : Nat, x < 4 → y < 4 → x ≠ y → popIdx y (if x < y then x else x - 1) = pushIdx x (if y < x then y else y - 1) ∧
      prodOf (pushIdx x (if y < x then y else y - 1)) = x ∧ consOf (pushIdx x (if y < x then y else y - 1)) = y) ∧
    (∀ (g : Group) (i n : Nat), g.toks.length = 12 → i < 12 → (g.pushToks [i] n).tok i = min 63 (g.tok i + n) ∧
      (g.tok i + n ≤ 63 → ((g.pushToks [i] n).updToks [i] (fun t => t - n)).toks = g.toks) ∧
      (63 < g.tok i + n → (g.pushToks [i] n).toksat = true) ∧ ∀ j, j ≠ i → (g.pushToks [i] n).tok j = g.tok j))

/-- R109, R110, R45: `end` and `rend` put their stream in DRAINING with the result it will record, whatever stream they are of, with the
pops of a vector, matrix or copy stream made and its pushes reserved; `exit` stops the group and, of a pair, both halves; `nop` of those
streams makes its pops and pushes and takes the next word, the matrix stream's also behind a tile command (R244), where its `end` and `rend`
wait for the command (log entry 172). R109: a scalar or a vector, matrix or copy stream cannot end with the result
0xFFFF, and no scalar stream ends in handler mode: ILLEGAL. -/
def Obligations.StreamEnds : Prop :=
  (∀ (p q : BitVec 3) (i : BitVec 16) (s : State), Placed s →
      (s.grp.hmode = false → RedQuiet s 4 → exec .endS s = .next (startDrain s 0 0 0) ∧
        (i ≠ 0xFFFF → exec (.rend i) s = .next (startDrain s 0 i 0))) ∧
      (RedQuiet s 4 → exec (.exit i) s = .next (stopBoth (s.updStream 0 (fun t => { t with result := 0xFFFF })) .exited (i.setWidth 32) [])) ∧
      (s.strm = .m ∨ s.strm = .c → (s.strm = .m → s.grp.mcmd = none) → TokOpen s s.strm.num p q →
        exec (.endXn p q) s = .next (startDrain (tokIssue s s.strm.num p q) s.strm.num 0 q) ∧
        (i ≠ 0xFFFF → exec (.rendXn p q i) s = .next (startDrain (tokIssue s s.strm.num p q) s.strm.num i q)) ∧
        exec (.nopXn p q) s = .next (tDone s s.strm.num p q)) ∧
      (s.strm = .m → TokOpen s 2 p q → exec (.nopXn p q) s = .next (tDone s 2 p q)) ∧
      (s.strm = .v → TokOpen (retireDue s) 1 p q →
        exec (.endXn p q) s = .next (vTick (startDrain (tokIssue (retireDue s) 1 p q) 1 0 q)) ∧
        (i ≠ 0xFFFF → exec (.rendXn p q i) s = .next (vTick (startDrain (tokIssue (retireDue s) 1 p q) 1 i q)))) ∧
      (s.strm = .v → VOpen s p q [] false false → exec (.nopXn p q) s = .next (vDone ((retireDue s).advance 1) p q))) ∧
  (∀ (p q : BitVec 3) (i : BitVec 16) (s : State), Placed s →
      exec (.rend 0xFFFF) s = .next (illegal s 0) ∧ exec (.rendXn p q 0xFFFF) s = .next (illegal s s.strm.num) ∧
      (s.grp.hmode = true → exec .endS s = .next (illegal s 0) ∧ exec (.rend i) s = .next (illegal s 0)))

/-- R124: a launch whose packet can be read and whose queue is enabled for device launches by its own context, and not full, writes the packet
into the ring at TAIL, advances TAIL and returns it; status 1, 2 or 3 in bits 63:32 says that the queue is not usable, is full or does not
exist. R361: a TENTATIVE group's launch into a ring kept in another module waits. -/
def Obligations.Launches : Prop :=
  ∀ (d a b : BitVec 5) (pkt : Nat) (t : Tr) (s s1 s2 s3 s4 : State), Placed s → RedQuiet s 3 → (s.x b).toNat % 128 = 0 → relG s 3 = .ok () s1 →
    devLoad s1 (s.x b).toNat 128 = .ok pkt s2 →
    let qn := (s2.x a).toNat
    let q := s2.queue qn
    let usable : Prop := (q.st = .ready ∨ q.st = .paused) ∧ q.ctx = s2.grp.ctxid ∧ q.devok = true
    let full : Prop := (q.tail + 65536 - q.head) % 65536 = 2 ^ q.log2n
    let w (s : State) (v : Nat) : Out := .next (clearRemote ((s.setX d (BitVec.ofNat 64 v)).advance 0) 0)
    (2 ^ 15 ≤ qn → exec (.launch d a b) s = w s2 (3 * 2 ^ 32)) ∧ (qn < 2 ^ 15 → ¬ usable → exec (.launch d a b) s = w s2 (1 * 2 ^ 32)) ∧
    (qn < 2 ^ 15 → usable → full → exec (.launch d a b) s = w s2 (2 * 2 ^ 32)) ∧
    let slot := q.ring.toNat + 128 * (q.tail % 2 ^ q.log2n)
    (qn < 2 ^ 15 → usable → ¬ full → devTr q.ctx s2.grp.handle .store s2 slot = .ok t s3 →
      (inRemote t.pa = true → tentative s3 s3.grp.handle = true → exec (.launch d a b) s = .next (s3.block 0)) ∧
      ((inRemote t.pa = true → tentative s3 s3.grp.handle = false) → devWrite s3 q.ctx slot 128 pkt s3.grp.handle = .ok () s4 →
        exec (.launch d a b) s = w (s4.updQueue qn (fun q => { q with tail := (q.tail + 1) % 65536 })) q.tail))

/-- R125, R63: `sig.add` and `sig.set` change their counter by one atomic at its home, after a device-scope release, and return the old
value; `sig.wait` returns the value that satisfied its test, with an acquire; `sig.int` of a group of this module returns 0 where the live
group has the context and 1 where not; gA is compared whole, so that with RSV bits of the handle (R94) set it names no group, which is log
entry 152 (DESIGN CHOICE); of another module it asks that module's distributor, waits, and returns its answer, or raises LINK_DOWN where the
module cannot be reached. R63, R333: an interrupt raised on a group with a handler is pended, values of one pending interrupt
are merged, and a group without a handler or past STOPPING discards it. -/
def Obligations.Signals : Prop :=
  (∀ (d a b : BitVec 5) (old : Nat) (s s1 s2 s3 : State) (t : Tr), Placed s →
      let va := (s.x a).toNat
      let r := homeRead s1 t.home (t.pa / 128)
      let w (s : State) (v : W64) : Out := .next (clearRemote ((s.setX d v).advance 0) 0)
      (RedQuiet s 3 → sigAddr s va .store = .ok t s1 → r.bad &&& blocksOf (t.pa % 128) 4 = 0 → relG r.st 3 = .ok () s2 →
        (homeAtomic s2 t.home t.pa 4 (fun c => (c + fieldOf (s.x b) 31 0) % 2 ^ 32) = some (old, s3) → exec (.sigAdd d a b) s = w s3 (BitVec.ofNat 64 old)) ∧
        (homeAtomic s2 t.home t.pa 4 (fun _ => fieldOf (s.x b) 31 0) = some (old, s3) → exec (.sigSet d a b) s = w s3 (BitVec.ofNat 64 old))) ∧
      (sigAddr s va .load = .ok t s1 → s.grp.swait = none → r.bad &&& blocksOf (t.pa % 128) 4 = 0 →
        let v : W32 := BitVec.ofNat 32 (lineRead r.data (t.pa % 128) 4)
        0 ≤ (v - (s.x b).setWidth 32).toInt → acqG r.st 3 = .ok () s2 →
        exec (.sigWait d a b) s = w (s2.updGrp (fun g => { g with swait := none })) (v.setWidth 64)) ∧
      (fieldOf (s.x a) 37 32 = s.modid →
        (∀ g, s.groupOf (s.x a) = some g → g.ctxid = s.grp.ctxid →
          exec (.sigInt d a b) s = w (s.updGroup (s.x a) (fun g => g.interrupt ((s.x b).setWidth 32))) 0) ∧
        ((∀ g, s.groupOf (s.x a) = some g → g.ctxid ≠ s.grp.ctxid) → exec (.sigInt d a b) s = w s 1)) ∧
      (let m := fieldOf (s.x a) 37 32
       let pa := remoteBase + m * 2 ^ 45
       let p : Packet := { packet0 m 14 0 with
         arg := BitVec.ofNat 8 s.grp.ctxid, data := toBytes (s.x a) 8 ++ toBytes ((s.x b).setWidth 32 : W32) 4 }
       m ≠ s.modid →
        (∀ r c, rwaitOf s.grp 0 14 pa 1 = some r → r.got = some c → r.status = 0 →
          exec (.sigInt d a b) s = w s (BitVec.ofNat 64 (leNat c % 2))) ∧
        (rwaitOf s.grp 0 14 pa 1 = none → tentative s s.grp.handle = false →
          ((routeTo s m).isSome = true → exec (.sigInt d a b) s = .next (((sendRequest s p s.grp.core s.grp.handle).updGrp (fun g => { g with
            rwait := g.rwait ++ [{ stream := 0, pa := pa, len := 1, pop := 14, tag := s.nextTag, got := none, status := 0 }] })).block 0)) ∧
          (routeTo s m = none → exec (.sigInt d a b) s = .next (raise s 0 (linkDown (s.x a).toNat m) none))))) ∧
  (∀ (g : Group) (v : W32),
      (g.tvec ≠ 0 → (g.st = .running ∨ g.st = .handler ∨ g.st = .saved) →
        (g.interrupt v).ipend = true ∧ (g.interrupt v).ipval = if g.ipend = true then g.ipval ||| v else v) ∧
      (g.tvec = 0 ∨ g.st = .stopping ∨ g.st = .retiring → g.interrupt v = g))

-- Traps and system registers ---------------------------------------------------------------------------------------------

/-- R67, R64, R66: `trap` of a group with a handler, outside handler mode, enters the handler: TCAUSE names code 0xFF, the scalar stream
and the immediate; EPC_S is the next instruction; the scalar stream starts at TVEC; the other streams stop. Without a handler, or in
handler mode, the group ends with status TRAP and the immediate. (A vector stream that is DRAINING, an undecided `vld` and an open loop
level are left to other statements, as is a group whose begun instructions still have to complete or for which another trap waits, which
takes the trap then; the frame itself is written to the group's frame address.) That the whole entry is one step with the instruction is log
entry 14 (DEDUCED). R64, R126, R331: where a fault of a running
group goes: to the handler where one is set and the context's policy for its code asks for it, and otherwise the group ends ABORTED with
its record; in handler mode it always ends; in STOPPING and RETIRING it is suppressed. -/
def Obligations.TrapsEnter : Prop :=
  (∀ (i : BitVec 16) (s : State), Placed s →
      (s.grp.tvec = 0 ∨ s.grp.hmode = true → exec (.trap i) s = .next (stopBoth s .trap (i.setWidth 32) [])) ∧
      (s.grp.tvec ≠ 0 → s.grp.hmode = false → s.grp.pendTraps = [] → s.grp.vld = none → s.grp.partner = 0 → s.grp.ss.levels = [] → s.grp.vs.run ≠ .draining →
        s.grp.ms.run ≠ .draining → s.grp.cs.run ≠ .draining → canTrap (s.advance 0) = true →
        ∃ t, exec (.trap i) s = .next t ∧ t.grp.hmode = true ∧ t.grp.st = .handler ∧
          t.grp.tcause = BitVec.ofNat 64 (0xFF * 2 ^ 40 + i.toNat) ∧ t.grp.epcs = s.grp.ss.pc + 4 ∧
          t.grp.ss.pc = s.grp.tvec ∧ t.grp.ss.run = .ready ∧
          (t.grp.vs.run = .stopped ∨ t.grp.vs.run = .ended) ∧ (t.grp.ms.run = .stopped ∨ t.grp.ms.run = .ended) ∧
          (t.grp.cs.run = .stopped ∨ t.grp.cs.run = .ended) ∧ t.grp.gregs = s.grp.gregs ∧ t.grp.tvec = s.grp.tvec)) ∧
  (∀ (f : FaultInfo) (s : State), f.code ≠ cMEMUNC → f.code ≠ cGANGAB →
      let pol := fieldOf ((s.ctx s.grp.ctxid).policy) (2 * f.code + 1) (2 * f.code)
      (s.grp.st = .running → s.grp.hmode = false → pol = 1 → s.grp.tvec ≠ 0 →
        let p : PendTrap := { code := f.code, stream := f.stream, info := BitVec.ofNat 32 (if f.elvalid then f.element else 0),
                              fault := some f, vld := none }
        (s.grp.pendTraps = [] → canTrap s = true → deliver s f = enterTrap s f.code f.stream p.info (recNat f false s.grp.handle) none) ∧
        (s.grp.pendTraps ≠ [] ∨ canTrap s = false → deliver s f = s.updGrp (fun g => pendTrap g p))) ∧
      (s.grp.st = .running ∨ s.grp.st = .handler → s.grp.hmode = true ∨ pol ≠ 1 ∨ s.grp.tvec = 0 →
        deliver s f = stopBoth s .aborted 0 (bytesOf 128 (recNat f s.grp.hmode s.grp.handle))) ∧
      (s.grp.st = .stopping ∨ s.grp.st = .retiring → deliver s f = s.updGrp (fun g => { g with faultsupp := true })))

/-- R68: `rett` outside handler mode raises ILLEGAL; in handler mode, with its frame readable, it returns every stream to its EPC (bits 1:0
cleared) and leaves handler mode. (No latches, no pended load and no partner here; a pended load waits until its part of the frame can be read.) -/
def Obligations.TrapsReturn : Prop :=
  ∀ (fr : Nat) (s s1 : State), Placed s →
    (s.grp.hmode = false → exec .rett s = .next (illegal s 0)) ∧
    (s.grp.hmode = true → frameRead 36 s s.grp.tframe.toNat = .ok fr s1 →
      (s1.grp.pendld = true → (frameFlush s1).isSome = true) →
      exec .rett s = .next (leaveTrap (clearRemote s1 0) fr) ∧
      (s1.grp.nlatch = 0 → s1.grp.pendld = false → s1.grp.partner = 0 → s1.grp.ss.kept ≠ .ended →
        let t := (leaveTrap (clearRemote s1 0) fr).grp
        t.hmode = false ∧ t.st = .running ∧ t.ss.pc = s1.grp.epcs &&& ~~~3 ∧ t.vs.pc = s1.grp.epcv &&& ~~~3 ∧
        t.ms.pc = s1.grp.epcm &&& ~~~3 ∧ t.cs.pc = s1.grp.epcc &&& ~~~3 ∧ t.gregs = s1.grp.gregs ∧ t.kregs = s1.grp.kregs ∧
        (t.ss.run = .ready ∨ t.ss.run = .ended)))

/-- R70 (Tables 4-6 and 4-7): `sysr` reads and `sysw` writes a register that its mode may access, and raise ILLEGAL for every other
number: the handler's registers outside handler mode, a read-only register written, a number that the table does not have. Tables 4-6 and
4-7: what a write of a system register leaves to be read: a saved PC or a handler save register as written, a progress register with its RSV
bits 62:56 zero (R2, R60), TVEC a multiple of 4 below 2^57, of TSTAT the interrupt enable, and SSTAT's bit 0 cleared by a 1. -/
def Obligations.SystemRegisters : Prop :=
  (∀ (d a : BitVec 5) (r : BitVec 9) (s : State), Placed s →
      let n := r.toNat
      let open' : Prop := n ≤ 4 ∨ (8 ≤ n ∧ n ≤ 13) ∨ (0x10 ≤ n ∧ n ≤ 0x15) ∨ (0x28 ≤ n ∧ n ≤ 0x2B)
      let handler : Prop := (0x18 ≤ n ∧ n ≤ 0x1B) ∨ (0x20 ≤ n ∧ n ≤ 0x22)
      let writable : Prop := n = 0x11 ∨ n = 0x12 ∨ n = 0x15 ∨ (0x28 ≤ n ∧ n ≤ 0x2B)
      (open' ∨ ((handler ∨ n = 0x24) ∧ s.grp.hmode = true) →
        exec (.sysr d r) s = .next (clearRemote ((s.setX d (sysRead s n)).advance 0) 0)) ∧
      (¬ (open' ∨ ((handler ∨ n = 0x24) ∧ s.grp.hmode = true)) → exec (.sysr d r) s = .next (illegal s 0)) ∧
      (writable ∨ (handler ∧ s.grp.hmode = true) →
        exec (.sysw a r) s = .next (clearRemote ((s.updGrp (fun g => sysWrite g n (s.x a))).advance 0) 0)) ∧
      (¬ (writable ∨ (handler ∧ s.grp.hmode = true)) → exec (.sysw a r) s = .next (illegal s 0))) ∧
  (∀ (v : W64) (n : Nat) (s : State), s.grp.hsv.length = 4 →
      let t := s.updGrp (fun g => sysWrite g n v)
      (0x18 ≤ n ∧ n ≤ 0x1B ∨ 0x28 ≤ n ∧ n ≤ 0x2B → sysRead t n = v) ∧
      (0x20 ≤ n ∧ n ≤ 0x22 → sysRead t n = v &&& 0x80FFFFFFFFFFFFFF) ∧
      (n = 0x12 → sysRead t n = BitVec.ofNat 64 (v.toNat % 2 ^ 57 / 4 * 4)) ∧
      (n = 0x11 → t.grp.ien = v.getLsbD 1 ∧ t.grp.hmode = s.grp.hmode ∧ t.grp.ipend = s.grp.ipend ∧ t.grp.preq = s.grp.preq) ∧
      (n = 0x15 → sysRead t n = s.grp.sstat &&& ~~~(v &&& 1)) ∧
      (∀ k, k ≠ n → sysRead t k = sysRead s k))

/-- R69: `hint.save` without a pre-emption request, or in handler mode, only takes the next word; with one, a group whose descriptor can be read
and used is saved after it, with that descriptor. -/
def Obligations.SaveHints : Prop :=
  ∀ (b : BitVec 5) (i : BitVec 20) (w3 r : List W64) (s s1 s2 : State), Placed s →
    let va := (s.x b + 8 * i.signExtend 64).toNat
    (s.grp.preq = false ∨ s.grp.hmode = true → exec (.hintSave b i) s = .next (clearRemote (s.advance 0) 0)) ∧
    (s.grp.preq = true → s.grp.hmode = false → livenessWords 3 s va = .ok (some w3) s1 → fieldOf (w3.getD 2 0) 19 16 ≤ 8 →
      livenessWords (fieldOf (w3.getD 2 0) 19 16) s1 (va + 24) = .ok (some r) s2 → livenessOk s2.grp (w3 ++ r) = true →
      let t := (s2.updGrp (fun g => { g with hint := some (w3 ++ r) })).advance 0
      exec (.hintSave b i) s = .next (clearRemote { t with agenda := .event (.groupSave s2.grp.handle) :: t.agenda } 0))

-- Barriers and loops -----------------------------------------------------------------------------------------------------

/-- R309, R310: an update that leaves PEND, IN or OUT other than zero completes nothing; with all three zero a phase completes: PHASES and
GEN count it modulo their widths, EXPECT loses DROP, DROP is 0 and PEND starts again from EXPECT; IN, OUT and the flags stay. R310: an
arrival at an object that expects arrivals lowers PEND by one and changes nothing else before a completion; one that expects none counts
nothing; an arrival that would lower PEND below zero waits. -/
def Obligations.PhaseCompletion : Prop :=
  (∀ o : BitVec 128,
      (barPend o ≠ 0 ∨ barIn o ≠ 0 ∨ barOut o ≠ 0 → barComplete o = o) ∧
      (barPend o = 0 → barIn o = 0 → barOut o = 0 →
        let t := barComplete o
        barPhases t = barPhases o + 1 ∧ barGen t = (barGen o + 1) % 16 ∧ barExpect t = (barExpect o + 4096 - barDrop o) % 4096 ∧
        barPend t = barExpect t ∧ barDrop t = 0 ∧ barIn t = 0 ∧ barOut t = 0 ∧ barPub t = barPub o ∧ barInit t = barInit o ∧ barKey t = barKey o)) ∧
  (∀ o : BitVec 128,
      (barExpect o = 0 → barCount o = some o) ∧ (barExpect o ≠ 0 → barPend o = 0 → barCount o = none) ∧
      (barExpect o ≠ 0 → barPend o ≠ 0 → ∃ t, barCount o = some t ∧ barPend t = barPend o - 1 ∧ barExpect t = barExpect o ∧
        barPhases t = barPhases o ∧ barIn t = barIn o ∧ barOut t = barOut o ∧ barDrop t = barDrop o ∧ barGen t = barGen o))

/-- R312: each form of `bar.*` completes at a mapped object under the conditions of its row: `bar.init` and `bar.reg` set up the object,
`bar.arr`, `bar.rarr` and `bar.ard` arrive after their release, `bar.wait` returns PHASES once it differs from gB, `bar.pub` and `bar.att`
publish and attach, and the reads return the object's halves. R312, R313: a logical id outside the group's barriers, or one that names an
object no longer mapped, raises BARRIER_RANGE with the id, for every form that names a barrier. (That `bar.init` completes no phase even where the count it sets
is already met is the model's choice, log entry 31; that the drop of `bar.ard` counts in the phase which its own arrival may have begun
is the model's choice, log entry 30.) -/
def Obligations.BarrierInstructions : Prop :=
  (∀ (d a b : BitVec 5) (n : BitVec 3) (e : BEntry) (s s1 s2 : State) (k c i : Nat), Placed s → n.toNat ≤ 3 →
      let id := fieldOf (s.x a) 7 0
      let core := s.grp.core
      let o := barObj s core e.obj
      let w (t : State) : Out := .next (clearRemote (t.advance 0) 0)
      let wd (t : State) (v : W64) : Out := .next (clearRemote ((t.setX d v).advance 0) 0)
      (barEnt s id = .ok e s →
        (e.kind ≠ .attached → barRegistered s core e.obj = false → barWaiter s core e.obj = false →
          exec (.barInit a b) s = w (barPut s core e.obj
            (barSet (barSet (barSet (o &&& BitVec.ofNat 128 (0xFF * 2 ^ 76)) 15 4 (fieldOf (s.x b) 11 0)) 27 16 (fieldOf (s.x b) 11 0)) 76 76 1))) ∧
        (barInit o = true → e.reg = false → barExpect o ≠ 4095 →
          exec (.barReg a) s = w ((barPut s core e.obj (barSet (barSet o 15 4 (barExpect o + 1)) 27 16 (barPend o + 1))).updBar id
            (fun e => { e with reg := true, last := none }))) ∧
        (barInit o = true → RedQuiet s n.toNat → waitsAt s.grp.bwait (barLoc core e.obj) = false → (barArrive s id e e.reg).isSome = true → relG s n.toNat = .ok () s1 →
          barArrive s1 id e e.reg = some s2 →
          exec (.barArr d a n) s = wd (barDone s2) ((barPhases (barObj s1 core e.obj)).setWidth 64)) ∧
        (barInit o = true → s.grp.bwait = none → barPhases o ≠ (s.x b).setWidth 32 → acqG (barDone s) n.toNat = .ok () s1 →
          exec (.barWait d a b n) s = wd s1 ((barPhases o).setWidth 64)) ∧
        (e.reg = true → RedQuiet s n.toNat → waitsAt s.grp.bwait (barLoc core e.obj) = false → (barArd s id e).isSome = true → relG s n.toNat = .ok () s1 → barArd s1 id e = some s2 →
          exec (.barArd a n) s = w (barDone s2)) ∧
        (e.kind ≠ .attached → barPub o = false → barPublished s core (fieldOf (s.x b) 5 0) none = none →
          exec (.barPub a b) s = w (barPut s core e.obj (barSet (barSet o 77 77 1) 83 78 (fieldOf (s.x b) 5 0)))) ∧
        (e.kind ≠ .attached → barPub o = false → e.reg = false → barPublished s core (fieldOf (s.x b) 5 0) (some s.grp.ctxid) = some k →
          exec (.barAtt a b) s = w ((barPut s core e.own 0).updBar id (fun e => { e with kind := .attached, obj := k, reg := false, last := none }))) ∧
        (exec (.barRdlo d a) s = wd s (o.setWidth 64)) ∧ (exec (.barRdhi d a) s = wd s ((o >>> 64).setWidth 64))) ∧
      (RedQuiet s n.toNat → relG s n.toNat = .ok () s1 → barSite s (s.x a) (fieldOf (s.x b) 5 0) = none →
        exec (.barRarr d a b n) s = wd (barDone s1) 1) ∧
      (RedQuiet s n.toNat → relG s n.toNat = .ok () s1 → barSite s (s.x a) (fieldOf (s.x b) 5 0) = some (c, i) →
        (s.core c).badBar.contains i = false → waitsAt s.grp.bwait (barLoc c i) = false → ∀ o1, barCount (barObj s c i) = some o1 →
        exec (.barRarr d a b n) s =
          wd (barDone (barPut s1 c i (if barPend o1 ≠ barPend (barObj s c i) then barComplete o1 else o1))) 0)) ∧
  (∀ (d a b : BitVec 5) (n : BitVec 3) (s : State), Placed s → n.toNat ≤ 3 → RedQuiet s n.toNat →
      let id := fieldOf (s.x a) 7 0
      let w : Out := .next (raise s 0 (exc cBARRANGE id) none)
      (s.grp.bmap.length ≤ id ∨ ∃ e, s.grp.bmap[id]? = some e ∧ e.kind = .unmapped) →
        exec (.barInit a b) s = w ∧ exec (.barReg a) s = w ∧ exec (.barArr d a n) s = w ∧ exec (.barWait d a b n) s = w ∧
        exec (.barArd a n) s = w ∧ exec (.barPub a b) s = w ∧ exec (.barAtt a b) s = w ∧ exec (.barRdlo d a) s = w ∧ exec (.barRdhi d a) s = w)

/-- R86 to R89: `loop.beg` of a level in the group's table whose entry is a loop, inside the innermost open level, opens it with index 0, or skips
its body where the count is 0; `loop.first` and `loop.last` inside an open level take the next word (what they govern is decided at that
word); `loop.idx` reads the index, or all ones where the level is closed. -/
def Obligations.LoopInstructions : Prop :=
  ∀ (d : BitVec 5) (l : BitVec 3) (m : BitVec 8) (c : BitVec 4) (s : State), Placed s →
    let open' (st : Nat) : Prop :=
      l.toNat < s.grp.loops.length ∧ (s.grp.loopEnt l.toNat).kind = 0 ∧
      ∀ x ∈ (s.grp.stream st).levels.head?, x.lvl < l.toNat ∧ (s.pc st).toNat + 4 + 4 * (m.toNat + 1) ≤ x.stop
    let opened (st : Nat) : State :=
      (s.updStream st (fun t => { t with
        levels := { lvl := l.toNat, start := t.pc.toNat + 4, stop := t.pc.toNat + 4 + 4 * (m.toNat + 1), idx := 0 } :: t.levels })).advance st
    let skipped (st : Nat) : State := s.setPc st (BitVec.ofNat 64 ((s.pc st).toNat + 4 + 4 * (m.toNat + 1)))
    let count := (s.grp.loopEnt l.toNat).count
    let within (st : Nat) : Prop :=
      (openAt (s.grp.stream st) l.toNat).isSome = true ∧ ∀ x ∈ (s.grp.stream st).levels.head?, (s.pc st).toNat + 4 + 4 * (c.toNat + 1) ≤ x.stop
    (s.grp.hmode = false → open' 0 →
      (count ≠ 0 → exec (.loopBeg l m) s = .next (opened 0)) ∧ (count = 0 → exec (.loopBeg l m) s = .next (skipped 0))) ∧
    (s.strm = .v → open' 1 → (count ≠ 0 → exec (.loopBegXn l m) s = .next (vTick (opened 1))) ∧
      (count = 0 → exec (.loopBegXn l m) s = .next (vTick (skipped 1)))) ∧
    (s.strm = .m ∨ s.strm = .c → open' s.strm.num → (count ≠ 0 → exec (.loopBegXn l m) s = .next (opened s.strm.num)) ∧
      (count = 0 → exec (.loopBegXn l m) s = .next (skipped s.strm.num))) ∧
    (s.grp.hmode = false → within 0 →
      exec (.loopFirst l c) s = .next (s.advance 0) ∧ exec (.loopLast l c) s = .next (s.advance 0)) ∧
    (s.strm = .v → within 1 → exec (.loopFirstXn l c) s = .next (vTick (s.advance 1)) ∧ exec (.loopLastXn l c) s = .next (vTick (s.advance 1))) ∧
    (s.strm = .m ∨ s.strm = .c → within s.strm.num →
      exec (.loopFirstXn l c) s = .next (s.advance s.strm.num) ∧ exec (.loopLastXn l c) s = .next (s.advance s.strm.num)) ∧
    (l.toNat ≤ 5 → exec (.loopIdx d l) s = .next (clearRemote ((s.setX d (match openAt s.grp.ss l.toNat with
      | some x => BitVec.ofNat 64 x.idx
      | none => BitVec.allOnes 64)).advance 0) 0))

/-- R86, R90, R91, R81: at the `end` of its innermost open level a stream takes the next iteration, from the loop's first word with the index
one higher, or closes the level after the last one; elsewhere the step does nothing. Where the level has a register of the stream selected,
the stride is added at once to the register of a scalar, matrix or copy stream (the last time it is taken back as often as it was added);
in the vector stream the add is one more result in flight, of latency 1, and takes an issue cycle. The vector stream waits there while an
undecided `vld` or an earlier update has still to write the register, and while 8 results are in flight. (That the update waits for such
a `vld` is the model's reading of the instruction order of R91, log entry 142.) -/
def Obligations.LoopIterations : Prop :=
  ∀ (l : OpenLevel) (ls : List OpenLevel) (s : State), Placed s →
    let st := s.strm.num
    let u := if s.strm = .v then retireDue s else s
    let e := s.grp.loopEnt l.lvl
    let more : Prop := l.idx + 1 < e.count
    let held : Prop := s.strm = .v ∧ (updateHeld u.grp = true ∨ ((seqTarget u.grp).isSome = true ∧ 8 ≤ u.grp.flight.length))
    (s.grp.stream st).levels = l :: ls → ¬ (s.grp.hmode = true ∧ st = 0) →
    (l.stop ≠ (s.pc st).toNat → exec .loopIterationEnd s = .next s) ∧
    (l.stop = (s.pc st).toNat → held → exec .loopIterationEnd s = .next (vWait u)) ∧
    (l.stop = (s.pc st).toNat → ¬ held → ∃ t, exec .loopIterationEnd s = .next t ∧ t.mem = s.mem ∧
      (more → (t.grp.stream st).levels = { l with idx := l.idx + 1 } :: ls ∧ t.pc st = BitVec.ofNat 64 l.start ∧
        (t.grp.stream st).replay = (s.grp.stream st).replay) ∧
      (¬ more → (t.grp.stream st).levels = ls ∧ t.pc st = s.pc st ∧ (ls = [] → (t.grp.stream st).replay = [])) ∧
      (let sel := (e.sels.getD st 0).toNat
       let r := sel % 32
       let times : Int := if l.idx + 1 < e.count then 1 else -((e.count : Int) - 1)
       let d : Int := (e.strides.getD st 0).toInt * times
       let on (x : Stream) : Prop := 128 ≤ sel ∧ s.strm = x
       (on .s → s.grp.gregs.length = 32 → (r = 0 → t.grp.gregs = s.grp.gregs) ∧
         (r ≠ 0 → t.x (BitVec.ofNat 5 r) = s.x (BitVec.ofNat 5 r) + BitVec.ofInt 64 d ∧ ∀ j, j ≠ BitVec.ofNat 5 r → t.x j = s.x j)) ∧
       (¬ on .s → t.grp.gregs = s.grp.gregs) ∧
       (on .v → t.grp.vcyc = u.grp.vcyc + 1 ∧ t.grp.flight = u.grp.flight ++ [{
         isMask := false, num := r, vals := (u.grp.v r).map (fun x => x + BitVec.ofInt 32 d), kval := 0, lanes := BitVec.allOnes 128,
         part := 0, due := u.grp.vcyc + 1, push := 0 }]) ∧
       (¬ on .v → t.grp.flight = u.grp.flight ∧ t.grp.vcyc = s.grp.vcyc) ∧ t.grp.vregs = u.grp.vregs ∧
       t.grp.dregs = (if 128 ≤ sel ∧ s.strm = .m then updAt s.grp.dregs r (fun x => dBase x (fun b => b + BitVec.ofInt 32 d)) else s.grp.dregs) ∧
       t.grp.aregs = if 128 ≤ sel ∧ s.strm = .c then updAt s.grp.aregs r (fun x => x + BitVec.ofInt 64 d) else s.grp.aregs))

-- Vector -----------------------------------------------------------------------------------------------------------------

/-- R161, R155, R158: a floating vector instruction of type `f32`, `bf16` or `h16` makes, with latency 4, in each lane of its mask the result of
its table row: each 32-bit element or each 16-bit half computed exactly and rounded once. TYPE 3 raises ILLEGAL. -/
def Obligations.VectorFloats : Prop :=
  ∀ (p q : BitVec 3) (d a b : BitVec 5) (k : BitVec 3) (t : BitVec 2) (s : State), Placed s →
    VOpen s p q [d.toNat, a.toNat, b.toNat] false true →
    let g := (retireDue s).grp
    let F := if t = 0 then fmtF32 else if t = 1 then fmtBf16 else fmtH16
    let v := fpDecode F
    let nan (x y : Nat) : Bool := fpIsNan F x || fpIsNan F y
    let w (f : Nat → Nat → Nat → Nat) : Out := .next (vMade s p q 4 (vres d (g.k k.toNat)
      (lanes (fun i => onElems (t != 0) f (g.lane a.toNat i) (g.lane b.toNat i) (g.lane d.toNat i)))))
    (t ≠ 3 →
      exec (.vadd p q d a b k t) s = w (fun x y _ => fpEncode F (fpSum (v x) (v y))) ∧
      exec (.vsub p q d a b k t) s = w (fun x y _ => fpEncode F (fpSum (v x) (fpNeg (v y)))) ∧
      exec (.vmul p q d a b k t) s = w (fun x y _ => fpEncode F (fpProd (v x) (v y))) ∧
      exec (.vfma p q d a b k t) s = w (fun x y z => fpEncode F (fpSum (fpProd (v x) (v y)) (v z))) ∧
      exec (.vfms p q d a b k t) s = w (fun x y z => fpEncode F (fpSum (v z) (fpNeg (fpProd (v x) (v y))))) ∧
      exec (.vmin p q d a b k t) s = w (fun x y _ => if nan x y then fpNan F else if fpLess F y x then y else x) ∧
      exec (.vmax p q d a b k t) s = w (fun x y _ => if nan x y then fpNan F else if fpLess F x y then y else x)) ∧
    (t = 3 → exec (.vadd p q d a b k t) s = .next (illegal s 1) ∧ exec (.vsub p q d a b k t) s = .next (illegal s 1) ∧
      exec (.vmul p q d a b k t) s = .next (illegal s 1) ∧ exec (.vfma p q d a b k t) s = .next (illegal s 1) ∧
      exec (.vfms p q d a b k t) s = .next (illegal s 1) ∧ exec (.vmin p q d a b k t) s = .next (illegal s 1) ∧
      exec (.vmax p q d a b k t) s = .next (illegal s 1))

/-- R162 to R164: the integer, logic, shift and immediate forms make, with latency 1, in each lane of their mask the result of their table
row: 32-bit elements for TYPE 0 and 1, pairs of 16-bit elements for 2 and 3, an even TYPE signed. R162: a signed element result is the
exact sum, difference or product limited to the element's range, an unsigned one is taken modulo 2^w; the high half of a product and the
smaller and larger of two elements follow their sign. -/
def Obligations.VectorIntegers : Prop :=
  (∀ (p q : BitVec 3) (d a b : BitVec 5) (k : BitVec 3) (t : BitVec 2) (i : BitVec 7) (n : BitVec 5) (s : State), Placed s →
      let g := (retireDue s).grp
      (VOpen s p q [d.toNat, a.toNat, b.toNat] false true →
        let w (f : W32 → W32 → W32) : Out := .next (vMade s p q 1 (vres d (g.k k.toNat) (lanes (fun i => f (g.lane a.toNat i) (g.lane b.toNat i)))))
        let e (op : Nat) : Out := w (fun x y => onElems (2 ≤ t.toNat) (fun x y _ => intElem (if 2 ≤ t.toNat then 16 else 32) (t.toNat % 2 == 0) op x y) x y 0)
        exec (.vaddInteger p q d a b k t) s = e 8 ∧ exec (.vsubInteger p q d a b k t) s = e 9 ∧ exec (.vmulInteger p q d a b k t) s = e 10 ∧
        exec (.vmulh p q d a b k t) s = e 11 ∧ exec (.vminInteger p q d a b k t) s = e 12 ∧ exec (.vmaxInteger p q d a b k t) s = e 13 ∧
        exec (.vand p q d a b k) s = w (fun x y => x &&& y) ∧ exec (.vor p q d a b k) s = w (fun x y => x ||| y) ∧
        exec (.vxor p q d a b k) s = w (fun x y => x ^^^ y) ∧ exec (.vshl p q d a b k) s = w (fun x y => x <<< (y.toNat % 32)) ∧
        exec (.vshr p q d a b k) s = w (fun x y => x >>> (y.toNat % 32)) ∧
        exec (.vsra p q d a b k) s = w (fun x y => x.sshiftRight (y.toNat % 32))) ∧
      (VOpen s p q [d.toNat, a.toNat] false true →
        let w (f : W32 → W32) : Out := .next (vMade s p q 1 (vres d (g.k k.toNat) ((g.v a.toNat).map f)))
        exec (.vaddi p q d a k i) s = w (fun x => x + i.signExtend 32) ∧ exec (.vandi p q d a k i) s = w (fun x => x &&& i.signExtend 32) ∧
        exec (.vshli p q d a k n) s = w (fun x => x <<< n.toNat) ∧ exec (.vshri p q d a k n) s = w (fun x => x >>> n.toNat))) ∧
  (∀ (w a b : Nat), w = 16 ∨ w = 32 → a < 2 ^ w → b < 2 ^ w →
      let x := (BitVec.ofNat w a).toInt
      let y := (BitVec.ofNat w b).toInt
      let lim (z : Int) : Int := max (-(2 ^ (w - 1))) (min z (2 ^ (w - 1) - 1))
      let sv (op : Nat) : Int := (BitVec.ofNat w (intElem w true op a b)).toInt
      sv 8 = lim (x + y) ∧ sv 9 = lim (x - y) ∧ sv 10 = lim (x * y) ∧ sv 11 = x * y / 2 ^ w ∧ sv 12 = min x y ∧ sv 13 = max x y ∧
      intElem w false 8 a b = (a + b) % 2 ^ w ∧ (intElem w false 9 a b + b) % 2 ^ w = a ∧ intElem w false 10 a b = a * b % 2 ^ w ∧
      intElem w false 11 a b = a * b / 2 ^ w ∧ intElem w false 12 a b = min a b ∧ intElem w false 13 a b = max a b)

/-- R165 to R168: constants, moves, selection and permutes make their lanes with latency 1; `vsel` selects by K and writes every lane. -/
def Obligations.VectorMoves : Prop :=
  ∀ (p q : BitVec 3) (d a b : BitVec 5) (k : BitVec 3) (i : BitVec 15) (n : BitVec 6) (s : State), Placed s →
    let g := (retireDue s).grp
    let x := g.lane a.toNat
    let y := g.lane b.toNat
    let z := g.lane d.toNat
    let all := BitVec.allOnes 128
    let w (m : BitVec 128) (f : Nat → W32) : Out := .next (vMade s p q 1 (vres d m (lanes f)))
    (VOpen s p q [d.toNat] false true →
      exec (.vli p q d i) s = w all (fun _ => i.signExtend 32) ∧
      exec (.vlih p q d i) s = .next (vMade s p q 1 (vres d all ((g.v d.toNat).map (fun x => BitVec.ofNat 32 (x.toNat * 2 ^ 15 + i.toNat)))))) ∧
    (VOpen s p q [d.toNat, a.toNat] false true →
      exec (.vmov p q d a k) s = .next (vMade s p q 1 (vres d (g.k k.toNat) ((g.v a.toNat).map (fun x => x)))) ∧
      exec (.vlane p q d a k n) s = w (g.k k.toNat) (fun _ => x n.toNat)) ∧
    (VOpen s p q [d.toNat, a.toNat, b.toNat] false true →
      exec (.vsel p q d a b k) s = w all (fun j => if (g.k k.toNat).getLsbD j then x j else y j) ∧
      exec (.vperm p q d a b k) s = w (g.k k.toNat) (fun j => x ((y j).toNat % 128)) ∧
      exec (.vshuf p q d a b k) s = w (g.k k.toNat) (fun j => if (y j).toNat / 128 % 2 = 1 then z ((y j).toNat % 128) else x ((y j).toNat % 128)) ∧
      exec (.vrot p q d a b k) s = w (g.k k.toNat) (fun j => x ((j + (y 0).toNat % 128) % 128)) ∧
      exec (.vzip p q d a b k) s = w (g.k k.toNat) (fun j => if j % 2 = 0 then x (j / 2) else y ((j - 1) / 2)))

/-- R172 to R174: `vcmp` writes a whole mask, 0 in the lanes that its mask leaves out; the mask forms combine masks; `kpush`, `kpop` and `kelse`
change the mask stack at their issue where its depth admits it, and raise MASK_STACK with the depth where not; `k0` as a destination
raises ILLEGAL (R48). -/
def Obligations.VectorMasks : Prop :=
  ∀ (p q x y k : BitVec 3) (a b : BitVec 5) (t c : BitVec 2) (s : State), Placed s →
    let r := retireDue s
    let g := r.grp
    let w (v : BitVec 128) : Out := .next (vMade s p q 1 (kres x v))
    let stk (l : List (BitVec 128)) : State := r.updGrp (fun g => { g with mstack := l })
    (x ≠ 0 → VOpen s p q [a.toNat, b.toNat] false true → ¬ (t = 3 ∧ 2 ≤ c.toNat) →
      exec (.vcmp p q x a b k t c) s =
        w (BitVec.ofNat 128 (maskOf 128 (fun i => (g.k k.toNat).getLsbD i && cmpLane t.toNat c.toNat (g.lane a.toNat i) (g.lane b.toNat i))))) ∧
    (x ≠ 0 → VOpen s p q [] false true →
      exec (.kand p q x y k) s = w (g.k k.toNat &&& g.k y.toNat) ∧ exec (.kor p q x y k) s = w (g.k k.toNat ||| g.k y.toNat) ∧
      exec (.kxor p q x y k) s = w (g.k k.toNat ^^^ g.k y.toNat) ∧ exec (.kandn p q x y k) s = w (g.k k.toNat &&& ~~~ g.k y.toNat) ∧
      exec (.kmov p q x k) s = w (g.k k.toNat) ∧ exec (.knot p q x k) s = w (~~~ g.k k.toNat) ∧
      (g.mstack.length ≠ 16 → VOpen (stk (g.k x.toNat :: g.mstack)) p q [] false true →
        exec (.kpush p q x k) s = .next (vMade (stk (g.k x.toNat :: g.mstack)) p q 1 (kres x (g.k x.toNat &&& g.k k.toNat)))) ∧
      (∀ m l, g.mstack = m :: l → VOpen (stk l) p q [] false true → exec (.kpop p q x) s = .next (vMade (stk l) p q 1 (kres x m))) ∧
      (∀ m l, g.mstack = m :: l → VOpen (stk (m :: l)) p q [] false true →
        exec (.kelse p q x) s = .next (vMade (stk (m :: l)) p q 1 (kres x (m &&& ~~~ g.k x.toNat)))) ∧
      (g.mstack.length = 16 → exec (.kpush p q x k) s = .next (raise r 1 (exc cMASKSTK 16) none)) ∧
      (g.mstack = [] → exec (.kpop p q x) s = .next (raise r 1 (exc cMASKSTK 0) none) ∧
        exec (.kelse p q x) s = .next (raise r 1 (exc cMASKSTK 0) none))) ∧
    (x = 0 → exec (.vcmp p q x a b k t c) s = .next (illegal s 1) ∧ exec (.kand p q x y k) s = .next (illegal s 1) ∧
      exec (.kor p q x y k) s = .next (illegal s 1) ∧ exec (.kxor p q x y k) s = .next (illegal s 1) ∧
      exec (.kandn p q x y k) s = .next (illegal s 1) ∧ exec (.kmov p q x k) s = .next (illegal s 1) ∧
      exec (.knot p q x k) s = .next (illegal s 1) ∧ exec (.kpush p q x k) s = .next (illegal s 1) ∧
      exec (.kpop p q x) s = .next (illegal s 1) ∧ exec (.kelse p q x) s = .next (illegal s 1))

/-- R175: the branches of the vector stream test a mask for any, all or no set bits; taken, they go to pc + 4 × sext(OFF15), else to the next
word; `vj` is always taken. -/
def Obligations.VectorBranches : Prop :=
  ∀ (p q k : BitVec 3) (o : BitVec 15) (s : State), Placed s → VOpen s p q [] false false →
    let r := retireDue s
    let m := r.grp.k k.toNat
    let w (c : Prop) [Decidable c] : Out := .next (vDone (if c then r.branch 1 (r.pc 1 + 4 * o.signExtend 64) else r.advance 1) p q)
    exec (.vbrAny p q k o) s = w (m ≠ 0) ∧ exec (.vbrAll p q k o) s = w (m = BitVec.allOnes 128) ∧ exec (.vbrNone p q k o) s = w (m = 0) ∧
    exec (.vj p q o) s = w True

/-- R169, R170, R176, R177: a conversion of the table makes its lanes with latency 4, in the part of the lane that it writes; a
transcendental makes its lanes with latency 8; a reduction makes lane 0 from the tree over the 128 lanes, with the identity in the
inactive ones, and `vrmaxi` lanes 0 and 1, the maximum and its lane, or with no active lane the least value and all ones: the lane is the
lowest active one that holds a NaN, or where none does the lowest active one that no other exceeds. R170, Table 9-5: the results that the transcendental unit gives
exactly: of infinities and NaN, of zero and of negative operands, and of the powers of two. -/
def Obligations.VectorFunctions : Prop :=
  (∀ (p q : BitVec 3) (d a : BitVec 5) (k : BitVec 3) (f : BitVec 7) (t : BitVec 2) (s : State), Placed s →
      VOpen s p q [d.toNat, a.toNat] false true →
      let g := (retireDue s).grp
      let m := g.k k.toNat
      let w (h : W32 → W32) : Out := .next (vMade s p q 8 (vres d m ((g.v a.toNat).map h)))
      let tree (r : (W32 → W32 → W32) × W32) : Out :=
        .next (vMade s p q 8 (vres d 1 [tree128 r.1 (lanes (fun i => if m.getLsbD i then g.lane a.toNat i else r.2))]))
      ((f.toNat ≤ 12 ∨ (16 ≤ f.toNat ∧ f.toNat ≤ 31)) →
        exec (.vcvt p q d a k f) s = .next (vMade s p q 4 { vres d m ((g.v a.toNat).map (cvtLane f.toNat)) with part := cvtPart f.toNat })) ∧
      exec (.vexp2 p q d a k) s = w fpExp2 ∧ exec (.vlog2 p q d a k) s = w fpLog2 ∧ exec (.vrcp p q d a k) s = w fp32Rcp ∧
      exec (.vrsqrt p q d a k) s = w fp32Rsqrt ∧ exec (.vsin p q d a k) s = w fpSin ∧ exec (.vcos p q d a k) s = w fpCos ∧
      exec (.vtanh p q d a k) s = w fpTanh ∧
      (t ≠ 3 →
        exec (.vradd p q d a k t) s = tree (if t = 0 then (fp32Add, 0x80000000) else (fun x y => x + y, 0)) ∧
        exec (.vrmax p q d a k t) s = tree (redOp 1 t.toNat) ∧ exec (.vrmin p q d a k t) s = tree (redOp 2 t.toNat) ∧
        (m = 0 → exec (.vrmaxi p q d a k t) s =
          .next (vMade s p q 8 (vres d 3 [if t = 0 then 0xFF800000 else if t = 1 then 0x80000000 else 0, 0xFFFFFFFF]))) ∧
        (m ≠ 0 → (rmaxiLane t.toNat m (g.v a.toNat)).isSome = true) ∧
        (∀ j, rmaxiLane t.toNat m (g.v a.toNat) = some j → j < 128 ∧ m.getLsbD j = true ∧
          (let x := g.lane a.toNat
           let less (y z : W32) : Bool := if t = 0 then f32Less y z else if t = 1 then y.slt z else y.ult z
           let nan (i : Nat) : Bool := t == 0 && isNan (x i)
           ∀ i, i < 128 → m.getLsbD i = true →
             (nan j = true → i < j → nan i = false) ∧
             (nan j = false → nan i = false ∧ less (x j) (x i) = false ∧ (i < j → less (x i) (x j) = true))) ∧
          exec (.vrmaxi p q d a k t) s =
            .next (vMade s p q 8 (vres d 3 [if t = 0 ∧ isNan (g.lane a.toNat j) = true then nan32 else g.lane a.toNat j, BitVec.ofNat 32 j]))))) ∧
  ((∀ x : W32, isNan x = true → fpExp2 x = nan32 ∧ fpLog2 x = nan32 ∧ fpSin x = nan32 ∧ fpCos x = nan32 ∧ fpTanh x = nan32) ∧
    fpExp2 0x7F800000 = 0x7F800000 ∧ fpExp2 0xFF800000 = 0 ∧ fpExp2 0 = 0x3F800000 ∧ fpExp2 0x80000000 = 0x3F800000 ∧
    fpExp2 0x43000000 = 0x7F800000 ∧ fpExp2 0x40400000 = 0x41000000 ∧
    fpLog2 0 = 0xFF800000 ∧ fpLog2 0x80000000 = 0xFF800000 ∧ fpLog2 0xBF800000 = nan32 ∧ fpLog2 0x7F800000 = 0x7F800000 ∧
    fpLog2 0x3F800000 = 0 ∧ fpLog2 0x41000000 = 0x40400000 ∧ fpLog2 0xFF800000 = nan32 ∧
    fpSin 0x7F800000 = nan32 ∧ fpCos 0xFF800000 = nan32 ∧ fpTanh 0x7F800000 = 0x3F800000 ∧ fpTanh 0xFF800000 = 0xBF800000 ∧
    fpTanh 0 = 0 ∧ fpTanh 0x80000000 = 0x80000000)

/-- R158, R156, R103, R160: the results in flight are written when their stream cycle has come, and not before: the event writes those that
are due, in the order of their cycles and those of one cycle in the order of their issue. Each writes exactly the lanes of its mask of its
vector register, or the bits of its mask register, keeps every other lane and register, and makes its pushes; those not due stay in
flight. With none due nothing changes. -/
def Obligations.ResultsLand : Prop :=
  ∀ (h : BitVec 64) (s : State), (s.focus h).focused h = true → (s.focus h).grp.st = .running →
    (s.focus h).grp.vregs.length = 32 → (s.focus h).grp.kregs.length = 8 →
    let g := (s.focus h).grp
    let due := g.flight.filter (fun f => f.due ≤ g.vcyc)
    let order := flightOrder due
    let wrote (f : Flight) (r i : Nat) (x : W32) : W32 :=
      if f.isMask = false ∧ f.num = r ∧ f.lanes.getLsbD i = true then partMerge f.part x (f.vals.getD i 0) else x
    let masked (f : Flight) (r : Nat) (x : BitVec 128) : BitVec 128 :=
      if f.isMask = true ∧ f.num = r then (x &&& ~~~f.lanes) ||| (f.kval &&& f.lanes) else x
    exec (.latchWrite h) s = exec (.vectorResultWrite h) s ∧
    (List.Perm order due ∧ order.Pairwise (fun a b => a.due ≤ b.due) ∧
      ∀ c, order.filter (fun f => f.due = c) = due.filter (fun f => f.due = c)) ∧
    (∃ t, exec (.vectorResultWrite h) s = .next t ∧ t.grp.flight = g.flight.filter (fun f => g.vcyc < f.due) ∧
      (∀ r i, r < 32 → i < 128 → t.grp.lane r i = order.foldl (fun x f => wrote f r i x) (g.lane r i)) ∧
      (∀ r, r < 8 → r ≠ 0 → t.grp.k r = order.foldl (fun x f => masked f r x) (g.k r)) ∧
      (let u := order.foldl (fun u f => tokDone u 1 f.push) (s.focus h)
       t.grp.toks = u.grp.toks ∧ t.grp.resv = u.grp.resv ∧ t.grp.toksat = u.grp.toksat) ∧
      (∀ r, (∀ f ∈ due, f.isMask = true ∨ f.num ≠ r) → t.grp.v r = g.v r) ∧
      t.grp.gregs = g.gregs ∧ t.grp.scratch = g.scratch ∧ t.mem = s.mem) ∧
    (∀ f, g.flight = [f] → f.due ≤ g.vcyc →
      ∃ t, exec (.vectorResultWrite h) s = .next t ∧ t.grp.flight = [] ∧
        t.grp.toks = (tokDone (s.focus h) 1 f.push).grp.toks ∧ t.grp.resv = (tokDone (s.focus h) 1 f.push).grp.resv ∧
        (f.isMask = false → f.num < 32 → t.grp.kregs = g.kregs ∧ ∀ i, i < 128 → t.grp.lane f.num i =
          if f.lanes.getLsbD i then partMerge f.part (g.lane f.num i) (f.vals.getD i 0) else g.lane f.num i) ∧
        (f.isMask = true → f.num < 8 → f.num ≠ 0 → t.grp.vregs = g.vregs ∧
          t.grp.k f.num = ((g.k f.num &&& ~~~f.lanes) ||| (f.kval &&& f.lanes)) ∧ ∀ r, r ≠ f.num → t.grp.k r = g.k r)) ∧
    (due = [] → exec (.vectorResultWrite h) s = .next (s.focus h))

/-- R183, R185, R186: `vld` leaves its register, its address and its mask to be decided, and the stream goes on; its decision writes the active
lanes and makes its pushes, or releases its reservations and delivers its fault; the replay of a failed load takes one stream cycle. `vst` whose active lanes
pass their checks writes them in lane order; one that waits has read its address, its mask and its data at its issue (R158), and goes on with
those. -/
def Obligations.VectorLoadsAndStores : Prop :=
  ∀ (p q : BitVec 3) (d a : BitVec 5) (k : BitVec 3) (o : BitVec 7) (h : BitVec 64) (op : VldOp) (vals : List W32) (e : Exc) (x : VSrc) (s s1 s2 : State),
    let r := retireDue s
    let rest (t : State) (y : Option VSrc) : State := t.updGrp (fun g => { g with vsrc := y })
    let ea := ((((r.grp.lane a.toNat 0).toNat + 2 ^ 32 * (r.grp.lane (a.toNat + 1) 0).toNat : Nat) : Int) + 512 * o.toInt) % 2 ^ 64
    let m := r.grp.k k.toNat
    (Placed s → a.toNat % 2 = 0 → VOpen s p q [d.toNat, a.toNat, a.toNat + 1] true false →
      exec (.vld p q d a k o) s = .next (vTick (((tokIssue r 1 p q).updGrp (fun g => { g with
        vld := some { pc := r.pc 1, word := r.iw, num := d.toNat, addr := BitVec.ofNat 64 ea.toNat, mask := m, push := q } })).advance 1)) ∧
      (r.grp.vsrc = none → storeLanesCheck r ea.toNat m = .ok () s1 → storeLanes s1 ea.toNat m (r.grp.v d.toNat) = .ok () s2 →
        exec (.vst p q d a k o) s = .next (vDone (rest (s2.advance 1) none) p q)) ∧
      (r.grp.vsrc = none → storeLanesCheck r ea.toNat m = .wait s1 →
        exec (.vst p q d a k o) s =
          .next (vTick ((rest s1 (some { addr := BitVec.ofNat 64 ea.toNat, zero := 0, mask := m, vals := r.grp.v d.toNat })).block 1)))) ∧
    (Placed s → a.toNat % 2 = 0 → r.grp.vsrc = some x → storeLanesCheck r x.addr.toNat x.mask = .ok () s1 →
      storeLanes s1 x.addr.toNat x.mask x.vals = .ok () s2 → exec (.vst p q d a k o) s = .next (vDone (rest (s2.advance 1) none) p q)) ∧
    (Placed s → a.toNat % 2 = 1 → exec (.vld p q d a k o) s = .next (illegal s 1) ∧ exec (.vst p q d a k o) s = .next (illegal s 1)) ∧
    ((s.focus h).focused h = true → (s.focus h).grp.st = .running → (s.focus h).grp.vld = some op →
      readLanes (s.focus h) op.addr.toNat op.mask = .ok vals s1 →
      exec (.vldChecksDecided h) s =
        .next (retireIfEnded (clearRemote (tokDone (s1.updGrp (fun g => { g.setV op.num op.mask 0 vals with vld := none })) 1 op.push) 1))) ∧
    ((s.focus h).focused h = true → (s.focus h).grp.vld = some op → readLanes (s.focus h) op.addr.toNat op.mask = .fault e s1 →
      s1.grp.saving = false →
      exec (.vldChecksDecided h) s =
        .next (deliverWith (tokRelease (clearRemote (s1.updGrp (fun g => { g with vld := none })) 1) 1 op.push) (vldFault op e s1.cycle) (some op))) ∧
    ((s.focus h).focused h = true → (s.focus h).grp.st = .running → (s.focus h).grp.vreplay = some op → (s.focus h).grp.vld = none →
      held (s.focus h) (s.focus h).grp = false → coreMoving (s.focus h) (s.focus h).grp = false →
      pushRoom (retireDue (s.focus h)).grp (pushSet 1 op.push) 1 = true →
      exec (.vldReplay h) s =
        .next (vTick ((tokIssue (retireDue (s.focus h)) 1 0 op.push).updGrp (fun g => { g with vld := some op, vreplay := none }))))

/-- R183, R188, R61: a gather, a scatter and a look-up that issue afresh capture their addresses and their mask and begin at element 0; each
element of the mask reads or writes its 4 bytes, and after the last the instruction completes: its pushes are made, its progress is
cleared and the next word is taken. -/
def Obligations.VectorMultiStep : Prop :=
  ∀ (p q : BitVec 3) (d a : BitVec 5) (k : BitVec 3) (o : BitVec 7) (h : BitVec 64) (c : VCmd) (v : Nat) (s s1 : State),
    let r := retireDue s
    let started (e : Out) (names : List Nat) (c : VCmd) : Prop :=
      Placed s → prgValid r.grp.prgv = false → VOpen s p q names true false →
      e = .next (vTick (((tokIssue r 1 p q).updGrp (fun g => { g with prgv := prgClear g.prgv })).updGrp (fun g => { g with
        vcmd := some { c with pc := r.pc 1, word := r.iw, pops := p, push := q, elem := 0, resumed := false } })))
    let addrs := tab 128 (fun i => BitVec.ofNat 64 (dispAddr ((r.grp.lane a.toNat i).toNat + 2 ^ 32 * (r.grp.lane (a.toNat + 1) i).toNat) (4 * o.toInt)))
    (a.toNat % 2 = 0 → started (exec (.vgather p q d a k o) s) [d.toNat, a.toNat, a.toNat + 1]
      { VCmd.new .gather with vd := d.toNat, addrs := addrs, vals := r.grp.v d.toNat, mask := r.grp.k k.toNat }) ∧
    (a.toNat % 2 = 0 → started (exec (.vscatter p q d a k o) s) [d.toNat, a.toNat, a.toNat + 1]
      { VCmd.new .scatter with vd := d.toNat, addrs := addrs, vals := r.grp.v d.toNat, mask := r.grp.k k.toNat }) ∧
    started (exec (.vlut p q d a k o) s) [d.toNat, a.toNat]
      { VCmd.new .lut with vd := d.toNat, addrs := (r.grp.v a.toNat).map (fun x => (x + 4 * o.signExtend 32).setWidth 64), mask := r.grp.k k.toNat } ∧
    ((s.focus h).focused h = true → goesOn (s.focus h) 1 = true → (s.focus h).grp.vcmd = some c →
      let u := retireDue (s.focus h)
      let e := (c.addrs.getD c.elem 0).toNat
      let put : State := s1.updGrp (fun g => g.setV c.vd (BitVec.ofNat 128 (2 ^ c.elem)) 0 (tab 128 (fun _ => BitVec.ofNat 32 v)))
      let go (t : State) : Out := .next (vTick (if 128 ≤ c.elem + 1 then endVCmd (clearRemote t 1) c.push
        else (clearRemote t 1).updGrp (fun g => { g with vcmd := some { c with elem := c.elem + 1 } })))
      (c.kind ≠ .quant → c.mask.getLsbD c.elem = false → exec (.vectorElement h) s = go u) ∧
      (c.mask.getLsbD c.elem = true → e % 4 = 0 →
        (c.kind = .gather → vaRead u 1 e 4 = .ok v s1 → exec (.vectorElement h) s = go put) ∧
        (c.kind = .scatter → vaWrite u e 4 (c.vals.getD c.elem 0).toNat = .ok () s1 → exec (.vectorElement h) s = go s1) ∧
        (c.kind = .lut → scrRead u e 4 4 = .ok v s1 → exec (.vectorElement h) s = go put)))

/-- R178 to R180: `vquant` of a row that passes its checks starts at its first group; a group adds to the open block, or closes it and opens
the next; the last group of the row then closes its block too, and the instruction completes: lane 0 of vd takes the number of blocks, its
pushes are made, its progress is cleared and the next word is taken. A group that meets an uncorrectable block of SRC faults at the block's
first group. -/
def Obligations.VectorQuantisation : Prop :=
  ∀ (p q : BitVec 3) (d a : BitVec 5) (k : BitVec 3) (m : BitVec 1) (st : BitVec 3) (h : BitVec 64) (c : VCmd) (s : State),
    let r := retireDue s
    let qd := qDesc (r.grp.v a.toNat)
    (Placed s → prgValid r.grp.prgv = false → VOpen s p q [d.toNat, a.toNat] true false → qCheck r qd = .ok () r →
      exec (.vquant p q d a k m st) s =
        .next (vTick (((tokIssue r 1 p q).updGrp (fun g => { g with prgv := prgClear g.prgv })).updGrp (fun g => { g with
          vcmd := some { VCmd.new .quant with
            vd := d.toNat, vals := (r.grp.v a.toNat).take 5, mask := r.grp.k k.toNat, s4 := m == 1, step := st.toNat,
            bnum := bmapCount r.grp qd.bmap 0, pc := r.pc 1, word := r.iw, pops := p, push := q } })))) ∧
    ((s.focus h).focused h = true → goesOn (s.focus h) 1 = true → (s.focus h).grp.vcmd = some c → c.kind = .quant →
      let u := retireDue (s.focus h)
      let e := qDesc c.vals
      let ge := qGroupExp u.grp e c.mask c.elem
      let new := quantNew c.step c.blen c.bm ge (c.elem == c.bstart)
      let put : State := if new && c.blen > 0 then qClose u e c else u
      let next : VCmd := if new then { c with bstart := c.elem, blen := 1, bm := ge, bnum := if c.blen > 0 then c.bnum + 1 else c.bnum, elem := c.elem + 1 }
        else { c with blen := c.blen + 1, bm := maxOpt c.bm ge, elem := c.elem + 1 }
      (scrBad u (e.src + 64 * c.elem) 64 = none → c.elem + 1 < e.count / 16 →
        exec (.vquantGroup h) s = .next (vTick (put.updGrp (fun g => { g with vcmd := some next })))) ∧
      (scrBad u (e.src + 64 * c.elem) 64 = none → e.count / 16 ≤ c.elem + 1 →
        exec (.vquantGroup h) s =
          .next (vTick (endVCmd ((qClose put e next).updGrp (fun g => g.setV c.vd 1 0 [BitVec.ofNat 32 (next.bnum + 1)])) c.push))) ∧
      (∀ j, scrBad u (e.src + 64 * c.elem) 64 = some j →
        exec (.vquantGroup h) s = .next (vElementFault u c (exc cMEMUNC (max (e.src + 64 * c.elem) (16 * j)) 1) c.bstart)))

/-- R181, R197, R157: `vrescale` writes the active lanes from its table in scratch. In scratch `vldfe` takes the full granules of its active lanes and
leaves them empty, and `vstfe` fills empty ones; with no active lane they have no effect. Of a FIFO with 32 granules or more `vldfe` pops
32, granule j to lanes 4j to 4j + 3, and into one with room for 32 `vstfe` pushes 32 with 0 for its inactive lanes. That `vrescale` and `vldfe` write their interlocked results in the step
that issues them is the model's choice: log entry 25 (DEDUCED). -/
def Obligations.VectorLocalMemory : Prop :=
  ∀ (p q : BitVec 3) (d a t : BitVec 5) (k : BitVec 3) (o : BitVec 7) (v : Nat) (s s1 : State), Placed s →
    let r := retireDue s
    let m := r.grp.k k.toNat
    let off := ((((r.grp.lane a.toNat 0).toNat : Int) + 512 * o.toInt) % 2 ^ 32).toNat
    let gs := (feGranules m).map (fun j => off / 16 + j)
    (VOpen s p q [d.toNat, a.toNat, t.toNat] true false → r.grp.vsrc = none → scrRead r (r.grp.lane t.toNat 0).toNat 2048 16 = .ok v s1 →
      exec (.vrescale p q d a k t) s = .next (vDone (((s1.updGrp (fun g => g.setV d.toNat m 0 (tab 128 (fun i =>
        if m.getLsbD i then rescale (fp32 ((r.grp.lane t.toNat 1).setWidth 16).toInt 0) (v / 2 ^ (128 * i) % 2 ^ 128) (r.grp.lane a.toNat i) else 0)))).advance 1).updGrp (fun g => { g with vsrc := none })) p q)) ∧
    (VOpen s p q [d.toNat, a.toNat] true false → 2 ^ 31 ≤ off → feCheck r off m = .ok () r →
      let f := (off - 2 ^ 31) / 131072
      let z := r.grp.fifo f
      (32 ≤ z.count → z.badTop 32 = false →
        exec (.vldfe p q d a k o) s = .next (vDone (((r.updFifo f (fun _ => (Fifo.popN 32 z).2)).updGrp (fun g =>
          g.setV d.toNat m 0 (tab 128 (fun i => (getA z.data ((z.head + i / 4) % 16384 % 8192) 0 >>> (32 * (i % 4))).setWidth 32)))).advance 1) p q) ∧
        (z.head < 16384 → (Fifo.popN 32 z).2 = { z with head := (z.head + 32) % 16384 })) ∧
      (z.count ≤ 8160 → exec (.vstfe p q d a k o) s = .next (vDone ((r.updFifo f (fun z => (List.range 32).foldl (fun z j =>
        z.push (BitVec.ofNat 128 (packNat 32 ((List.range 4).map (fun i =>
          if m.getLsbD (4 * j + i) then (r.grp.lane d.toNat (4 * j + i)).toNat else 0))))) z)).advance 1) p q))) ∧
    (VOpen s p q [d.toNat, a.toNat] true false → off < 2 ^ 31 → m = 0 →
      exec (.vldfe p q d a k o) s = .next (vDone ((r.updGrp (fun g => g.setV d.toNat 0 0 (tab 128 (fun _ => 0)))).advance 1) p q) ∧
      exec (.vstfe p q d a k o) s = .next (vDone (r.advance 1) p q)) ∧
    (VOpen s p q [d.toNat, a.toNat] true false → off < 2 ^ 31 → m ≠ 0 → feCheck r off m = .ok () r →
      ((∀ j ∈ gs, j ∈ r.grp.full) → (∀ j ∈ gs, j ∉ r.grp.badScr) → r.grp.scr off 512 = v →
        exec (.vldfe p q d a k o) s = .next (vDone ((r.updGrp (fun g => gs.foldl Group.drain
          (g.setV d.toNat m 0 (tab 128 (fun i => BitVec.ofNat 32 (v / 2 ^ (32 * i))))))).advance 1) p q)) ∧
      ((∀ j ∈ gs, j ∉ r.grp.full) →
        exec (.vstfe p q d a k o) s = .next (vDone ((((List.range 128).foldl (fun s i =>
          if m.getLsbD i then s.setScr (off + 4 * i) 4 ((r.grp.lane d.toNat i).toNat) else s) r).updGrp (fun g => gs.foldl Group.fill g)).advance 1) p q)))

/-- R199, R203: a drain of an allocated bank reads or writes, for each of its active lanes, the cell that its column or row and that lane
name, where the bank's band admits the cell's row: the reading forms write the active lanes of vd, the clearing ones leave the cells +0.0,
`vacc.wcol` stores the lanes and `vacc.acol` the sums rounded once; every other cell of the core keeps its value. Of a bank that is not
allocated, a write raises ACC_UNALLOC at its first active lane and a read gives +0.0 with ACCUNALLOC set. That a drain writes its interlocked
result in the step that issues it, and so before an exposed result still in flight, is the model's choice: log entry 25 (DEDUCED). -/
def Obligations.AccumulatorDrains : Prop :=
  ∀ (p q : BitVec 3) (d a : BitVec 5) (k : BitVec 3) (e : AEntry) (s : State), Placed s → VOpen s p q [d.toNat, a.toNat] false false →
    let r := retireDue s
    let b := (r.grp.lane a.toNat 0).toNat % 16
    let x := (r.grp.lane a.toNat 0).toNat / 16 % 128
    let m := r.grp.k k.toNat
    let core := r.grp.core
    let on (i : Nat) : Prop := i < 128 ∧ m.getLsbD i = true
    let col (i : Nat) : Nat := cellOf e.phys i x
    let row (i : Nat) : Nat := if i < 64 then cellOf e.phys x i else cellOf e.phys (x + 1) (i - 64)
    let rowNo (i : Nat) : Nat := if i < 64 then x else x + 1
    let lanes (s : State) (f : Nat → W32) : State := s.updGrp (fun g => g.setV d.toNat m 0 (tab 128 (fun i => if m.getLsbD i then f i else 0)))
    let cells (c : Nat → Nat) (f : Nat → W32) : State :=
      (List.range 128).foldl (fun s i => if m.getLsbD i then cellSet s core (c i) (f i) else s) r
    let good (c : Nat → Nat) : Prop := ∀ i, on i → (r.core core).badAcc.contains (c i) = false
    let w (t : State) : Out := .next (vDone (t.advance 1) p q)
    (r.grp.amapAt b = none → m ≠ 0 → x ≤ 63 →
      exec (.vaccWcol p q d a k) s = .next (raise r 1 (exc cACCUN (256 * b + lowest 128 (fun i => m.getLsbD i))) none) ∧
      exec (.vaccAcol p q d a k) s = .next (raise r 1 (exc cACCUN (256 * b + lowest 128 (fun i => m.getLsbD i))) none) ∧
      exec (.vaccCol p q d a k) s = w (lanes (setUnalloc r) (fun _ => 0)) ∧ exec (.vaccColz p q d a k) s = w (lanes (setUnalloc r) (fun _ => 0))) ∧
    (r.grp.amapAt b = none → m ≠ 0 → x ≤ 126 →
      exec (.vaccRow p q d a k) s = w (lanes (setUnalloc r) (fun _ => 0)) ∧ exec (.vaccRowz p q d a k) s = w (lanes (setUnalloc r) (fun _ => 0))) ∧
    (r.grp.amapAt b = some e → x ≤ 63 → (∀ i, on i → e.band.getLsbD (i / 32) = true) →
      (good col →
        exec (.vaccCol p q d a k) s = w (lanes r (fun i => cellGet r core (col i))) ∧
        exec (.vaccColz p q d a k) s = w (lanes (cells col (fun _ => 0)) (fun i => cellGet r core (col i))) ∧
        exec (.vaccAcol p q d a k) s = w (cells col (fun i => fp32Add (cellGet r core (col i)) (r.grp.lane d.toNat i)))) ∧
      exec (.vaccWcol p q d a k) s = w (cells col (fun i => r.grp.lane d.toNat i))) ∧
    (r.grp.amapAt b = some e → x ≤ 126 → (∀ i, on i → e.band.getLsbD (rowNo i / 32) = true) → good row →
      exec (.vaccRow p q d a k) s = w (lanes r (fun i => cellGet r core (row i))) ∧
      exec (.vaccRowz p q d a k) s = w (lanes (cells row (fun _ => 0)) (fun i => cellGet r core (row i)))) ∧
    (core < s.cores.length → ∀ (f : Nat → W32) (c : Nat → Nat), (c = col ∧ x ≤ 63) ∨ (c = row ∧ x ≤ 126) →
      (∀ i, on i → cellGet (cells c f) core (c i) = f i) ∧
      ∀ y, (∀ i, on i → c i ≠ y) → cellGet (cells c f) core y = cellGet r core y)

-- Encoding and the step --------------------------------------------------------------------------------------------------

/-- Words that the manual works out bit by bit decode to the instructions that it works them out from: "Worked encodings" (R38 to R43), the
worked kernel of chapter 3 and the worked words of chapters 5, 11 to 13, 15, 16 and 19; a word of an unassigned primary, a word with a nonzero RSV bit and a word
with a reserved value are refused, each by its name (R45, R46). -/
def Obligations.DecodesTheManualsWords : Prop :=
  decode .v 0x12220444#32 = .ok (.vfma 4 2 4 1 2 1 0) ∧ decode .s 0x50323010#32 = .ok (.ldAcq 3 4 3 16) ∧
  decode .m 0x0423D012#32 = .ok (.mtile 0 2 15 1 0 1 2) ∧ decode .m 0x0423F012#32 = .error .reserved ∧
  decode .c 0xFD200000#32 = .ok (.nopXn 2 2) ∧ decode .s 0x20117FF0#32 = .ok (.beq 1 2 0x7FF0) ∧
  decode .m 0x06201012#32 = .ok (.mtile 4 2 0 1 0 1 2) ∧ decode .v 0xFD000000#32 = .ok (.nopXn 2 0) ∧
  decode .m 0x40010000#32 = .ok (.mjoin 0 0 0 2 0 0) ∧ decode .m 0x20011002#32 = .ok (.mdset 0 0 1 1 2) ∧
  decode .m 0x44000000#32 = .ok (.mleave 0 0) ∧ decode .m 0x0A00C010#32 = .ok (.mbcast 4 0 3 0 1) ∧
  decode .m 0x0C0FE012#32 = .ok (.mtileT 0 0 63 2 0 1 2) ∧ decode .m 0x10200000#32 = .ok (.msync 0 2) ∧
  decode .s 0x88002004#32 = .ok (.loopBeg 1 4) ∧ decode .s 0x88A32000#32 = .ok (.loopIdx 10 1) ∧
  decode .c 0x0C421400#32 = .ok (.ctld 0 4 2 1 4 0) ∧ decode .c 0x1C067800#32 = .ok (.cwalk 0 0 6 7 8 0) ∧
  decode .c 0x30040500#32 = .ok (.ccoll 0 0 4 5) ∧ decode .s 0x52722008#32 = .ok (.stRel 7 4 2 8) ∧
  decode .s 0x56002001#32 = .ok (.fenceRel 2) ∧ decode .s 0x56004002#32 = .ok (.fenceAcq 4) ∧ decode .s 0x54323280#32 = .ok (.ldAcqp 3 4 3 5) ∧
  decode .s 0x80721903#32 = .ok (.barWait 7 4 6 2) ∧ decode .s 0x7C000000#32 = .ok .rett ∧ decode .s 0x1C000000#32 = .ok .nop ∧
  decode .s 0x1C000001#32 = .error .function ∧ decode .s 0#32 = .error .primary ∧ decode .v 0#32 = .error .primary ∧
  decode .m 0#32 = .error .primary ∧ decode .c 0#32 = .error .primary

/-- The decoder and the encoder agree (R38 to R46): the word of a well-formed instruction decodes, in every stream in whose map it stands, to
that instruction; and a word that decodes to an instruction is that instruction's word, which is well formed and stands in that stream's
map, so that no two words have one meaning. -/
def Obligations.DecodeInvertsEncode : Prop :=
  ∀ (i : Instr) (st : Stream) (w : W32),
    decode st w = .ok i ↔ WellFormed i = true ∧ i.inStream st = true ∧ encode i = some w

/-- R37, R46, R87, R100: a step takes the first act of the agenda, and with an empty agenda begins a core cycle; that the machine moves by
such an agenda, in its order, is the model's choice (log entry 3). Where the act is the issue of a stream whose group is placed and may
issue, with no replayed load and no waiting tile command before it, behind no tile command in its last element (R236, log entry 172), at no loop's end and at no governed word, the word at its pc
is fetched; where it decodes to an instruction, the step is the meaning of that instruction in the state after the fetch, which names the
stream, the word and its pc, and takes the engine's issue slot of the cycle unless the stream does not issue (with the slot taken, nothing
happens, R100); where it does not decode, the step raises ILLEGAL at that stream. An event runs its own meaning, but in safe mode nothing
happens except by the host's accesses, the package's reset and the management (R363). Of the module after reset, a word that is an
instruction of some stream and stands where a group fetches next (the model's stand-in for a launch, log entry 4) is fetched and run so by
the next step, whatever the word. -/
def Obligations.StepRunsTheIssuedInstruction : Prop :=
  (∀ (h : W64) (st : Stream) (e : Event) (rest : List Act) (w : Nat) (s s0 s1 : State),
    let u := ({ s with agenda := rest } : State).focus h
    let at' : State := { s1 with strm := st, iw := BitVec.ofNat 32 w, ipc := s1.pc st.num }
    (s.agenda = .issue h st :: rest → u.safe = false → u.focused h = true → mayIssue u u.grp st.num = true →
      (st = .v → u.grp.vreplay = none) → (st = .m → u.grp.mreq = none ∧ ∀ c, u.grp.mcmd = some c → c.passed = none → c.lastBegun = false) →
      atLoopEnd u.grp st.num = false → verdicts u st.num st = .ok [] s0 → nextWord s0 st.num = .ok w s1 →
      (∀ i, decode st (BitVec.ofNat 32 w) = .ok i → step s = thenSlot u st.num (exec i at')) ∧
      (∀ d, decode st (BitVec.ofNat 32 w) = .error d → step s = thenSlot u st.num (.next (illegal at' st.num)))) ∧
    (s.agenda = .event e :: rest →
      (s.safe = false ∨ e.inSafe = true → step s = runEvent e { s with agenda := rest }) ∧
      (s.safe = true → e.inSafe = false → step s = .next { s with agenda := rest })) ∧
    (s.agenda = [] → step s = .next (tick s))) ∧
  (∀ (o n : Nat) (v : Option W64) (port : BitVec 2) (x : BitVec 11) (b : Bool) (rest : List Act) (s : State),
    (s.agenda = .access o n v :: rest → step s = hostAccess o n v { s with agenda := rest }) ∧
    (s.agenda = .msiEntry port x b :: rest → step s = msiEntry port x b { s with agenda := rest })) ∧
  (∀ (n : Nat) (u t : State), (u.core u.grp.core).slots.getD n 0 ≠ u.cycle + 1 → unissued u n t = false →
    thenSlot u n (.next t) = .next (t.updCore u.grp.core (fun c => { c with slots := updAt c.slots n (fun _ => u.cycle + 1) }))) ∧
  (∀ (w : Nat) (st : Stream) (i : Instr), w < 2 ^ 32 → decodeAny (BitVec.ofNat 32 w) = some (st, i) →
    ∃ u0 u : State, step (State.reset.withFetchWord 32 w) = thenSlot u0 st.num (exec i u) ∧ Placed u ∧ u.strm = st ∧
      u.iw = BitVec.ofNat 32 w ∧ u.pc st.num = 0 ∧ u.ipc = 0 ∧ Memory.read u.mem fetchPage 4 = w ∧ u.agenda = [])

/-- R46, R64, R95: every step answers a next state, whatever the state: a word that is no instruction and a fault are next states like any
other, so that nothing stops the model. That an event whose condition does not hold leaves the state as it is, and stops nothing either, is
the model's choice (log entry 6). -/
def Obligations.StepNeverStops : Prop := ∀ s : State, Runs (step s)

/-- Whatever an instruction, an event or the clock does, memory keeps its canonical form, so that two memories that read alike are one. The
form (addresses strictly rising, no byte listed that an unlisted address reads as) is the model's own representation of the arrays of HBM4E
and far memory that R267 and R277 describe, not a rule of theirs: log entry 2 (DESIGN CHOICE). -/
def Obligations.StepKeepsMemoryCanonical : Prop := ∀ s t : State, Canonical s → step s = .next t → Canonical t

/-- R363, R364, R367, R204: the module after reset holds no group, no context, no kernel and no queue, with every cache and TLB empty, every
string with its comb PRIMARY, its channels in order and no session, and no safe mode. The model's choices: that unwritten memory reads 0 and
so lists nothing (log entry 2); PHASE 0 and NOT_READY for every function, before a package reset has verified anything (log entries 1 and
4); the management controller, function 160, is NOT_READY here with the others, and READY once the package reset has happened (log entry 91). -/
def Obligations.ResetState : Prop :=
  let s := State.reset
  Canonical s ∧ s.grp.st = .none ∧ s.others = [] ∧ s.ctxs = [] ∧ s.kerns = [] ∧ s.queues = [] ∧ s.mem = [] ∧ s.phase = 0 ∧ s.safe = false ∧
  s.cores.length = 96 ∧ s.dies.length = 12 ∧ s.ndies.length = 4 ∧ s.strs.length = 8 ∧ s.links.length = 16 ∧
  (∀ c, (s.core c).l1 = [] ∧ (s.core c).tlb = []) ∧ (∀ d, (s.die d).l2 = [] ∧ (s.die d).tlb = []) ∧
  (∀ n, n < 8 → (s.str n).comb = .primary ∧ (s.str n).sess = .free ∧ (s.str n).chmap = List.range 64) ∧
  (∀ f, f < 161 → s.ready.getD f 3 = 0)

-- Matrix -----------------------------------------------------------------------------------------------------------------

/-- R234, R225, R226, R200, R201, R236, R244, R223: each single-step matrix instruction that no earlier tile command holds up, and whose tokens
are there, completes: descriptors set, added to, moved and loaded; the optical configuration staged; a status record written; accumulator
banks allocated, freed, zeroed, published and attached; a membership left; with the fault that its table gives where it cannot. Those on
descriptors, and `msync`, which then waits, issue behind a tile command that has begun its last element too. -/
def Obligations.MatrixInstructions : Prop :=
  ∀ (p q : BitVec 3) (d a f n b : BitVec 4) (m : BitVec 12) (o k : BitVec 6) (t : BitVec 2) (sn : BitVec 3) (v : Nat) (e : AEntry) (ex : Exc) (s s1 : State),
    Placed s → tileBars s = false → TokOpen s 2 p q →
    let w (u : State) : Out := .next (tDone u 2 p q)
    let x := s.grp.d d.toNat
    let y := s.grp.d a.toNat
    let oc := s.grp.ocNew o.toNat
    let err (c va : Nat) : Out := .next (raise s 2 (exc c va) none)
    let bank := s.grp.amapAt b.toNat
    (f = 0 → exec (.mdset p q d f m) s = w (s.setD d (dField x 15 0 (16 * m.toNat)))) ∧
    (f = 3 → exec (.mdset p q d f m) s = w (s.setD d (dField x 79 64 (16 * m.toNat)))) ∧
    (f = 7 → m = 0 → exec (.mdset p q d f m) s = w (s.setD d 0)) ∧
    (f.toNat ≤ 6 → exec (.mdset p q d f m) s = w (s.setD d (mdField x f.toNat m.toNat))) ∧
    (8 ≤ f.toNat → exec (.mdset p q d f m) s = .next (illegal s 2)) ∧
    exec (.mdadd p q d a m) s = w (s.setD d (dBase y (fun base => base + 16 * m.signExtend 32))) ∧ exec (.mdmov p q d a) s = w (s.setD d y) ∧
    (scrRead s (dBaseN y + 16 * m.toNat) 16 16 = .ok v s1 → exec (.mdld p q d a m) s = w (s1.setD d (BitVec.ofNat 128 v))) ∧
    (scrRead s (dBaseN y + 16 * m.toNat) 16 16 = .fault ex s1 → exec (.mdld p q d a m) s = .next (raise s1 2 ex none)) ∧
    (s.grp.msync = none → tileBusy s = true →
      exec (.msync p q) s = .next (((tokIssue s 2 p q).updGrp (fun g => { g with msync := some (p, q) })).block 2)) ∧
    (tileBusy s = false →
    (o.toNat ≤ 3 ∨ (8 ≤ o.toNat ∧ o.toNat ≤ 15) → (t = 2 → m.toNat < 256) →
      exec (.mocfg p q o t m) s = w (s.updGrp (fun g => { g with staged := updAt g.staged o.toNat (fun _ => some (
        if t = 0 then (oc &&& 0xFFFFF000) ||| m.setWidth 32 else if t = 1 then (oc &&& 0xFF000FFF) ||| (m.setWidth 32 <<< 12)
        else if t = 2 then (oc &&& 0x00FFFFFF) ||| (m.setWidth 32 <<< 24) else m.setWidth 32)) }))) ∧
    (¬ (o.toNat ≤ 3 ∨ (8 ≤ o.toNat ∧ o.toNat ≤ 15)) ∨ (t = 2 ∧ 256 ≤ m.toNat) → exec (.mocfg p q o t m) s = .next (illegal s 2)) ∧
    (o.toNat < 8 ∨ 15 < o.toNat ∨ 4 ≤ f.toNat ∨ (f.toNat ≤ 1 ∧ sn ≠ 0) → exec (.mstat p q o sn f) s = .next (illegal s 2)) ∧
    (8 ≤ o.toNat → o.toNat ≤ 15 → f.toNat ≤ 3 → (f.toNat ≤ 1 → sn = 0) →
      let put := scrWrite s oc.toNat (if f = 3 then 128 else 16) 16 (mstatRecord s f.toNat sn.toNat).1
      (put = .ok () s1 → exec (.mstat p q o sn f) s = w s1) ∧
      (put = .fault ex s1 → exec (.mstat p q o sn f) s = .next (raise s1 2 ex none))) ∧
    (s.grp.msync = none → exec (.msync p q) s = w s) ∧
    (∀ x, s.grp.msync = some x →
      exec (.msync p q) s = .next ((tokDone (s.updGrp (fun g => { g with msync := none })) 2 x.2).advance 2)) ∧ exec (.mleave p q) s = w (leaveSession s) ∧
    (s.grp.memb = none → leaveSession s = s) ∧
    (bank = none → (s.grp.amap.filter (fun e => e.any (fun x => x.owned))).length < s.grp.accb → freeAcc s s.grp.core ≠ [] →
      ∃ ph ∈ freeAcc s s.grp.core, exec (.maccAlloc p q b) s =
        w (zeroAcc (s.tick1.setAmap b.toNat (some { phys := ph, owned := true, band := 15, keys := [] })) s.grp.core ph (fun _ => true))) ∧
    (bank.isSome = true ∨ s.grp.accb ≤ (s.grp.amap.filter (fun e => e.any (fun x => x.owned))).length →
      exec (.maccAlloc p q b) s = err cACCBAND (256 * b.toNat)) ∧
    exec (.maccFree p q b) s = w (s.setAmap b.toNat none) ∧
    (n ≠ 0 → bank = none → exec (.maccZero p q n b) s = w (setUnalloc s)) ∧
    (n ≠ 0 → bank = some e → n &&& ~~~e.band = 0 →
      exec (.maccZero p q n b) s = w (zeroAcc s s.grp.core e.phys (fun r => bitAt n (r / 32)))) ∧
    (∀ j, n ≠ 0 → bank = some e → (n &&& ~~~e.band).getLsbD j = true → (∀ i, i < j → (n &&& ~~~e.band).getLsbD i = false) →
      exec (.maccZero p q n b) s = err cACCBAND (256 * b.toNat + 32 * j)) ∧
    (bank = none → exec (.maccShare p q k b) s = err cACCUN (256 * b.toNat)) ∧
    (bank = some e → e.owned = true → accPublished s s.grp.core k.toNat none = none →
      exec (.maccShare p q k b) s = w (s.setAmap b.toNat (some { e with keys := e.keys ++ [k.toNat] }))) ∧
    (bank = some e → e.owned = false ∨ (accPublished s s.grp.core k.toNat none).isSome = true →
      exec (.maccShare p q k b) s = err cACCBAND (256 * b.toNat)) ∧
    (n ≠ 0 → bank.isSome = true → exec (.maccAttach p q n k b) s = err cACCBAND (256 * b.toNat)) ∧
    (n ≠ 0 → bank = none → accPublished s s.grp.core k.toNat (some s.grp.ctxid) = some v →
      exec (.maccAttach p q n k b) s = w (s.setAmap b.toNat (some { phys := v, owned := false, band := n, keys := [] }))) ∧
    (n ≠ 0 → bank = none → accPublished s s.grp.core k.toNat (some s.grp.ctxid) = none → exec (.maccAttach p q n k b) s = .next (s.block 2)) ∧
    (n = 0 → exec (.maccZero p q n b) s = .next (illegal s 2) ∧ exec (.maccAttach p q n k b) s = .next (illegal s 2)))

/-- R227, R236, R237, R213, R220, R238: a tile command whose tokens and format word are there, and which passes its checks, captures them and
waits for its frame; one with the reserved MF 3 is ILLEGAL; one behind a command that has not ended waits (R236 lets it start earlier: the
model's choice, log entry 36). A request that waits is tried again. The frame of a session starts in every member at once, when all of them are ready and agree, and
the frame of a local member starts alone, or raises WINDOW_FAIL where its preamble finds the string too narrow; a preamble shown to a
string fed by another module is compared at its listeners there (when members are compared is the model's choice, log entry 127). A string
whose function is not READY shows no frame (R367, log entry 150). An element at which a member faults as its data are read ends there in
that fault, before its windows run; one whose windows run and whose accumulators fault ends in theirs. An element at which no member
faults, that no monitor flags and every channel of which works is accepted, in a local member and in every
member of a session that is in its frame, from the activations of the member that sends; one that is flagged is run again in all of them.
(What the light and the monitors bring comes as arguments of these events, the model's choice: log entry 16.) -/
def Obligations.TileCommands : Prop :=
  ∀ (p q : BitVec 3) (n : BitVec 6) (m : BitVec 2) (a b c : BitVec 4) (r : MReq) (w : W64) (s : State), Placed s →
    let started (u : State) (r : MReq) : State :=
      (((tokIssue (u.updGrp (fun g => { g with mreq := none })) 2 r.pops r.push).updGrp (fun g => { g with
        fmtq := g.fmtq.drop 1 })).updGrp (fun g => { g with mcmd := some (newTile u r w false 0) })).updStream 2 (fun t => { t with run := .ready })
    let asks (e : Out) (r : MReq) : Prop :=
      (r.mf = 3 → e = .next (illegal s 2)) ∧ (r.mf ≠ 3 → tileBusy s = true → e = .next (s.block 2)) ∧
      (r.mf ≠ 3 → tileBusy s = false → e = .next (startTile (s.updGrp (fun g => { g with mreq := some r }))))
    let req (op : Nat) (mf cc : Nat) : MReq :=
      { word := s.iw, op := op, nf := n.toNat, mf := mf, a := a.toNat, b := b.toNat, c := cc, pops := p, push := q }
    asks (exec (.mtile p q n m a b c) s) (req 1 m.toNat c.toNat) ∧ asks (exec (.mbcast p q n a b) s) (req 2 0 0) ∧
    asks (exec (.mtileT p q n m a b c) s) (req 3 m.toNat c.toNat) ∧
    (let u : State := { s with iw := r.word }
     s.grp.mreq = some r → prgMatch s.grp.prgm (s.pc 2) = false → TokOpen u 2 r.pops r.push → s.grp.fmtq.head? = some w →
     tileChecks u r w = .ok () u → windowBad u w = false → startTile s = started u r) ∧
    (∀ h : BitVec 64, (s.focus h).focused h = true → (s.focus h).grp.st = .running → goesOn (s.focus h) 2 = true →
      tileBusy (s.focus h) = false → exec (.tileCommandStart h) s = .next (startTile (s.focus h))) ∧
    (∀ (h : BitVec 64) (dark : BitVec 68) (mm : Memb),
      let u := s.focus h
      let t := u.str mm.str
      let pre := preambleOf u.grp
      let u1 := remapStr u mm.str (t.failed ||| dark)
      u.grp.memb = some mm → u.focused h = true → u.grp.onStr mm.str = true → frameDue u mm.str = true → t.isIn = false → mm.role ≠ 1 →
      mm.role ≠ 2 → strDown u mm.str = false → strShut u1 mm.str = false →
      movedChannels t { t with failed := t.failed ||| dark }.remap = [] → pre.getD 4 4 ≤ (u1.str mm.str).liveWidth →
      (∀ g ∈ membersOf u1 mm.str, roleListens g.role = true → mismatchOf g pre = none) →
      ∃ v, exec (.frameStart h dark []) s = .next v ∧
        v = (membersOf u1 mm.str).foldl (fun s g => onGroup s g.handle (fun s =>
          beginFrame s (pre.getD 11 1) (BitVec.ofNat 32 (pre.getD 10 0)) (pre.getD 9 0)))
          (u1.updStr mm.str (fun t => { t with sess := .frame, members := t.members.map (fun m => { m with ready := false }) }))) ∧
    (∀ (h : BitVec 64) (dark : BitVec 68) (mm : Memb) (c : TileCmd),
      let u := s.focus h
      let u1 := preambleMoves u u.grp.strNo dark
      u.grp.memb = some mm → u.focused h = true → mm.role = 2 → u.grp.mcmd = some c → c.inFrame = false → holds u u.grp = false →
      strDown u u.grp.strNo = false →
      (windowBad u1 c.fw = false → exec (.frameStart h dark []) s = .next (beginFrame u1 c.abnd c.rerun mm.div)) ∧
      (windowBad u1 c.fw = true → exec (.frameStart h dark []) s =
        .next (tileFaults u1 (faultsIn [u1.grp] (fun _ c => some (exc cWINFAIL 0, some c.elem)))))) ∧
    (∀ (h : BitVec 64) (dark : BitVec 68) (pre : List (BitVec 64)) (mm : Memb),
      let u := s.focus h
      u.grp.memb = some mm → u.focused h = true → mm.role = 1 → u.grp.onStr mm.str = true → (u.str mm.str).isIn = true → pre.length = 13 →
      strDown u mm.str = false →
      exec (.frameStart h dark pre) s = .next (showPreamble u mm.str (pre.map (fun x => x.toNat)))) ∧
    (∀ (h : BitVec 64) (dark : BitVec 68) (pre : List (BitVec 64)) (mm : Memb),
      let u := s.focus h
      u.grp.memb = some mm → mm.role ≠ 2 → strDown u mm.str = true → exec (.frameStart h dark pre) s = .next u) ∧
    (∀ (h : BitVec 64) (dark : BitVec 68) (x c : TileCmd) (talker : Group),
      let u := s.focus h
      let n := u.grp.strNo
      let hs := ((membersOf u n).filter (fun g => g.mcmd.any (fun c => c.inFrame))).map (fun g => g.handle)
      let v := hs.foldl (fun s h => onGroup s h beginTile) (if (u.str n).isIn then u else u.updStr n (fun t => { t with failed := t.failed ||| dark }))
      let y := v.updGroups (fun g => hs.contains g.handle) (fun g => { g with
        mcmd := g.mcmd.map (fun c => stageWindow g c (roleSends g.role) (roleListens g.role)) })
      u.grp.mcmd = some x → u.focused h = true → x.inFrame = true → (u.str n).failing = false → u.grp.role ≠ 2 →
      (∀ g ∈ membersOf u n, holds u g = false) →
      (∀ g ∈ v.groups, hs.contains g.handle = true → ∀ c, g.mcmd = some c → elementFault (v.focus g.handle) c = none) →
      (y.groups.filter (fun g => hs.contains g.handle)).find? (fun g => roleSends g.role) = some talker → talker.mcmd = some c →
      ((List.range (fwL x.fw)).all (fun l => (y.str n).works l) = true →
        (∀ g ∈ y.groups, hs.contains g.handle = true → ∀ c, g.mcmd = some c → accFault (y.focus g.handle) c = none) →
        exec (.tileElement h (0, dark) [] []) s = .next (accepted y n hs talker c (activation talker c))) ∧
      exec (.tileElement h (1, dark) [] []) s = .next (flagged y n hs (y.grp.mcmd.getD x) true [])) ∧
    (∀ (h : BitVec 64) (dark : BitVec 68) (x x1 : TileCmd),
      let u := s.focus h
      let n := u.grp.strNo
      let v := onGroup (if (u.str n).isIn then u else u.updStr n (fun t => { t with failed := t.failed ||| dark })) u.grp.handle beginTile
      let y := v.updGrp (fun g => { g with mcmd := g.mcmd.map (fun c => stageWindow g c true true) })
      let z := stageWindow v.grp x1 true true
      u.grp.mcmd = some x → u.focused h = true → x.inFrame = true → (u.str n).failing = false → u.grp.role = 2 → holds u u.grp = false →
      (∀ g ∈ u.others, g.handle ≠ u.grp.handle) → v.grp.mcmd = some x1 →
      let ends (t : State) (word : W32) (f : Exc × Nat) : Out :=
        .next (tileFaults t [{ h := u.grp.handle, word := word, e := f.1, el := some f.2 }])
      (∀ f o, elementFault v x1 = some f → exec (.tileElement h (o, dark) [] []) s = ends v x1.word f) ∧
      (elementFault v x1 = none →
        ((List.range (fwL x.fw)).all (fun l => (y.str n).works l) = true → ∀ f, accFault y z = some f →
          exec (.tileElement h (0, dark) [] []) s = ends y z.word f) ∧
        ((List.range (fwL x.fw)).all (fun l => (y.str n).works l) = true → accFault y z = none →
          exec (.tileElement h (0, dark) [] []) s = .next (accepted y n [u.grp.handle] y.grp z (activation y.grp z))) ∧
        exec (.tileElement h (1, dark) [] []) s = .next (flagged y n [u.grp.handle] z true [])))

/-- R210, R211, R214, R219, R221, R222, R224, R205, R207: `mjoin local` joins at once, and any other join or calibration of a string takes its
place in order of arrival and issues when its turn has come, waiting till then; a join of a member, without the optics that its role
needs, or of a sending role on a string fed by another module raises SESSION_MISMATCH with reason 6, 7 or 8, and a calibration by a member
with reason 6. A calibration's end sets, for the trim and the full kind, the delay trims of the core's receivers and of its modulators and
the drive levels, and for the sweep and the full kind the channel map, and completes the `mcal` that waits for it; one whose group has
stopped meanwhile still ends so, with no `mcal` left to complete (log entry 27, DEDUCED). A failover ends on the standby comb; a frame wait past its limit ends in SESSION_TIMEOUT, on a string fed by
another module whatever the listeners there are; a notice of readiness marks its member, or takes the mark back, and a notice of a pause
pauses the frame. (The kinds and fields of the notices between modules are the model's choice, log entry 26; so are the units in which a
calibration reports delays and drive levels, log entry 138.) -/
def Obligations.SessionEvents : Prop :=
  ∀ (p q st : BitVec 3) (r : BitVec 2) (k : BitVec 6) (v : BitVec 2) (s : State), Placed s →
    let g := s.grp
    let role := r.toNat
    let w : SWait := { handle := g.handle, kind := 0, role := role, key := k.toNat, div := v.toNat, pops := p, push := q }
    let wc : SWait := { handle := g.handle, kind := 1, role := role, key := g.core, div := 0, pops := p, push := q }
    let err (n : Nat) : Out := .next (raise s 2 (exc cSESSMM n) none)
    let n := st.toNat
    let admits (w : SWait) : State := arrive s n w
    let asks (e : Out) (w : SWait) : Prop :=
      let u := admits w
      ((u.str n).waiting.find? (fun x => x.handle == w.handle) = none → e = .next (u.block 2)) ∧
      (∀ x, (u.str n).waiting.find? (fun x => x.handle == w.handle) = some x →
        (turnOf u n x = false → e = .next (u.block 2)) ∧ (turnOf u n x = true → x.kind = 0 → e = .next (grant u n x)) ∧
        (turnOf u n x = true → x.kind ≠ 0 → e = .next ((grant u n x).block 2))) ∧
      (n < s.strs.length → (s.str n).waiting = [] → (s.str n).cal = none → (s.str n).isIn = false →
        u = s.updStr n (fun t => { t with waiting := [w] }) ∧ (grantable u n w = true → e = .next (if w.kind = 0 then grant u n w else (grant u n w).block 2)))
    (tileBusy s = true → (role = 2 → st = 0 ∧ k = 0) → (role = 1 → v = 0) → exec (.mjoin p q st r k v) s = .next (s.block 2)) ∧
    (tileBusy s = true → r ≠ 3 → exec (.mcal p q st r) s = .next (s.block 2)) ∧
    (tileBusy s = false → TokOpen s 2 p q → (role = 2 → st = 0 ∧ k = 0) → (role = 1 → v = 0) →
      (g.memb.isSome = true → exec (.mjoin p q st r k v) s = err 6) ∧
      (g.memb = none → (role ≠ 1 ∧ g.talk = false) ∨ (role ≠ 0 ∧ g.listen = false) → exec (.mjoin p q st r k v) s = err 7) ∧
      (g.memb = none → (role ≠ 1 → g.talk = true) → (role ≠ 0 → g.listen = true) →
        (role = 0 ∨ role = 3 → (s.str n).isIn = true → exec (.mjoin p q st r k v) s = err 8) ∧
        (role = 2 → (s.str (g.core % 8)).isIn = false → exec (.mjoin p q st r k v) s = .next (endJoin (s.updGrp (fun g => joined g 0 w 0)) w)) ∧
        (role = 0 ∨ role = 1 ∨ role = 3 → (role ≠ 1 → (s.str n).isIn = false) → asks (exec (.mjoin p q st r k v) s) w))) ∧
    (tileBusy s = false → TokOpen s 2 p q → r ≠ 3 → g.memb.isSome = true → exec (.mcal p q st r) s = err 6) ∧
    (tileBusy s = false → TokOpen s 2 p q → r ≠ 3 → g.memb = none →
      ((s.str n).isIn = true ∨ (s.str n).comb = .dark → exec (.mcal p q st r) s =
        .next (endJoin (s.updStr n (fun t => { t with waiting := t.waiting.filter (fun x => x.handle != g.handle) })) wc)) ∧
      ((s.str n).isIn = false → (s.str n).comb ≠ .dark → asks (exec (.mcal p q st r) s) wc)) ∧
    (r = 3 → exec (.mcal p q st r) s = .next (illegal s 2)) ∧
    (∀ x, (s.str n).waiting = [x] → grantable s n x = true → exec (.joinAdmitted st) s = .next (if 2 ≤ x.kind then grant s n x else s)) ∧
    ((s.str n).waiting = [] → exec (.joinAdmitted st) s = .next s) ∧
    (∀ x dark ds, (s.str n).cal = some x → x.role = 0 ∨ x.role = 2 →
      let t0 := if x.role = 0 then s else remapStr s n dark
      let t := setDrives (setTrims t0 x.key n ((List.range 128).map (fun l => ds.getD l 0)) false) x.key n ((List.range 64).map (fun l => ds.getD (128 + l) 0))
      let t1 := t.updStr n (fun t => { t with cal := none })
      (x.handle ≠ 0 → exec (.calibrationDone st (dark, ds)) s =
        .next (postAdmit (onGroup t1 x.handle (fun s => (tokDone s 2 x.push).advance 2)) n)) ∧
      (x.handle = 0 → exec (.calibrationDone st (dark, ds)) s = .next (postAdmit t1 n)) ∧
      (x.key < s.cores.length → ∀ l, l < 64 →
        (t.core x.key).trims.lookup (64 * n + l) = some (trimOf (ds.getD l 0)) ∧
        (t.core x.key).modTrims.lookup (64 * n + l) = some (trimOf (ds.getD (64 + l) 0)) ∧
        (t.core x.key).drives.lookup (64 * n + l) = some (ds.getD (128 + l) 0))) ∧
    (∀ x dark ds, (s.str n).cal = some x → x.role = 1 → x.handle ≠ 0 → exec (.calibrationDone st (dark, ds)) s =
      .next (postAdmit (onGroup ((remapStr s n dark).updStr n (fun t => { t with cal := none })) x.handle (fun s => (tokDone s 2 x.push).advance 2)) n)) ∧
    ((s.str n).failing = true → (s.str n).isIn = false → exec (.combFailoverDone st) s =
      .next (tellSession (s.updStr n (fun t => { t with failing := false, comb := .standby, failovers := t.failovers + 1 })) n
        (nextSeqOf s n).toNat)) ∧
    (∀ h : BitVec 64, (s.focus h).focused h = true → frameLate (s.focus h) (s.focus h).grp = true →
      frameDue (s.focus h) (s.focus h).grp.strNo = false ∨ ((s.focus h).str (s.focus h).grp.strNo).isIn = true →
      exec (.sessionTimeout h) s = .next (tileFaults (s.focus h)
        (faultsIn [(s.focus h).grp] (fun g c => some (exc cSESSTO (lateMember (s.focus h) g), mismatchEl c.elem))))) ∧
    (∀ (member : BitVec 14) (key : BitVec 6) (c : BitVec 8) (f : BitVec 64),
      (s.str n).isIn = false ∨ member.toNat / 256 = feederOf s.modid n → (s.str n).key = key.toNat → (s.str n).ctx = c.toNat →
      exec (.sessionControlFlit st 0 member key c f) s = .next (s.updStr n (fun t => { t with
        members := t.members.map (fun m => if m.id == member.toNat then { m with ready := !f.getLsbD 0 } else m) })) ∧
      exec (.sessionControlFlit st 2 member key c f) s = .next (pauseStr s n)) ∧
    (∀ (member : BitVec 14) (key : BitVec 6) (c : BitVec 8) (f : BitVec 64), (s.str n).isIn = false →
      exec (.sessionControlFlit st 3 member key c f) s = .next (tellSession s n (nextSeqOf s n).toNat)) ∧
    (∀ (k : BitVec 2) (member : BitVec 14) (key : BitVec 6) (c : BitVec 8) (f : BitVec 64),
      (s.str n).isIn = true → member.toNat / 256 ≠ feederOf s.modid n → exec (.sessionControlFlit st k member key c f) s = .next s)

-- Copy -------------------------------------------------------------------------------------------------------------------

/-- R245, R247, R249, R251, R255 to R262, R266: a copy command that no other holds up, whose tokens are there and whose checks pass starts at its
first element, with its registers captured; one of no elements completes at once; reserved flags and odd registers of a pair are ILLEGAL.
A linear command has LEN / 16 elements and a LEN that is a multiple of 16; a strided one GR × ROWS; a gather, a scatter and a collective
one for each index or block. An element that can be performed is, and the command completes with its last. An element of `cpy` moves
16 bytes between the places that its flags name; one that has been sent to another module, and waits for the answer, ends with it and is
neither checked nor read again. -/
def Obligations.CopyCommands : Prop :=
  ∀ (p q : BitVec 3) (x y z : BitVec 4) (f : BitVec 8) (s : State), Placed s → s.grp.ccmd = none → prgMatch s.grp.prgc (s.pc 3) = false →
    let g := s.grp
    let cmd (kind : CKind) (y z : BitVec 4) (f : BitVec 8) : CopyCmd :=
      { kind := kind, pc := s.pc 3, word := s.iw, x0 := g.a x.toNat, x1 := g.a (x.toNat + 1), y0 := g.a y.toNat,
        y1 := g.a (y.toNat + 1), z0 := g.a z.toNat, z1 := g.a (z.toNat + 1), hnd := g.h y.toNat, flags := f, pops := p,
        push := q, elem := 0, resumed := false, count := 0, desc := [] }
    let begins (e : Out) (legal : Prop) (k : Acc CopyCmd) : Prop :=
      (¬ legal → e = .next (illegal s 3)) ∧
      (legal → TokOpen s 3 p q → ∀ c s1, k = .ok c s1 →
        let s2 := (tokIssue (clearRemote s1 3) 3 p q).updGrp (fun g => { g with prgc := prgClear g.prgc })
        e = .next (if c.count = 0 then endCopy s2 q
          else (s2.updGrp (fun g => { g with ccmd := some c })).updStream 3 (fun t => { t with run := .ready })))
    let only (m : BitVec 8) : Prop := f &&& ~~~m = 0
    let even (r : BitVec 4) : Prop := r.toNat % 2 = 0
    begins (exec (.cpy p q x y z f) s) (only 0xC3) (mkCpy s (cmd .cpy y z f)) ∧
    begins (exec (.cpyS p q x y z f) s) (only 0xC3 ∧ even x ∧ even y) (mkCpyS s (cmd .cpys y z f)) ∧
    begins (exec (.ctld p q x y z f) s) (only 0xC0 ∧ even z) (mkTile s (cmd .ctld y z f)) ∧
    begins (exec (.ctst p q x y z f) s) (only 0x80 ∧ even z) (mkTile s (cmd .ctst y z f)) ∧
    begins (exec (.cgath p q x y z f) s) (only 0xE0 ∧ even x) (mkGather s (cmd .cgath y z f)) ∧
    begins (exec (.cscat p q x y z f) s) (only 0xA0 ∧ even x) (mkGather s (cmd .cscat y z f)) ∧
    begins (exec (.cwalk p q x y z f) s) (only 0xC0) (mkWalk s (cmd .cwalk y z f)) ∧
    begins (exec (.czero p q x z f) s) (only 0xC1) (mkFill s (cmd .czero 0 z f)) ∧
    begins (exec (.cfill p q x y z f) s) (only 0xC1) (mkFill s (cmd .cfill y z f)) ∧
    begins (exec (.ccoll p q x z) s) True (mkColl s (cmd .ccoll 0 z 0)) ∧
    (∀ (c : CopyCmd) (n : Nat) (s1 : State), let c' : CopyCmd := { c with count := n }
      (mkCpy s c = .ok c' s1 → c.len ≠ 0 → c.len % 16 = 0 ∧ n = c.len / 16 ∧ s1 = s ∧ c.x0.toNat % 16 = 0 ∧ c.y0.toNat % 16 = 0) ∧
      (mkFill s c = .ok c' s1 → c.len ≠ 0 → c.len % 16 = 0 ∧ n = c.len / 16 ∧ s1 = s ∧ c.x0.toNat % 16 = 0) ∧
      (mkCpyS s c = .ok c' s1 → fieldOf c.z0 39 20 * fieldOf c.z0 19 0 ≠ 0 → n = fieldOf c.z0 39 20 * fieldOf c.z0 19 0 ∧ n ≤ 2 ^ 32) ∧
      (mkGather s c = .ok c' s1 → fieldOf c.z0 31 0 ≠ 0 → n = fieldOf c.z0 31 0 ∧ c.rs ≠ 0) ∧
      (mkColl s c = .ok c' s1 → fieldOf c.z0 31 0 ≠ 0 → n = fieldOf c.z0 31 0 ∧ c.x0.toNat % 128 = 0)) ∧
    (∀ (h : BitVec 64) (c : CopyCmd) (s1 : State) (e : Exc),
      let u := s.focus h
      u.grp.ccmd = some c → u.focused h = true → goesOn u 3 = true →
      (copyEl u c = .ok () s1 → exec (.copyElement h) s = .next (if c.count ≤ c.elem + 1 then endCopy (clearRemote s1 3) c.push
        else (clearRemote s1 3).updGrp (fun g => { g with ccmd := some { c with elem := c.elem + 1 } }))) ∧
      (copyEl u c = .fault e s1 → exec (.copyElement h) s = .next (copyFault s1 c e)) ∧
      (copyEl u c = .wait s1 → exec (.copyElement h) s = .next s1)) ∧
    (∀ (c : CopyCmd) (v : Nat) (s1 s2 : State), c.kind = .cpy → c.ben = false → c.setf = false → s.grp.cput = none → c.x0.toNat + c.len < 2 ^ 31 → c.y0.toNat + c.len < 2 ^ 31 →
      let d := (c.x0.toNat + 16 * c.elem) % 2 ^ 64
      let o := (c.y0.toNat + 16 * c.elem) % 2 ^ 64
      (c.sloc = true → scrGet s o 16 = .ok v s → c.dloc = true → copyEl s c = .ok () (s.setScr d 16 v)) ∧
      (c.sloc = false → copyRead s o 16 false = .ok v s1 → c.dloc = true → copyEl s c = .ok () (s1.setScr d 16 v)) ∧
      (c.sloc = true → scrGet s o 16 = .ok v s → c.dloc = false → copyWrite s d 16 v 0 = .ok () s2 → copyEl s c = .ok () s2) ∧
      (c.sloc = false → copyRead s o 16 false = .ok v s1 → c.dloc = false → copyWrite s1 d 16 v 0 = .ok () s2 → copyEl s c = .ok () s2)) ∧
    (∀ (c : CopyCmd) (ps : List CopyPart) (s1 : State), c.ben = false → s.grp.cput = some ps →
      (copyPuts s ps = .ok () s1 → copyEl s c = .ok () s1) ∧ (copyPuts s ps = .wait s1 → copyEl s c = .wait s1))

/-- R252, R254, R263 to R265: a single-step copy instruction that no copy command holds up, and whose tokens are there, completes: the address
registers set, shifted and added; a tensor handle loaded from its table entry or stored there; a barrier's IN or OUT count raised and an
anonymous arrival made after its release; a signal counter changed by one atomic at its home; a prefetch that changes nothing. -/
def Obligations.CopyRegistersAndSignals : Prop :=
  ∀ (p q : BitVec 3) (x y z : BitVec 4) (i : BitVec 16) (j b : BitVec 8) (v va old : Nat) (t : Tr) (e : BEntry) (s s1 s2 s3 : State),
    Placed s → s.grp.ccmd = none → TokOpen s 3 p q →
    let w (u : State) : Out := .next (tDone u 3 p q)
    let set (d : BitVec 4) (n : W64) : Out := w (s.updGrp (fun g => { g with aregs := updAt g.aregs d.toNat (fun _ => n) }))
    let a (r : BitVec 4) : W64 := s.grp.a r.toNat
    let n := (a y + j.setWidth 64).toNat
    let k := s.ctx s.grp.ctxid
    let err (c va : Nat) : Out := .next (raise s 3 (exc c va) none)
    exec (.caLi p q x i) s = set x (i.signExtend 64) ∧ exec (.caLih p q x i) s = set x ((a x <<< 16) + i.setWidth 64) ∧
    exec (.caAddi p q x i) s = set x (a x + i.signExtend 64) ∧ exec (.caAdd p q x y z) s = set x (a y + a z) ∧
    exec (.caMov p q x y) s = set x (a y) ∧ exec (.cpref p q x z) s = w s ∧
    (k.hcount ≤ n → exec (.chLd p q x y j) s = err cACCESS n ∧ (s.grp.cput = none → exec (.chSt p q x y j) s = err cACCESS n)) ∧
    (∀ ps, s.grp.cput = some ps → copyPuts s ps = .ok () s1 → exec (.chSt p q x y j) s = w s1) ∧
    (n < k.hcount → va = (k.htab.toNat + 32 * n) % 2 ^ 64 →
      (copyHome s va 32 = .ok v s1 → handleBad (BitVec.ofNat 256 v) = false → exec (.chLd p q x y j) s =
        w (s1.updGrp (fun g => { g with hregs := updAt g.hregs x.toNat (fun _ => BitVec.ofNat 256 v) }))) ∧
      (copyWrite s va 32 (s.grp.h x.toNat).toNat 0 = .ok () s1 → exec (.chSt p q x y j) s = w s1)) ∧
    (barEnt s b.toNat = .ok e s →
      exec (.cbarIn p q x b) s = w (barAdd s s.grp.core e.obj false (fieldOf (a x) 23 0)) ∧
      exec (.cbarOut p q x b) s = w (barAdd s s.grp.core e.obj true (fieldOf (a x) 23 0)) ∧
      (waitsAt s.grp.cbwait (barLoc s.grp.core e.obj) = false → (barArrive s b.toNat e false).isSome = true → relG s 2 = .ok () s1 →
        barArrive s1 b.toNat e false = some s2 → exec (.cbarArr p q b) s = w (s2.updGrp (fun g => { g with cbwait := none })))) ∧
    (sigAddr s (a x).toNat .store = .ok t s1 → (homeRead s1 t.home (t.pa / 128)).bad &&& blocksOf (t.pa % 128) 4 = 0 → relG (homeRead s1 t.home (t.pa / 128)).st 3 = .ok () s2 →
      (homeAtomic s2 t.home t.pa 4 (fun c => (c + fieldOf (a y) 31 0) % 2 ^ 32) = some (old, s3) → exec (.csigAdd p q x y) s = w s3) ∧
      (homeAtomic s2 t.home t.pa 4 (fun _ => fieldOf (a y) 31 0) = some (old, s3) → exec (.csigSet p q x y) s = w s3))

-- Groups, contexts, kernels and queues -------------------------------------------------------------------------------------

/-- R109, R63, R64, R331, R72, R73, R111, R298 to R302, R125: what happens to a placed group on its own. A draining stream whose earlier instructions
have completed ends with its result, its tokens pushed and its sequencer discarded; a pending interrupt that can be taken traps with code
0xFE and is no longer pending; the oldest pended trap is taken before the others, or its fault aborts the group where no handler is armed for
it; the oldest asynchronous fault is delivered to the copy stream; a pre-emption deadline that has passed has the
group saved in full; a save that is due stops the streams, releases at fabric scope and takes the image; a group that has stopped retires once
its die-scope release is done; a promotion request is answered 2 where there is no such group, 1 where its line is not logged, and is else
queued at its target, where it is served in its turn and answered 0 when its promotion is over; an interrupt by handle is raised on a live
group of the context that sent it. (The model's choices: the form of the answers to promotion and interrupt packets, log entry 26; that a
trap is taken in one step, log entry 14; that the die-scope release comes before the group's record, log entry 59; that a promotion takes
the lines logged when it began, log entry 87.) -/
def Obligations.GroupEvents : Prop :=
  ∀ (h : BitVec 64) (s : State),
    let u := s.focus h
    let g := u.grp
    (u.focused h = true →
      (∀ n : BitVec 2, g.st = .running → (g.stream n.toNat).run = .draining →
        let v := if n.toNat = 1 then retireDue u else u
        let vIdle : Prop := v.grp.vld = none ∧ v.grp.vcmd = none ∧ v.grp.vreplay = none ∧ v.grp.flight = []
        (n.toNat = 1 → ¬ vIdle → exec (.streamEnded h n) s = .next (vTick v)) ∧
        ((n.toNat = 1 → vIdle) → exec (.streamEnded h n) s = .next (retireIfEnded (endStream v n.toNat)) ∧
          ((endStream v n.toNat).grp.stream n.toNat).run = .ended ∧
          ((endStream v n.toNat).grp.stream n.toNat).result = (v.grp.stream n.toNat).pendResult ∧
          ((endStream v n.toNat).grp.stream n.toNat).levels = [])) ∧
      (canTrap u = true →
        (g.takeable = true → g.asyncs = [] → g.pendTraps = [] →
          exec (.trapDelivery h) s = .next (takeTrap (u.updGrp (fun g => { g with ipend := false, ipval := 0 }))
            { code := 0xFE, stream := 0, info := g.ipval, fault := none, vld := none }))) ∧
      (∀ p ps, g.pendTraps = p :: ps →
        let v := u.updGrp (fun g => { g with pendTraps := ps })
        (canTrap u = false → exec (.trapDelivery h) s = .next u) ∧
        (canTrap u = true →
          (p.fault = none → exec (.trapDelivery h) s = .next (enterTrap v p.code p.stream p.info 0 p.vld)) ∧
          (∀ f, p.fault = some f →
            (handles v f.code = true → exec (.trapDelivery h) s = .next (enterTrap v p.code p.stream p.info (recNat f false v.grp.handle) p.vld)) ∧
            (handles v f.code = false → exec (.trapDelivery h) s = .next (stopBoth v .aborted 0 (recBytes v f)))))) ∧
      (∀ f fs, g.asyncs = f :: fs → g.st ≠ .saved → g.pairHold = false → g.saving = false → coreMoving u g = false →
        (g.st = .running → canTrap u = true ∧ g.pendTraps = []) →
        let v := settleSeq u 3
        exec (.asyncFaultDelivery h) s = .next (deliver (v.updGrp (fun g => { g with asyncs := fs })) { f with pc := v.pc 3 })) ∧
      (g.preq = true → g.saving = false → g.predl ≤ u.cycle → g.st = .running ∨ g.st = .handler → coreMoving u g = false →
        exec (.preemptionDeadline h) s =
          .next (({ u with agenda := .event (.groupSave h) :: u.agenda }).updGrp (fun g => { g with hint := none }))) ∧
      (saveDue u = false → exec (.groupSave h) s = .next u) ∧
      (saveDue u = true → g.partner = 0 → g.saving = true ∨ trapFirst u = false →
        let m := u.updGrp (fun g => { g with saving := true })
        (quiet m = false → exec (.groupSave h) s = .next m) ∧
        (quiet m = true → ∀ v w, saveVld m = (false, v) → v.grp.partner = 0 →
          let x := stopForSave v
          x.grp.partner = 0 → (x.grp.st == .running && x.grp.allEnded) = false → saveRelease x = some w →
          exec (.groupSave h) s = .next (settle (saveBody w)))) ∧
      (g.st = .retiring ∨ (g.st = .stopping ∧ g.allStopped = true) → g.retired = false →
        let v := (retireAll u).updGrp (fun g => { g with st := .retiring })
        recordWaits v v.grp = false →
        (4 ≤ v.grp.slot → exec (.groupRetire h) s = .next (retireBody v)) ∧
        (v.grp.slot < 4 → ∀ w, release v h v.grp.core 2 = .ok () w → exec (.groupRetire h) s = .next (retireBody w)))) ∧
    (∀ (line : BitVec 45) (c : BitVec 8) (m : BitVec 6) (tag : BitVec 16),
      let p : Prom := { target := h, src := .remote m.toNat tag, line := line.toNat, ctx := some c.toNat, hit := false, run := false, ans := none }
      let ask := exec (.promoteRequest h line c (m.setWidth 7) tag) s
      (s.groupOf h = none → ask = .next (answerProm s p 2 0)) ∧
      (∀ x, s.groupOf h = some x → x.ctxid ≠ c.toNat → ask = .next (answerProm s p 2 0)) ∧
      (∀ x, s.groupOf h = some x → x.ctxid = c.toNat → ask = .next (promEnter s x p.src line.toNat (some c.toNat)) ∧
        (promHeld s x = false → nextProm s h = none → x.snap = none → x.st ≠ .retiring → x.st ≠ .saved → x.log.contains line.toNat = false →
          ask = .next (answerProm { s with proms := s.proms ++ [p] } p 1 0)))) ∧
    (∀ (x : Group) (p : Prom), s.groupOf h = some x → x.retired = false → promHeld s x = false → s.proms = [p] → p.target = h → p.ans = none →
      (x.st = .saved → exec (.promotion h) s = .next (answerProm s p (if p.hit then 0 else 1) 0)) ∧
      (x.st ≠ .saved → p.run = true → ∀ q, x.snap = some q → q.begun = true → q.tags = [] →
        exec (.promotion h) s = .next (answerProm (s.updGroup h (fun g => { g with snap := none })) p 0 0))) ∧
    (∀ v : BitVec 64, regOpen s = true → fieldOf s.host.proms 63 63 = 0 → v.toNat < 2 ^ 52 → v.toNat % 8 = 0 → ownMem s v.toNat = true →
      exec (.proma v) s = .next (({ s with host := { s.host with proma := v, proms := BitVec.ofNat 64 (2 ^ 63) } }).postE
        (.promoteRequest s.host.promh (BitVec.ofNat 45 (v.toNat / 128)) 0 64 0))) ∧
    (∀ v : BitVec 64, regOpen s = true → fieldOf s.host.ginth 37 32 = s.modid → exec (.gintv v) s =
      .next (({ s with host := { s.host with gintv := v &&& 0xFFFFFFFF } }).updGroup s.host.ginth (fun g => g.interrupt (v.setWidth 32)))) ∧
    (∀ (v : BitVec 32) (c : BitVec 8) (m : BitVec 6) (tag : BitVec 16),
      let answer (s : State) (n : Nat) : Out := .next (sendReply s { packet0 m.toNat 14 0 with tag := tag, arg := BitVec.ofNat 8 n })
      (∀ x, s.groupOf h = some x → x.ctxid = c.toNat → exec (.interruptPacket h v c m tag) s = answer (s.updGroup h (fun g => g.interrupt v)) 0) ∧
      (s.groupOf h = none → exec (.interruptPacket h v c m tag) s = answer s 1))

/-- R56 to R58, R75, R76, R79, R113 to R118, R120, R122, R123, R367: the commands of the host on contexts, kernels and queues answer in their
registers, with RESULT 0 and the new state where they can be carried out and RESULT 1 where their table refuses them; a doorbell moves
TAIL, or puts the queue in ERROR where the new value is out of range; the next packet of a READY queue is taken; its parameter block is read
once its triggers have fired; the distributor starts the next group of the packet that a queue may dispatch, on the core that the placement picks; a packet whose groups
have all retired completes. (The model's choices: that RESUME moves the saved images with their base, log entry 61; where in the save area
an image lies, log entry 54; what the release between a packet's summary and its counter covers, log entry 57; the readings of PLACE that
the core chosen rests on, log entry 71; that the distributor, function 152, starts no group while it is not READY, log entry 150.) -/
def Obligations.QueueEvents : Prop :=
  ∀ (c : BitVec 8) (k : BitVec 12) (q : BitVec 15) (tail n : BitVec 16) (s : State),
    let ctx := s.ctx c.toNat
    let kern := s.kern k.toNat
    let x := s.queue q.toNat
    -- contexts
    (ctx.st ≠ .free → exec (.ctxOpen c) s = .next (answerCtx s 1)) ∧
    (∀ d s1, ctx.st = .free → ctxDesc s c.toNat = .ok (some d) s1 → exec (.ctxOpen c) s = .next (answerCtx (s1.updCtx c.toNat (fun _ => d)) 0)) ∧
    (ctx.st = .opened → ctxGroups s c.toNat = [] →
      exec (.ctxSuspend c) s = .next (answerCtx (s.updCtx c.toNat (fun x => { x with st := .suspended })) 0)) ∧
    (ctx.st = .free ∨ ctx.st = .closing → exec (.ctxSuspend c) s = .next (answerCtx s 1) ∧ exec (.ctxResume c) s = .next (answerCtx s 1)) ∧
    (ctx.st = .opened → exec (.ctxResume c) s = .next (answerCtx s 0)) ∧
    (∀ d s1, ctx.st = .suspended → ctxDesc s c.toNat = .ok (some d) s1 → exec (.ctxResume c) s =
      .next (answerCtx ((withdrawPreempt (moveImages s1 c.toNat ctx d) (fun g => g.ctxid == c.toNat) true).updCtx c.toNat
        (fun _ => { d with images := ctx.images })) 0)) ∧
    (ctx.st = .free → exec (.ctxClose c) s = .next (answerCtx s 1)) ∧ (ctx.st = .closing → exec (.ctxClose c) s = .next (answerCtx s 0)) ∧
    (ctx.st = .opened → s.grp.st = .none → s.others = [] → s.queues = [] → s.kerns = [] → ∃ t, exec (.ctxClose c) s = .next t ∧ (t.ctx c.toNat).st = .free) ∧
    -- kernels
    (kern.st = .free → ctx.st = .opened → s.host.kaddr.toNat % 256 = 0 → s.host.kaddr.toNat < 2 ^ 57 →
      exec (.kernelLoad c k) s = .next (((({ s with loading := some (c.toNat, k.toNat) } : State)).updKern k.toNat
        (fun _ => { Kern.free with st := .loading, ctx := c.toNat, base := s.host.kaddr })).postE .kernelLoadReadDone)) ∧
    (kern.st ≠ .free → exec (.kernelLoad c k) s = .next (answerKern s 1 0)) ∧
    (∀ o s1, s.loading = some (c.toNat, k.toNat) → ctx.st ≠ .free → readObject s c.toNat kern.base.toNat = .ok o s1 →
      (o.reason = 0 → exec .kernelLoadReadDone s =
        .next (answerKern ((({ s1 with loading := none } : State)).updKern k.toNat (fun _ => o.kern c.toNat kern.base)) 0 0)) ∧
      (o.reason ≠ 0 → exec .kernelLoadReadDone s =
        .next (answerKern ((({ s1 with loading := none } : State)).updKern k.toNat (fun _ => .free)) 2 o.reason))) ∧
    (kern.st = .ready → exec (.kernelUnload c k) s =
      .next (answerKern (settle (s.updKern k.toNat (fun x => { x with st := .unloading }))) 0 0)) ∧
    (kern.st = .free ∨ kern.st = .loading → exec (.kernelUnload c k) s = .next (answerKern s 1 0)) ∧
    -- queues
    (x.st ≠ .off → exec (.queueEnable q) s = .next (answerQueue s 1)) ∧
    (∀ v s1, x.st = .off → physAsk s (queueDesc s q.toNat) 32 = .ok (v, none) s1 →
      let f (i hi lo : Nat) : Nat := word64 v i / 2 ^ lo % 2 ^ (hi + 1 - lo)
      f 0 63 57 = 0 → f 0 11 0 = 0 → 4 ≤ f 1 55 52 → f 1 47 32 ≠ 0 → f 2 63 19 = 0 → word64 v 3 = 0 → (s.ctx (f 1 63 56)).st = .opened →
      exec (.queueEnable q) s = .next (answerQueue (setQueue s1 q.toNat (fun _ => { Queue.off with
        st := .ready, ring := BitVec.ofNat 64 (word64 v 0), ctx := f 1 63 56, log2n := f 1 55 52, prio := f 1 51 49,
        devok := (word64 v 1).testBit 48, quant := f 1 47 32, deadline := f 1 31 0 })) 0)) ∧
    (x.st = .off ∨ x.st = .draining → exec (.queueDisable q) s = .next (answerQueue s 0)) ∧
    (x.st = .ready ∨ x.st = .paused ∨ x.st = .error → x.pending = 0 → x.flushing = none → exec (.queueDisable q) s =
      .next (answerQueue (setQueue s q.toNat (fun x => { x with st := if x.pkts.isEmpty then .off else .draining })) 0)) ∧
    (x.st = .ready → exec (.queuePause q) s = .next (answerQueue (setQueue s q.toNat (fun x => { x with st := .paused })) 0)) ∧
    (x.st = .paused → exec (.queueResume q) s = .next (answerQueue (setQueue s q.toNat (fun x => { x with st := .ready })) 0)) ∧
    (x.st = .error → exec (.queueReset q) s = .next (answerQueue (setQueue s q.toNat (fun x => { x with st := .ready, head := x.tail })) 0)) ∧
    (x.st = .off ∨ x.st = .error ∨ x.st = .draining → exec (.queuePause q) s = .next (answerQueue s 1) ∧ exec (.queueResume q) s = .next (answerQueue s 1)) ∧
    (x.st ≠ .error → exec (.queueReset q) s = .next (answerQueue s 1)) ∧
    (regOpen s = true → x.devok = false → x.st = .ready ∨ x.st = .paused →
      let m := (tail.toNat + 65536 - x.head) % 65536
      (x.pending ≤ m → m ≤ 2 ^ x.log2n → exec (.qdb q tail) s = .next (s.updQueue q.toNat (fun x => { x with tail := tail.toNat }))) ∧
      (m < x.pending ∨ 2 ^ x.log2n < m → exec (.qdb q tail) s = .next (setQueue s q.toNat (fun x => { x with st := .error })))) ∧
    -- packets
    (x.st = .ready → x.pending ≠ 0 → x.pkts = [] → disabling s q.toNat = false →
      ((s.ctx x.ctx).st = .free → exec (.packetTake q) s = .next (putPkt s q.toNat ((pktOf x.head 0).fail 1 0))) ∧
      ((s.ctx x.ctx).st ≠ .free →
        (∀ e s1, queueRead s x.ctx (x.slotVa x.head) 128 = .fault e s1 →
          exec (.packetTake q) s = .next (setQueue s1 q.toNat (fun x => { x with st := .error }))) ∧
        (∀ v s1, queueRead s x.ctx (x.slotVa x.head) 128 = .ok v s1 →
          let p := pktOf x.head v
          let st := pktCheck s1 x p v
          (st ≠ 0 → exec (.packetTake q) s = .next (putPkt s1 q.toNat (p.fail st 0))) ∧
          (st = 0 → ∀ p2 s2, armTrigs x.ctx v 4 s1 p = .ok p2 s2 → exec (.packetTake q) s = .next (putPkt s2 q.toNat p2))))) ∧
    (disabling s q.toNat = true → exec (.packetTake q) s = .next s) ∧
    (∀ p, x.pkts.find? (fun p => p.open && !p.captured) = some p → p.trigs.all (fun t => t.2.2.2) = true → (s.ctx x.ctx).st = .opened →
      let put (s : State) (f : Pkt → Pkt) : Out := .next (settle (postComplete (updPkt s q.toNat p.seq f) q.toNat p.seq))
      (p.typ = 0 → exec (.parameterBlockRead q) s = put s (fun p => { p with dispatched := true })) ∧
      (p.typ = 1 → kernUsable s x p = true → ∀ v s1, queueRead s x.ctx p.param.toNat (s.kern p.kid).paramSize = .ok v s1 →
        exec (.parameterBlockRead q) s =
          .next (settle (postComplete (updPkt (updPkt s1 q.toNat p.seq (fun _ => p.capture (s.kern p.kid) v)) q.toNat p.seq (fun p => p)) q.toNat p.seq)))) ∧
    (∀ (p : Pkt) (a o : Nat), s.ready.getD 152 0 = 1 → s.queues = [(q.toNat, x)] → x.st = .ready → (s.ctx x.ctx).st = .opened →
      1 ≤ x.quant → 0 ≤ x.deficit → (∀ g ∈ s.groups, g.st ≠ .saved) →
      x.pkts = [p] → p.open = true → p.captured = true → p.typ ≠ 0 → p.halves = 1 → kernUsable s x p = true → p.entry = none →
      fieldOf p.place 63 62 ≠ 2 →
      let k := s.kern p.kid
      pickCores s (workDies s (.fresh p) 0) false k.need = some [a] → imageAt (s.ctx x.ctx) k.need.image = some o → k.ents.getD 0 0 ≠ 0xFFFFFFFF →
      ∃ t, exec .groupDispatch s = .next t ∧ t.grp.st = .running ∧ t.grp.core = a ∧ t.grp.slot = (freeSlots s a []).getD 0 0 ∧
        t.grp.queue = q.toNat ∧ t.grp.pkt = p.seq ∧ t.grp.pos = p.next ∧ t.grp.prio = x.prio ∧ t.grp.partner = 0 ∧
        t.grp.sidx = (List.range 6).map (fun l => BitVec.ofNat 32 ((nextPoint p).1.getD l 0)) ∧ t.grp.paramptr = p.param ∧
        t.grp.ss = StreamSt.start k.base (k.ents.getD 0 0) ∧ t.grp.vs = StreamSt.start k.base (k.ents.getD 1 0) ∧
        t.grp.ms = StreamSt.start k.base (k.ents.getD 2 0) ∧ t.grp.cs = StreamSt.start k.base (k.ents.getD 3 0) ∧
        t.grp.framePa = (s.ctx x.ctx).savebase + o ∧ t.grp.tvec = (s.ctx x.ctx).tvec ∧ t.mem = s.mem) ∧
    (s.ready.getD 152 0 ≠ 1 → exec .groupDispatch s = .next s) ∧
    (exec (.spillExpiry q) s = .next (s.updQueue q.toNat (fun x => { x with pkts := x.pkts.map (fun p =>
      if p.open = true ∧ fieldOf p.place 59 56 ≠ 0 ∧ p.spillFrom.any (fun c => decide (c + fieldOf p.place 59 56 * 1024 ≤ s.cycle)) = true
        then { p with spilled := true } else p) }))) ∧
    (∀ p s1, x.pkts.find? (fun p => p.seq == n.toNat) = some p → p.over = true → finishPkt s q.toNat p p.status = .ok () s1 →
      exec (.packetComplete q n) s = .next (settle (dropPkt s1 q.toNat n.toNat)))

-- Memory, pages and the host -----------------------------------------------------------------------------------------------

/-- R321 to R323, R317, R319, R326, R327, R276, R148, R271, R278, R192, R285, R282, R366, R368, R306, R332, R367: what the host and the memory system
do. A host request to invalidate is appended to every die's log, applied at once where it asks for it, and answered with RESULT 0. A page
walk that needs no other module's table fills the TLBs. A migration that the host submits is answered in MIGH, and its steps go in order: the leaf is swapped
by one compare and swap at its home, the copy is made after what is queued for the page, and its end writes the status and counts. The configuration of a far-tier cache
is refused or begins, and ends with its new size, base and epoch. A posted reduction is performed from its queue; a refresh that is due is
performed; a converting bank goes from DRAINING F through DRAINING W to its target mode. A register of the host stores what its layout
keeps, and its commands and doorbells run next. A host read answers with the bytes at their home, or an error completion. (The model's
choices: that a register write puts its command or doorbell at the head of the agenda, so that it runs in the next step, log entry 15; the
invalidation at an abort, the write-back of cached copies and status 2 of a migration, log entry 83; which accesses of the
host get an error completion, log entry 88, and that those to storage that is NOT_READY do and that none is served with no port READY, log
entry 150; what an attestation report holds, log entry 92; that a prefetching fill is an event with its line and victim, log entry 97; that
the device waits where its accesses lead to another module, log entry 20.) -/
def Obligations.MemoryAndHostEvents : Prop :=
  ∀ (c : BitVec 8) (va : BitVec 41) (sync : BitVec 1) (core : BitVec 7) (v w : BitVec 64) (n : BitVec 2) (d stack : BitVec 4) (b : BitVec 5) (s : State),
    let il (kind ctx a : Nat) : Out :=
      .next (answerIl (if sync = 1 then ilApplyAll (ilAppend s kind ctx a) else ilAppend s kind ctx a) 0)
    let nd := s.ndie n.toNat
    -- invalidation and translation
    exec (.ilcmdInvalidatePage c va sync) s = il 0 c.toNat (va.toNat * 65536) ∧ exec (.ilcmdInvalidateContext c sync) s = il 1 c.toNat 0 ∧
    exec (.ilcmdInvalidateAll sync) s = il 2 0 0 ∧ exec .ilcmdSync s = .next (answerIl (ilApplyAll s) 0) ∧
    (n ≠ 3 → exec (.invalidationAppend n c va) s = .next (ilAppend s n.toNat c.toNat (va.toNat * 65536))) ∧
    (core.toNat < 96 → w.toNat < 2 ^ 57 → walkWaits s core.toNat c.toNat w.toNat = true → exec (.pageWalk core c w) s = .next s) ∧
    (core.toNat < 96 → w.toNat < 2 ^ 57 → walkWaits s core.toNat c.toNat w.toNat = false → exec (.pageWalk core c w) s = .next (findLeaf s core.toNat c.toNat w.toNat).2 ∧
      (∀ l e pa, (findLeaf s core.toNat c.toNat w.toNat).1 = .leaf l e pa → s.cores.length = 96 →
        (tlbFind ((findLeaf s core.toNat c.toNat w.toNat).2.core core.toNat).tlb c.toNat w.toNat).isSome = true)) ∧
    -- migration
    (regOpen s = true →
      let pa := fieldOf v 51 5 * 32
      let cx := fieldOf v 63 56
      let fin (s : State) (res : Nat) : Out :=
        .next { s with host := { s.host with migh := BitVec.ofNat 64 (cx * 2 ^ 56 + res * 2 ^ 52 + fieldOf v 51 5 * 32) } }
      ∀ x s1, physAsk { s with mighWait := none } pa 32 = .ok (x, none) s1 → ownMem s pa = true ∨ inRemote pa = true → (s.ctx cx).st ≠ .free →
        ((migSubmit s1 0 cx x).1 ≠ 5 → exec (.migh v) s = fin (migSubmit s1 0 cx x).2 (migSubmit s1 0 cx x).1) ∧
        ((migSubmit s1 0 cx x).1 = 5 → exec (.migh v) s = .next { (migSubmit s1 0 cx x).2 with mighWait := some v })) ∧
    (∀ (e : BitVec 1) (k : BitVec 4) (m : Migr) (s1 : State), (s.migActive.getD e.toNat [])[k.toNat]? = some m →
      let put (s : State) (f : Migr → Migr) : Out := .next (updMigr s e.toNat k.toNat f)
      let size := pageSize m.level
      let home (pa : Nat) : Nat := homeOf pa (some (fieldOf m.leaf 9 8))
      let stable := m.leaf.toNat - fieldOf m.leaf 12 11 * 2 ^ 11
      let copying := stable + 2 ^ 11
      let lost (new : Nat) : Prop := ∀ s1, leafCas s m new = .ok false s1 → exec (.migrationStep e k) s = put s1 (fun x => { x with step := 5, status := 2 })
      (m.step = 1 → lost copying ∧ (leafCas s m copying = .ok true s1 →
        exec (.migrationStep e k) s = put (migInvalidate s1 m) (fun x => { x with leaf := BitVec.ofNat 64 copying, step := 2 }))) ∧
      (m.step = 2 → (rangeFlush s m.src size = none → exec (.migrationStep e k) s = .next s) ∧
        (rangeFlush s m.src size = some s1 → exec (.migrationStep e k) s =
          put (ftcRange (serveRange s1 m.src size) (home m.src) m.src size) (fun x => { x with step := 3 }))) ∧
      (m.step = 3 → m.status ≠ 1 → inRemote m.src = false →
        let settled := ftcRange (serveRange (ftcRange (serveRange s m.src size) (home m.src) m.src size) m.dst size) (home m.dst) m.dst size
        let good := migGood settled m
        let copied := noticeRange (copyPage settled m.src m.dst good) m.dst size
        (good = size → exec (.migrationStep e k) s = put copied (fun x => { x with step := 4 })) ∧
        (good ≠ size → exec (.migrationStep e k) s = put copied (fun x => { x with status := 1 }))) ∧
      (m.step = 3 → m.status = 1 → lost stable ∧ (leafCas s m stable = .ok true s1 →
        exec (.migrationStep e k) s = put (migInvalidate s1 m) (fun x => { x with leaf := BitVec.ofNat 64 stable, step := 5 }))) ∧
      (m.step = 4 → lost (migLeaf m) ∧ (leafCas s m (migLeaf m) = .ok true s1 → exec (.migrationStep e k) s =
        put (followPage (migInvalidate s1 m) m (BitVec.ofNat 64 (migLeaf m))) (fun x => { x with leaf := BitVec.ofNat 64 (migLeaf m), step := 5 }))) ∧
      (m.step = 5 → m.status = 0 → exec (.migrationStep e k) s = put (rangeDrop s m.src size) (fun x => { x with step := 6 })) ∧
      (m.step = 6 →
        let retired (s : State) : Out := .next { s with
          migActive := updAt s.migActive e.toNat (fun l => l.eraseIdx k.toNat ++ (s.migQueued.getD e.toNat []).take 1),
          migQueued := updAt s.migQueued e.toNat (fun l => l.drop 1) }
        (m.stat ≠ 0 → devWrite s m.ctx m.stat.toNat 8 m.status 0 = .ok () s1 → exec (.migrationStep e k) s = put s1 (fun x => { x with stat := 0 })) ∧
        (m.stat = 0 → m.ctr = 0 → exec (.migrationStep e k) s = retired s) ∧
        (m.stat = 0 → m.ctr ≠ 0 → devUnacked s = false → ∀ x, devCount s m.ctx m.ctr.toNat m.key 0 = .ok x s1 →
          exec (.migrationStep e k) s = retired s1)) ∧
      (∀ new old, inRemote m.leafPa = false →
        homeAtomic s (homeOf m.leafPa none) m.leafPa 8 (fun x => if x == m.leaf.toNat then new else x) = some (old, s1) →
        leafCas s m new = .ok (old == m.leaf.toNat) s1)) ∧
    -- far-tier caches
    (regOpen s = true → nd.ftcBusy = false →
      let size := fieldOf v 59 56
      let base := fieldOf v 51 28 * 2 ^ 28
      let bad : Prop := fieldOf v 61 60 ≠ 0 ∨ fieldOf v 55 52 ≠ 0 ∨ fieldOf v 27 13 ≠ 0 ∨ 8 ≤ size ∨ ftcRefused n.toNat size base = true
      (bad → exec (.ftccfg n v) s = .next (s.updNDie n.toNat (fun x => { x with ftcResult := true }))) ∧
      (¬ bad → nd.ftcSize = 0 → exec (.ftccfg n v) s = .next ((s.updNDie n.toNat (fun x => { x with
        ftcBusy := true, ftcResult := false, newSize := size, newBase := base })).postE (.ftcChangeDone n)))) ∧
    (nd.ftcBusy = true → nd.ftcSize = 0 → nd.epoch + 1 < 2 ^ 13 → exec (.ftcChangeDone n) s = .next (s.updNDie n.toNat (fun x => { x with
      ftcSize := x.newSize, ftcBase := x.newBase, epoch := nd.epoch + 1, ftcBusy := false }))) ∧
    -- queues, fills, refresh, banks
    (∀ q qs r rs s1, nd.queue = q :: qs → makeRoom s n.toNat (entriesFor (q.pa / 128)) = s1 → (s1.ndie n.toNat).queue = r :: rs →
      exec (.writeQueueRequest n) s = .next (performRed (s1.updNDie n.toNat (fun x => { x with queue := rs })) n.toNat r)) ∧
    (∀ r rs, (s.die d.toNat).reds = r :: rs → ∀ s1, applyRed (s.updDie d.toNat (fun x => { x with reds := rs })) r = some s1 →
      exec (.l2ReductionApplied d) s = .next s1) ∧
    (∀ (line : BitVec 45) (t : Tr), core.toNat < 96 → lineTr s (core.toNat / 8) line.toNat = some t → ownMem s t.pa = true →
      l2Down s (core.toNat / 8) = false → notReady s (unitOf t.pa) = false → hasL1 s core.toNat = true → l1Draining s core.toNat line.toNat = false → ∀ s1, l1Fill s core.toNat t = some s1 →
      exec (.cacheFill 0 core line line) s = .next s1) ∧
    (∀ row : BitVec 40, s.rowTimes.lookup (stack.toNat * 2 ^ 40 + row.toNat) = none →
      exec (.refresh stack row) s = .next { s with rowTimes := setA s.rowTimes (stack.toNat * 2 ^ 40 + row.toNat) s.cycle }) ∧
    (∀ k : Bank, (s.core core.toNat).banks[b.toNat]? = some k →
      (k.mode = .drainF → exec (.bankFillDone core b) s = .next ((s.updCore core.toNat (fun x => { x with
        banks := updAt x.banks b.toNat (fun k => { k with mode := .drainW, misses := 0 }) })).postE (.bankWritebackDone core b))) ∧
      (k.mode = .drainW → (∀ x ∈ (s.core core.toNat).l1, x.bank ≠ b.toNat) → exec (.bankWritebackDone core b) s =
        .next (s.updCore core.toNat (fun x => { x with banks := updAt x.banks b.toNat (fun k => { k with mode := k.target }) })))) ∧
    (∀ line : BitVec 45, exec (.farWriteCompletion line) s =
      .next { s with ndies := s.ndies.map (fun n => { n with farWrites := n.farWrites.filter (fun l => l != line.toNat) }) }) ∧
    -- host registers and memory
    (regOpen s = true →
      let at' (o : BitVec 12) (t : State) : Prop := exec (.hostRegisterWrite o v) s = .next t
      at' 0x010 { s with host := { s.host with ctxbase := v &&& 0x000FFFFFFFFFF000 } } ∧ at' 0x088 { s with host := { s.host with evbase := v &&& 0x000FFFFFFFFFF000 } } ∧
      at' 0x058 { s with host := { s.host with promh := v &&& handleMask } } ∧ at' 0x0B0 { s with host := { s.host with lwgt := v &&& 0xFFFF } } ∧
      at' 0x000 s ∧ at' 0x008 s ∧ at' 0x098 s ∧ at' 0x400 s ∧
      at' 0x060 { s with agenda := .event (.proma v) :: s.agenda } ∧ at' 0x080 { s with
        host := { s.host with migh := (s.host.migh &&& 0x0070000000000000) ||| (v &&& 0xFF0FFFFFFFFFFFE0) ||| 0x0080000000000000 },
        agenda := .event (.migh v) :: s.agenda } ∧
      (fieldOf s.host.ctxcmd 63 63 = 0 → fieldOf v 3 0 = 1 → at' 0x018 { s with
        host := { s.host with ctxcmd := (v &&& 0xFF0F) ||| 0x8000000000000000 }, agenda := .event (.ctxOpen (BitVec.ofNat 8 (fieldOf v 15 8))) :: s.agenda }) ∧
      (fieldOf s.host.ctxcmd 63 63 = 1 → at' 0x018 s)) ∧
    (∀ o : BitVec 12, (hostRegValue s o.toNat = none → exec (.hostRegisterWrite o v) s = .next (hostError s o.toNat)) ∧
      (s.safe = true → hostRegValue s o.toNat ≠ none → exec (.hostRegisterWrite o v) s = .next s)) ∧
    (∀ (pa : BitVec 52) (k : BitVec 8), s.safe = false → k ≠ 0 → ownMem s pa.toNat = true → ownMem s (pa.toNat + k.toNat - 1) = true →
      notReady s (unitOf pa.toNat) = false → notReady s (unitOf (pa.toNat + k.toNat - 1)) = false →
      (anyPort s = false → exec (.hostMemoryRead pa k) s = .next s) ∧
      (anyPort s = true → ∀ x bad s1, physRead s pa.toNat k.toNat = (x, bad, s1) → exec (.hostMemoryRead pa k) s =
        .next (if bad = true then hostError s1 pa.toNat else { s1 with replies := s1.replies ++ [.data pa.toNat (bytesOf k.toNat x)] }))) ∧
    (∀ (pa : BitVec 52) (x : BitVec 8) (k : BitVec 8), s.safe = true ∨ ownMem s pa.toNat = false ∨ notReady s (unitOf pa.toNat) = true →
      exec (.hostMemoryRead pa k) s = .next (hostError s pa.toNat) ∧ exec (.hostMemoryWrite pa [x]) s = .next (hostError s pa.toNat)) ∧
    (∀ (pa : BitVec 52) (x : BitVec 8), s.safe = false → ownMem s pa.toNat = true → notReady s (unitOf pa.toNat) = false →
      (anyPort s = false → exec (.hostMemoryWrite pa [x]) s = .next s) ∧
      (anyPort s = true → exec (.hostMemoryWrite pa [x]) s = .next (physWrite s pa.toNat 1 x.toNat))) ∧
    (regOpen s = true → fieldOf v 63 52 = 0 → fieldOf v 7 2 = 0 → fieldOf s.host.attaddr 1 1 = 0 → exec (.attaddr v) s =
      .next { s with host := { s.host with attaddr := BitVec.ofNat 64 (fieldOf v 51 8 * 256 + 2) } }) ∧
    (∀ (rep : List (BitVec 8)) (x : Nat × Option Exc) (s1 : State), fieldOf s.host.attaddr 1 1 = 1 →
      let a := fieldOf s.host.attaddr 51 8 * 256
      let bytes := (bytesOf 32 x.1 ++ reportBody s rep).take 3840
      let report := physWrite s1 (a + 256) bytes.length (leNat bytes)
      let ends (u : State) : Out := .next { u with attSent := false, host := { u.host with attaddr := BitVec.ofNat 64 (a + 1) } }
      (s.attSent = false → physAsk s a 32 = .ok x s1 →
        (inRemote a = false ∨ devUnacked report = false → exec (.attestationReportDone rep) s = ends report) ∧
        (inRemote a = true → devUnacked report = true → exec (.attestationReportDone rep) s = .next { report with attSent := true })) ∧
      (s.attSent = true → devUnacked s = true → inRemote a = true → exec (.attestationReportDone rep) s = .next { s with attSent := true }) ∧
      (s.attSent = true → devUnacked s = false → exec (.attestationReportDone rep) s = ends s)) ∧
    (∀ port : BitVec 1, let i := 6 + port.toNat
      ((s.str i).sess ≠ .free ∨ (s.str i).cal ≠ none → exec (.fibmodeApply port) s = .next s) ∧
      ((s.str i).sess = .free → (s.str i).cal = none →
        exec (.fibmodeApply port) s = .next (postAdmit (tellComb (s.updStr i (fun t => t.withMode (fibMode s port.toNat))) i) i)) ∧
      (i < s.strs.length → (((s.updStr i (fun t => t.withMode (fibMode s port.toNat))).str i).mode = fibMode s port.toNat))) ∧
    (∀ m : BitVec 6, regOpen s = true → exec (.routeWrite m v) s = .next (flushOutbox (withReroutes s
      (s.updHost (fun h => { h with routes := updAt h.routes m.toNat (fun _ => v &&& 0x3FF) })))))

-- Bring-up and faults of units -----------------------------------------------------------------------------------------------

/-- R363 to R367, R334 to R337, R370, R10: package reset samples the straps and verifies; where all is well the functions start (PHASE 2), else the
module is in safe mode with the lowest REASON that holds; a function that becomes ready says so, and with the last one the module runs
(PHASE 3); an installation records the straps, the serial and the neighbours; a fenced core is restored with nothing in it; the power limit
takes the clock down by 100 MHz to 1.2 GHz; a fault of a core whose spare is unused begins the takeover, which ends with the spare in the
core's place; lost storage is fenced; a corrected error is recorded. The model's choices, not the spec's rules: PHASE before the reset, and that
Ovpol (function 160) is READY from packageReset on and NOT_READY before it (log 91); what the restore of a fenced core, die or string brings back (log 79); that the
requests of other modules that a function's READY lets go run then (log 150); when a takeover ends and which of the core's contents survive it (log 98); that these events come from outside the core (log 16). -/
def Obligations.BringupEvents : Prop :=
  ∀ (m : BitVec 6) (cxl : BitVec 8) (fib : BitVec 4) (sigs : BitVec 2) (f : BitVec 8) (core : BitVec 7) (die : BitVec 4) (idx : BitVec 16)
    (cnt : BitVec 32) (serial : BitVec 64) (neigh : List (BitVec 7)) (s : State),
    (∃ t, exec (.packageReset m cxl fib sigs) s = .next t ∧ t.topo = s.topo ∧ t.modid = m.toNat ∧ t.cxlMask = cxl ∧ t.fibStrap = fib ∧ t.grp.st = .none ∧ t.others = [] ∧
      t.ctxs = [] ∧ t.kerns = [] ∧ t.queues = [] ∧ t.mem = [] ∧ fieldOf t.host.attaddr 1 0 = 0 ∧ t.ready.getD 160 0 = 1 ∧ (∀ k, k < 120 → t.ready.getD k 3 = 0) ∧
      (∀ n, n < 8 → (t.str n).comb = .primary ∧ (t.str n).sess = .free) ∧
      (sigs = 0 → m.toNat = s.topo.1 → cxl = s.topo.2.1 → fib = s.topo.2.2.1 → t.safe = false ∧ t.phase = 2 ∧ t.reason = 0) ∧
      (sigs.getLsbD 0 = true → t.safe = true ∧ t.reason = 1) ∧
      (sigs.getLsbD 0 = false → sigs.getLsbD 1 = true → t.safe = true ∧ t.reason = 2) ∧
      (sigs = 0 → m.toNat ≠ s.topo.1 ∨ cxl ≠ s.topo.2.1 ∨ fib ≠ s.topo.2.2.1 → t.safe = true ∧ t.reason = 3)) ∧
    (s.safe = false → s.phase = 2 → f.toNat ≤ 160 → s.ready.length = 161 → s.ready.getD f.toNat 3 = 0 →
      (128 ≤ f.toNat → f.toNat < 144 → linkUsable s (f.toNat - 128) = true) →
      ∃ t, exec (.functionReady f) s = .next t ∧ t.ready = updAt s.ready f.toNat (fun _ => 1) ∧ t.remWait = [] ∧ t.grp = s.grp ∧ t.mem = s.mem ∧
        ((∀ k, k < 161 → k ≠ f.toNat → s.ready.getD k 0 ≠ 0) → t.phase = 3)) ∧
    (s.phase < 2 → exec (.functionReady f) s = .next s) ∧
    (s.safe = false → core.toNat < 96 → s.ready.getD core.toNat 0 = 2 → s.cores.length = 96 →
      ∃ t, exec (.functionRestore (core.setWidth 8)) s = .next t ∧ t.ready = updAt s.ready core.toNat (fun _ => 0) ∧
        (t.core core.toNat).l1 = [] ∧ (t.core core.toNat).tlb = [] ∧ t.mem = s.mem) ∧
    exec (.managementInstall serial neigh) s = .next { s with
      topo := (s.modid, s.cxlMask, s.fibStrap, serial, (List.range 16).map (fun i => (neigh.getD i 64).toNat)) } ∧
    (1200 < s.clockMHz → exec .powerLimitThrottle s = .next { s with clockMHz := s.clockMHz - 100 }) ∧
    (core.toNat < 96 → s.ready.getD core.toNat 0 = 1 → (s.die (core.toNat / 8)).moving = none → (s.die (core.toNat / 8)).spareUsed = false →
      coreGroups s core.toNat = [] → ∀ s0, l1WbAll s core.toNat = some s0 → exec (.coreFault core []) s =
        .next ((eventRecord ((s0.updCore core.toNat (fun x => { x with failing := none })).updDie (core.toNat / 8) (fun d => { d with moving := some core.toNat })) 0 core.toNat 3 1 0 0).postE
          (.spareTakeoverDone (BitVec.ofNat 4 (core.toNat / 8))))) ∧
    (s.ready.getD core.toNat 0 ≠ 1 → exec (.coreFault core []) s = .next s) ∧
    (∀ c, die.toNat < 12 → s.dies.length = 12 → (s.die die.toNat).moving = some c →
      ∃ t, exec (.spareTakeoverDone die) s = .next t ∧ (t.die die.toNat).moving = none ∧ (t.die die.toNat).spareUsed = true) ∧
    (die.toNat < 12 → s.lost.contains die.toNat = false → exec (.storageLost 0 die) s =
      .next (eventRecord { s with lost := insSorted die.toNat s.lost, ready := updAt s.ready (108 + die.toNat) (fun _ => 2) } 3 die.toNat 4 1 0 0)) ∧
    (s.corrected.lookup (f.toNat, idx.toNat) = none → exec (.correctableError f idx cnt) s = .next (eventRecord { s with
      corrected := s.corrected.filter (fun c => c.1 != (f.toNat, idx.toNat)) ++ [((f.toNat, idx.toNat), (s.cycle, 0))] } f.toNat idx.toNat 0 cnt.toNat 0 0))

-- Links, gangs and collectives -----------------------------------------------------------------------------------------------

/-- R339 to R348, R352, R353, R357, R359 to R362, R365: what the links bring once functions may start (PHASE 2). A link that trains with fewer than 8
wavelengths has failed its training, whichever neighbour it sees; one with its recorded neighbour comes UP with 16 wavelengths
or more and DEGRADED with 8 to 15, and the third failed training in a row fences it; a wavelength lost costs its width; light lost takes it
DOWN, light seen or a management reset to TRAINING; unacknowledged flits are resent on a NAK and after a timeout; an intact flit in
order is accepted. A request of another module is performed at its home and answered, once, and waits while its home is
NOT_READY (R367, log entry 150); an answer ends its request. A rerouted destination's requests go again when those before them are answered
or their time is over. The members of a
gang exchange READY, COMMIT, ABORT and QUERY, and the leader decides; a collective matches, starts and ends its buckets, and fails. The model's
choices, not the spec's rules: the layouts of the messages and what ARG says in them (log 26, and log 69 for the status of an answer, log 102 for the
cause of a failure), which of these come from outside as arguments (log 16), that a leader an ABORT reaches decides at once (log 65), what a
reroute holds and for how long (log 76), that training clears a link's numbers and buffers (log 77), when a NAK stands and when resends fence (log
94), and when the clock matches, starts and ends a collective's parts (log 101). -/
def Obligations.FabricEvents : Prop :=
  ∀ (n : BitVec 4) (w : BitVec 5) (m : BitVec 6) (seq12 : BitVec 12) (cg : BitVec 8) (seq b : BitVec 32) (g : BitVec 32) (p : Packet) (flit : BitVec 512) (s : State),
    let k := n.toNat
    let l := s.link k
    -- links
    (s.safe = false → 2 ≤ s.phase → l.st = .training →
      (8 ≤ w.toNat → w.toNat ≤ 18 → m.toNat = s.topo.2.2.2.2.getD k 64 → m.toNat ≠ s.modid → exec (.linkTrained n w m) s = .next (flushOutbox (withReroutes s (linkReady (s.updLink k (fun l =>
        { l.quiet (if 16 ≤ w.toNat then .up else .degraded) with waves := w.toNat, failed := 0, neighbour := m.toNat })) k 1)))) ∧
      (w.toNat < 8 → exec (.linkTrained n w m) s = .next (s.postE (.linkTrainingFailed n))) ∧
      (8 ≤ w.toNat → m.toNat ≠ s.topo.2.2.2.2.getD k 64 → exec (.linkTrained n w m) s = .next (enterSafe s 4)) ∧
      (8 ≤ w.toNat → m.toNat = s.topo.2.2.2.2.getD k 64 → m.toNat = s.modid → exec (.linkTrained n w m) s = .next (enterSafe s 5))) ∧
    (s.phase < 2 → exec (.linkTrained n w m) s = .next s ∧ exec (.linkManagementReset n) s = .next s ∧ exec (.linkLightDetected n) s = .next s) ∧
    (l.st = .training → l.failed < 2 → exec (.linkTrainingFailed n) s = .next (s.updLink k (fun l => { l with failed := l.failed + 1 }))) ∧
    (l.st = .training → 2 ≤ l.failed → exec (.linkTrainingFailed n) s = .next (linkLost (s.updLink k (fun l => { l with failed := 0 })) k .fenced)) ∧
    (linkUsable s k = true →
      (17 ≤ l.waves → exec (.wavelengthLost n) s = .next (s.updLink k (fun x => { x with waves := l.waves - 1 }))) ∧
      (9 ≤ l.waves → l.waves ≤ 16 → exec (.wavelengthLost n) s = .next (s.updLink k (fun x => { x with waves := l.waves - 1, st := .degraded }))) ∧
      (l.waves ≤ 8 → exec (.wavelengthLost n) s = .next (linkLost s k .fenced)) ∧
      exec (.nakReceive n seq12) s = .next (resendAll (takeAck s k seq12.toNat) k) ∧
      (l.unacked ≠ [] → l.since + 2 ^ 16 ≤ s.cycle → l.timeouts < 7 →
        exec (.ackTimeout n) s = .next (resendAll (s.updLink k (fun l => { l with timeouts := l.timeouts + 1 })) k)) ∧
      (l.unacked ≠ [] → l.since + 2 ^ 16 ≤ s.cycle → 7 ≤ l.timeouts → exec (.ackTimeout n) s = .next (linkLost s k .fenced)) ∧
      (flitGood flit = true → fieldOf flit 7 5 = 0 → exec (.flitReceive n flit) s = .next (takeAck s k (fieldOf flit 19 8))) ∧
      (flitGood flit = true → fieldOf flit 7 5 = 3 → exec (.flitReceive n flit) s = .next (resendAll (takeAck s k (fieldOf flit 19 8)) k)) ∧
      (flitGood flit = true → fieldOf flit 7 5 = 1 → fieldOf flit 31 20 = ((takeAck s k (fieldOf flit 19 8)).link k).expSeq → fieldOf flit 1 1 = 0 →
        exec (.flitReceive n flit) s = .next ((takeAck s k (fieldOf flit 19 8)).updLink k (fun l => { l with
          expSeq := (l.expSeq + 1) % 4096, nak := none,
          partialPkt := ((takeAck s k (fieldOf flit 19 8)).link k).partialPkt ++ [flit] })))) ∧
    (l.st = .up ∨ l.st = .degraded ∨ l.st = .training → exec (.lightLost n) s = .next (linkLost s k .down)) ∧
    (s.safe = false → 2 ≤ s.phase → l.st = .down → exec (.linkLightDetected n) s = .next (s.updLink k (fun l => l.quiet .training))) ∧
    (s.safe = false → 2 ≤ s.phase → exec (.linkManagementReset n) s =
      .next (withReroutes s (linkReady (s.updLink k (fun l => { l.quiet .training with failed := 0 })) k 0))) ∧
    (∀ t, (s.dest m.toNat).reroute = some t →
      ((s.dest m.toNat).unans ≠ [] → s.cycle < t + 2 ^ 20 → exec (.rerouteResend m) s = .next s) ∧
      ((s.dest m.toNat).unans = [] ∨ t + 2 ^ 20 ≤ s.cycle → exec (.rerouteResend m) s = .next ((s.dest m.toNat).open.foldl enqueue
        (s.updDest m.toNat (fun x => { x with reroute := none, unans := (s.dest m.toNat).open, held := [] }))))) ∧
    -- requests and answers
    (p.pop = 0 ∨ ((p.pop = 1 ∨ p.pop = 2 ∨ p.pop = 3) ∧ (s.dest p.srcm.toNat).cache.lookup (p.rid.toNat % 256) = none) → remoteHeld s p = true →
      exec (.remoteRequest p) s = .next { s with remWait := s.remWait ++ [p] }) ∧
    (p.pop = 0 → remoteHeld s p = false → exec (.remoteRequest p) s = .next (sendReply (performRemote s p).2 (performRemote s p).1)) ∧
    (p.pop = 1 ∨ p.pop = 2 ∨ p.pop = 3 →
      (∀ old, (s.dest p.srcm.toNat).cache.lookup (p.rid.toNat % 256) = some old → old.rid = p.rid →
        exec (.remoteRequest p) s = .next (sendReply s { old with tag := p.tag })) ∧
      ((s.dest p.srcm.toNat).cache.lookup (p.rid.toNat % 256) = none → remoteHeld s p = false → exec (.remoteRequest p) s =
        .next (sendReply ((performRemote s p).2.updDest p.srcm.toNat (fun d => { d with cache := setA d.cache (p.rid.toNat % 256) (performRemote s p).1 }))
          (performRemote s p).1))) ∧
    (s.tagOwner.find? (fun t => t.1 == p.tag && t.2.1 == p.srcm.toNat) = none → exec (.remoteReply p) s = .next s) ∧
    (∀ t, s.tagOwner.find? (fun t => t.1 == p.tag && t.2.1 == p.srcm.toNat) = some t → ∃ v, exec (.remoteReply p) s = .next v ∧
      v.tagOwner = s.tagOwner.filter (fun x => x != t) ∧ v.mem = s.mem ∧ v.agenda = s.agenda) ∧
    -- gangs
    (∀ x, gangOf s g = some x →
      (x.st = .tentative → leads s x = true → exec (.gangReadyReceived g m) s =
        .next (gangTry (updGang s g (fun x => { x with readyFrom := x.readyFrom ||| BitVec.ofNat 64 (2 ^ m.toNat) })) g)) ∧
      (x.st = .tentative → leads s x = false →
        exec (.gangCommitReceived g) s = .next (updGang s g (fun x => { x with st := .confirmed })) ∧
        exec (.gangAbortReceived g m) s = .next (abortGang s x m.toNat) ∧
        (x.asked = none → gangLate s x 2 x.since = true → exec (.gangQueryTimeout g) s =
          .next (gangSend (updGang s g (fun x => { x with asked := some s.cycle })) (gangLeader x.mask) 3 g 0)) ∧
        (∀ t, x.asked = some t → gangLate s x 1 t = true → exec (.gangAnswerTimeout g) s =
          .next (abortGang (gangSend s (gangLeader x.mask) 2 g s.modid) x (gangLeader x.mask)))) ∧
      (x.st = .waiting → exec (.gangAbortReceived g m) s = .next (updGang s g (fun x => { x with decided := some false })) ∧
        exec (.gangQueryReceived g m) s = .next (updGang s g (fun x => { x with queries := x.queries ++ [m.toNat] }))) ∧
      (∀ d, x.decided = some d → x.st = .confirmed ∨ x.st = .aborted →
        exec (.gangQueryReceived g m) s = .next (gangSend s m.toNat (if d then 1 else 2) g x.lacked) ∧
        (x.decidedAt + 2 ^ 26 ≤ s.cycle → s.queues = [] → exec (.gangDecisionExpiry g) s = .next { s with gangs := s.gangs.filter (fun y => y.id != g) })) ∧
      (x.st = .tentative → leads s x = true → gangLate s x 1 x.since = true → exec (.gangLeaderTimeout g) s = .next (gangDecide s x false (gangLacks s x) true))) ∧
    (gangOf s g = none → exec (.gangCommitReceived g) s = .next s) ∧
    -- collectives
    (∀ c, collOf s cg.toNat seq.toNat = some c →
      (c.matched = false →
        (∀ posts : List (BitVec 64 × BitVec 64), c.mods.length ≤ posts.length + 1 →
          let s1 := updColl { s with slots := dropPosts c.blk.cg c.blk.seq s.slots [] } c (fun d => { d with matched := true })
          ((∃ q ∈ posts, postKey q.1 q.2 ≠ postKey (c.words.getD 0 0) (c.words.getD 3 0)) →
            exec (.collectiveMatch cg seq posts) s = .next (collFailHere s c 1 (collInvalid c))) ∧
          ((∀ q ∈ posts, postKey q.1 q.2 = postKey (c.words.getD 0 0) (c.words.getD 3 0)) →
            (c.blk.count = 0 → exec (.collectiveMatch cg seq posts) s = .next (collEnd s1 { c with matched := true } 0)) ∧
            (c.blk.count ≠ 0 → exec (.collectiveMatch cg seq posts) s = .next s1))) ∧
        (c.since + 2 ^ 26 ≤ s.cycle → exec (.collectiveMatchTimeout cg seq) s = .next (collFailHere s c 2 (collInvalid c)))) ∧
      (c.matched = true → b.toNat < c.buckets → b.toNat ∉ c.started →
        ∀ s1 s2 s3 l, bucketFired s c b.toNat = .ok true s1 → bucketDrain s1 c b.toNat = some s2 → ownPart s2 c b.toNat = .ok l s3 →
          exec (.collectiveBucketStart cg seq b) s =
            .next (updColl (pushPart s3 c b.toNat l) c (fun d => { d with started := insSorted b.toNat d.started }))) ∧
      (b.toNat ∈ c.started → b.toNat ∉ c.ended → ∀ xs s1, bucketWrite s c b.toNat xs = .ok () s1 →
        let c1 : Coll := { c with ended := insSorted b.toNat c.ended }
        exec (.collectiveBucketDone cg seq b xs) s = .next
          (if c1.ended.length = c.buckets then collEnd s1 c1 0 else updColl s1 c (fun d => { d with ended := insSorted b.toNat d.ended }))) ∧
      exec (.collectiveFailure cg seq 4 m) s =
        .next ((if (routeTo s m.toNat).isNone then collFailHere else collFailTold) s c 4 (linkDown c.blk.src m.toNat)) ∧
      exec (.collectiveFailure cg seq 2 m) s = .next (collFailTold s c 2 (collInvalid c)))
end

