-- ==== Sys2Proof/Laws/Memory.lean ====
section
/-! SUPPORT. Memory as bytes: every operation keeps the canonical form, a byte written reads back, and the others stay. -/

namespace Sys2Proof.Machine

-- The canonical form ---------------------------------------------------------------------------------------------------

/-- The canonical form as order and absence of zeros. -/
theorem Memory.wf_iff (m : List Host.Cell) :
    Memory.wf m = true ↔ m.Pairwise (fun c d => c.1 < d.1) ∧ ∀ c ∈ m, c.2 ≠ 0 := by
  induction m with
  | nil => simp [Memory.wf]
  | cons c r ih =>
    cases r with
    | nil => simp [Memory.wf]
    | cons d r =>
      simp only [Memory.wf, Bool.and_eq_true, bne_iff_ne, decide_eq_true_eq, ih, List.pairwise_cons, List.forall_mem_cons]
      constructor
      · rintro ⟨⟨hc, hlt⟩, ⟨hd, hr⟩, hz, hzr⟩
        exact ⟨⟨⟨hlt, fun a ha => Nat.lt_trans hlt (hd a ha)⟩, hd, hr⟩, hc, hz, hzr⟩
      · rintro ⟨⟨⟨hlt, -⟩, hd, hr⟩, hc, hz, hzr⟩
        exact ⟨⟨hc, hlt⟩, ⟨hd, hr⟩, hz, hzr⟩

@[simp] theorem Memory.wf_nil : Memory.wf [] = true := rfl

/-- Cells left out keep the form. -/
theorem Memory.wf_filter {m : List Host.Cell} (p : Host.Cell → Bool) (h : Memory.wf m = true) : Memory.wf (m.filter p) = true := by
  rw [Memory.wf_iff] at h ⊢
  exact ⟨h.1.filter p, fun c hc => h.2 c (List.mem_filter.mp hc).1⟩

/-- Cells that keep their address and do not become 0 keep the form. -/
theorem Memory.wf_filterMap {m : List Host.Cell} (f : Host.Cell → Option Host.Cell) (h : Memory.wf m = true)
    (hf : ∀ c d, f c = some d → c.2 ≠ 0 → d.1 = c.1 ∧ d.2 ≠ 0) : Memory.wf (m.filterMap f) = true := by
  rw [Memory.wf_iff] at h ⊢
  obtain ⟨hp, hz⟩ := h
  refine ⟨?_, fun d hd => ?_⟩
  · rw [List.pairwise_filterMap]
    refine (List.Pairwise.and_mem.mp hp).imp (fun {a b} hab d hd e he => ?_)
    rw [(hf a d hd (hz a hab.1)).1, (hf b e he (hz b hab.2.1)).1]; exact hab.2.2
  · obtain ⟨c, hc, hcd⟩ := List.mem_filterMap.mp hd
    exact (hf c d hcd (hz c hc)).2

/-- Three parts below, in and above a range. -/
theorem Memory.wf_parts {a b c : List Host.Cell} {lo hi : Nat} (ha : Memory.wf a = true) (hb : Memory.wf b = true) (hc : Memory.wf c = true)
    (hla : ∀ x ∈ a, x.1 < lo) (hlb : ∀ x ∈ b, lo ≤ x.1 ∧ x.1 < hi) (hlc : ∀ x ∈ c, hi ≤ x.1) (hle : lo ≤ hi) :
    Memory.wf (a ++ b ++ c) = true := by
  rw [Memory.wf_iff] at ha hb hc ⊢
  refine ⟨?_, fun x hx => ?_⟩
  · refine List.pairwise_append.mpr ⟨List.pairwise_append.mpr ⟨ha.1, hb.1, fun x hx y hy => ?_⟩, hc.1, fun x hx y hy => ?_⟩
    · have := hla x hx; have := hlb y hy; omega
    · have := hlc y hy
      rcases List.mem_append.mp hx with h | h
      · have := hla x h; omega
      · have := hlb x h; omega
  · rcases List.mem_append.mp hx with h | h
    · rcases List.mem_append.mp h with h | h
      · exact ha.2 x h
      · exact hb.2 x h
    · exact hc.2 x h

theorem cellsOf_bounds (a n v : Nat) : ∀ x ∈ cellsOf a n v, a ≤ x.1 ∧ x.1 < a + n := by
  induction n generalizing a v with
  | zero => intro x hx; simp [cellsOf] at hx
  | succ n ih =>
    intro x hx
    simp only [cellsOf] at hx
    split at hx
    · have := ih (a + 1) (v / 256) x hx; omega
    · rcases List.mem_cons.mp hx with h | h
      · subst h; exact ⟨Nat.le_refl a, Nat.lt_add_of_pos_right (Nat.succ_pos n)⟩
      · have := ih (a + 1) (v / 256) x h; omega

theorem cellsOf_wf (a n v : Nat) : Memory.wf (cellsOf a n v) = true := by
  induction n generalizing a v with
  | zero => rfl
  | succ n ih =>
    simp only [cellsOf]
    split
    · exact ih ..
    · next h =>
      rw [Memory.wf_iff]
      have hw := (Memory.wf_iff _).mp (ih (a + 1) (v / 256))
      refine ⟨List.pairwise_cons.mpr ⟨fun x hx => ?_, hw.1⟩, List.forall_mem_cons.mpr ⟨by simpa using h, hw.2⟩⟩
      have := cellsOf_bounds (a + 1) n (v / 256) x hx
      show a < x.1
      omega

/-- A write keeps the form. -/
theorem Memory.wf_write {m : List Host.Cell} (a n v : Nat) (h : Memory.wf m = true) : Memory.wf (Memory.write m a n v) = true := by
  refine Memory.wf_parts (lo := a) (hi := a + n) (Memory.wf_filter _ h) (cellsOf_wf a n v) (Memory.wf_filter _ h)
    (fun x hx => ?_) (cellsOf_bounds a n v) (fun x hx => ?_) (Nat.le_add_right a n)
  · simpa using (List.mem_filter.mp hx).2
  · simpa using (List.mem_filter.mp hx).2

/-- Cells moved from one range to another keep the form. -/
theorem Memory.wf_move {m : List Host.Cell} (src dst n : Nat) (h : Memory.wf m = true) :
    Memory.wf (m.filter (fun c => c.1 < dst) ++ (m.filter (fun c => src ≤ c.1 && c.1 < src + n)).map (fun c => (c.1 - src + dst, c.2)) ++
      m.filter (fun c => dst + n ≤ c.1)) = true := by
  have hp := (Memory.wf_iff _).mp (Memory.wf_filter (fun c : Host.Cell => src ≤ c.1 && c.1 < src + n) h)
  have hin : ∀ x ∈ m.filter (fun c => src ≤ c.1 && c.1 < src + n), src ≤ x.1 ∧ x.1 < src + n :=
    fun x hx => by simpa using (List.mem_filter.mp hx).2
  refine Memory.wf_parts (lo := dst) (hi := dst + n) (Memory.wf_filter _ h) ((Memory.wf_iff _).mpr ⟨?_, fun x hx => ?_⟩)
    (Memory.wf_filter _ h) (fun x hx => ?_) (fun x hx => ?_) (fun x hx => ?_) (Nat.le_add_right dst n)
  · rw [List.pairwise_map]
    refine (List.Pairwise.and_mem.mp hp.1).imp (fun {a b} hab => ?_)
    have := hin a hab.1; have := hab.2.2
    show a.1 - src + dst < b.1 - src + dst
    omega
  · obtain ⟨c, hc, rfl⟩ := List.mem_map.mp hx
    exact hp.2 c hc
  · simpa using (List.mem_filter.mp hx).2
  · obtain ⟨c, hc, rfl⟩ := List.mem_map.mp hx
    have := hin c hc
    show dst ≤ c.1 - src + dst ∧ c.1 - src + dst < dst + n
    omega
  · simpa using (List.mem_filter.mp hx).2

-- Reads after writes ---------------------------------------------------------------------------------------------------

theorem Memory.byte_append (m r : List Host.Cell) (a : Nat) (h : ∀ c ∈ m, c.1 ≠ a) : Memory.byte (m ++ r) a = Memory.byte r a := by
  induction m with
  | nil => rfl
  | cons c m ih =>
    have hc : (c.1 == a) = false := by simpa using h c (List.mem_cons_self ..)
    show (if c.1 == a then c.2 else Memory.byte (m ++ r) a) = _
    rw [hc]; exact ih (fun d hd => h d (List.mem_cons_of_mem _ hd))

theorem Memory.byte_none (m : List Host.Cell) (a : Nat) (h : ∀ c ∈ m, c.1 ≠ a) : Memory.byte m a = 0 := by
  have := Memory.byte_append m [] a h
  rwa [List.append_nil] at this

/-- Bytes above a part of memory are read behind it. -/
theorem Memory.byte_append_above (m r : List Host.Cell) (a : Nat) (h : ∀ c ∈ r, c.1 ≠ a) : Memory.byte (m ++ r) a = Memory.byte m a := by
  induction m with
  | nil => exact Memory.byte_none r a h
  | cons c m ih =>
    show (if c.1 == a then c.2 else Memory.byte (m ++ r) a) = if c.1 == a then c.2 else Memory.byte m a
    rw [ih]

theorem Memory.byte_filter (m : List Host.Cell) (p : Host.Cell → Bool) (a : Nat) (h : ∀ c ∈ m, c.1 = a → p c = true) :
    Memory.byte (m.filter p) a = Memory.byte m a := by
  induction m with
  | nil => rfl
  | cons c m ih =>
    have ih := ih (fun d hd => h d (List.mem_cons_of_mem _ hd))
    cases hc : (c.1 == a)
    · show _ = if c.1 == a then c.2 else Memory.byte m a
      rw [hc]
      cases hp : p c
      · rw [List.filter_cons_of_neg (by simp [hp])]; exact ih
      · rw [List.filter_cons_of_pos hp]
        show (if c.1 == a then c.2 else Memory.byte (m.filter p) a) = _
        rw [hc]; exact ih
    · have hp := h c (List.mem_cons_self ..) (by simpa using hc)
      rw [List.filter_cons_of_pos hp]
      show (if c.1 == a then c.2 else _) = if c.1 == a then c.2 else _
      rw [hc]; rfl

/-- R25: the bytes of a value lie little-endian. -/
theorem cellsOf_byte (a n v i : Nat) (h : i < n) : Memory.byte (cellsOf a n v) (a + i) = BitVec.ofNat 8 (v / 2 ^ (8 * i)) := by
  induction n generalizing a v i with
  | zero => omega
  | succ n ih =>
    have hd : ∀ k, v / 256 / 2 ^ (8 * k) = v / 2 ^ (8 * (k + 1)) := fun k => by
      rw [Nat.div_div_eq_div_mul, show 8 * (k + 1) = 8 + 8 * k by omega, Nat.pow_add]
    have hlow : ∀ c ∈ cellsOf (a + 1) n (v / 256), c.1 ≠ a := fun c hc => by
      have := cellsOf_bounds (a + 1) n (v / 256) c hc; omega
    simp only [cellsOf]
    cases i with
    | zero =>
      split
      · next hz =>
        show Memory.byte (cellsOf (a + 1) n (v / 256)) a = _
        rw [Memory.byte_none _ _ hlow]
        simpa using (beq_iff_eq.mp hz).symm
      · show (if a == a + 0 then _ else _) = _
        simp
    | succ i =>
      have := ih (a + 1) (v / 256) i (by omega)
      rw [hd, show a + 1 + i = a + (i + 1) by omega] at this
      split
      · exact this
      · show (if a == a + (i + 1) then _ else _) = _
        rw [if_neg (by simp)]; exact this

/-- A byte that a write stores reads back. -/
theorem Memory.byte_write_self (m : List Host.Cell) (a n v i : Nat) (h : i < n) :
    Memory.byte (Memory.write m a n v) (a + i) = BitVec.ofNat 8 (v / 2 ^ (8 * i)) := by
  unfold Memory.write
  rw [Memory.byte_append_above, Memory.byte_append, cellsOf_byte a n v i h]
  · intro c hc
    have := (List.mem_filter.mp hc).2
    simp at this; omega
  · intro c hc
    have := (List.mem_filter.mp hc).2
    simp at this; omega

/-- A byte outside a write stays. -/
theorem Memory.byte_write_other (m : List Host.Cell) (a n v b : Nat) (h : b < a ∨ a + n ≤ b) :
    Memory.byte (Memory.write m a n v) b = Memory.byte m b := by
  have hmid : ∀ c ∈ cellsOf a n v, c.1 ≠ b := fun c hc => by
    have := cellsOf_bounds a n v c hc; omega
  unfold Memory.write
  rcases h with h | h
  · rw [Memory.byte_append_above, Memory.byte_append_above _ _ _ hmid, Memory.byte_filter]
    · intro c _ hc; simpa [hc] using h
    · intro c hc
      have := (List.mem_filter.mp hc).2
      simp at this; omega
  · rw [List.append_assoc, Memory.byte_append, Memory.byte_append _ _ _ hmid, Memory.byte_filter]
    · intro c _ hc; simpa [hc] using h
    · intro c hc
      have := (List.mem_filter.mp hc).2
      simp at this; omega

-- The operations on the memory of the module -----------------------------------------------------------------------------

theorem reset_canonical : Canonical State.reset := rfl

@[simp] theorem touchRow_mem (s : State) (line : Nat) : (touchRow s line).mem = s.mem := by
  unfold touchRow; split <;> rfl

theorem rawWrite_canonical {s : State} (line : Nat) (mask : BitVec 128) (data : BitVec 1024) (h : Canonical s) :
    Canonical (rawWrite s line mask data) := by
  unfold rawWrite
  dsimp only
  split
  · split
    · exact h
    · simpa [Canonical] using h
  · exact Memory.wf_write _ _ _ h

@[simp] theorem defLine_mem (s : State) (line : Nat) : (defLine s line).mem = s.mem := by
  unfold defLine; split <;> rfl

@[simp] theorem touchRange_mem (s : State) (pa n : Nat) : (touchRange s pa n).mem = s.mem := by
  unfold touchRange
  split
  · rfl
  · generalize List.range (n / 128) = l
    induction l generalizing s with
    | nil => rfl
    | cons i l ih => rw [List.foldl_cons, ih, touchRow_mem]

theorem settleLine_canonical {s : State} (line : Nat) (h : Canonical s) : Canonical (settleLine s line) := by
  unfold settleLine
  split
  · exact Memory.wf_write _ _ _ h
  · exact h

theorem settleLines_canonical (pa : Nat) (l : List Nat) {s : State} (h : Canonical s) :
    Canonical (l.foldl (fun s i => settleLine s (pa + i)) s) := by
  induction l generalizing s with
  | nil => exact h
  | cons i l ih => exact ih (settleLine_canonical _ h)

theorem settleFreed_canonical {s : State} (pa n : Nat) (h : Canonical s) : Canonical (settleFreed s pa n) := by
  unfold settleFreed
  split
  · exact settleLines_canonical _ _ h
  · exact h

theorem copyPage_canonical {s : State} (src dst n : Nat) (h : Canonical s) : Canonical (copyPage s src dst n) := by
  have h2 := settleFreed_canonical dst n (settleFreed_canonical src n h)
  unfold copyPage
  split
  · exact h
  · refine Memory.wf_move src dst n ?_
    rw [touchRange_mem, touchRange_mem]
    exact h2

theorem dropBytes_canonical {s : State} (lo n : Nat) (h : Canonical s) : Canonical (dropBytes s lo n) := Memory.wf_filter _ h

theorem ftcLeave_canonical {s : State} (lo hi lo' hi' : Nat) (h : Canonical s) : Canonical (ftcLeave s lo hi lo' hi') := by
  exact Memory.wf_filter _ h

theorem withFetchWord_canonical {s : State} (nbits w : Nat) (h : Canonical s) : Canonical (s.withFetchWord nbits w) :=
  Memory.wf_write _ _ _ h

end Sys2Proof.Machine
end

