-- ==== Sys2Proof/Laws/Ops.lean ====
section
/-! SUPPORT. What each shared operation of an instruction can do, said once: where it completes, faults or waits. -/

namespace Sys2Proof.Machine

-- Accesses in sequence -------------------------------------------------------------------------------------------------

@[simp] theorem Acc.bind_ok {α β : Type} (a : α) (s : State) (f : α → State → Acc β) : (Acc.ok a s).bind f = f a s := rfl
@[simp] theorem Acc.bind_fault {α β : Type} (e : Exc) (s : State) (f : α → State → Acc β) : (Acc.fault e s : Acc α).bind f = .fault e s := rfl
@[simp] theorem Acc.bind_wait {α β : Type} (s : State) (f : α → State → Acc β) : (Acc.wait s : Acc α).bind f = .wait s := rfl
@[simp] theorem Acc.guard_true (e : Exc) (s : State) : Acc.guard true e s = .fault e s := rfl
@[simp] theorem Acc.guard_false (e : Exc) (s : State) : Acc.guard false e s = .ok () s := rfl

/-- A sequence answers a value exactly where both parts do. -/
theorem Acc.bind_eq_ok {α β : Type} {x : Acc α} {f : α → State → Acc β} {b : β} {t : State} :
    x.bind f = .ok b t ↔ ∃ a s, x = .ok a s ∧ f a s = .ok b t := by
  cases x with
  | ok a s => exact ⟨fun h => ⟨a, s, rfl, h⟩, fun ⟨_, _, h, hf⟩ => by cases h; exact hf⟩
  | fault e s => exact ⟨fun h => (nomatch h), fun ⟨_, _, h, _⟩ => (nomatch h)⟩
  | wait s => exact ⟨fun h => (nomatch h), fun ⟨_, _, h, _⟩ => (nomatch h)⟩

/-- The check of an alignment that holds. -/
theorem alignedTo_ok {s : State} {va n : Nat} (h : va % n = 0) : alignedTo s va n = .ok () s := by simp [alignedTo, h]
/-- The check of an alignment that fails. -/
theorem alignedTo_fault {s : State} {va n : Nat} (h : va % n ≠ 0) : alignedTo s va n = .fault (exc cALIGN va) s := by
  simp [alignedTo, bne_iff_ne.mpr h]

-- A group in focus -----------------------------------------------------------------------------------------------------

theorem noGroup_false {s : State} (h : Placed s) : noGroup s = false := by
  unfold Placed at h; unfold noGroup; cases hs : s.grp.st <;> simp_all

theorem sAlu_next {s : State} (h : Placed s) (d : BitVec 5) (v : W64) : sAlu s d v = .next ((s.setX d v).advance 0) := by
  simp [sAlu, noGroup_false h]

theorem sDo_ok {s t : State} {body : State → Acc Unit} (h : Placed s) (hb : body s = .ok () t) : sDo s body = .next (clearRemote t 0) := by
  simp [sDo, noGroup_false h, hb]
theorem sDo_fault {s t : State} {e : Exc} {body : State → Acc Unit} (h : Placed s) (hb : body s = .fault e t) :
    sDo s body = .next (raise t 0 e none) := by
  simp [sDo, noGroup_false h, hb]
theorem sDo_wait {s t : State} {body : State → Acc Unit} (h : Placed s) (hb : body s = .wait t) : sDo s body = .next (t.block 0) := by
  simp [sDo, noGroup_false h, hb]
/-- Whatever its checks find, a scalar instruction of a placed group answers a next state. -/
theorem sDo_runs {s : State} (body : State → Acc Unit) (h : Placed s) : Runs (sDo s body) := by
  unfold Runs sDo; rw [noGroup_false h]
  cases body s <;> simp

theorem sDoIf_true {s : State} {legal : Bool} (body : State → Acc Unit) (h : Placed s) (hl : legal = true) : sDoIf s legal body = sDo s body := by
  simp [sDoIf, noGroup_false h, hl]
theorem sDoIf_false {s : State} {legal : Bool} (body : State → Acc Unit) (h : Placed s) (hl : legal = false) :
    sDoIf s legal body = .next (illegal s 0) := by
  simp [sDoIf, noGroup_false h, hl]

/-- A reduction-ordering instruction goes on where no reduction is pending (R148). -/
theorem redGate_quiet {s : State} {sc : Nat} (body : State → Out) (h : Placed s) (hq : RedQuiet s sc) : redGate s sc body = body s := by
  simp only [redGate, noGroup_false h, hq.1, hq.2]; rfl
/-- It waits where one is pending. -/
theorem redGate_pending {s : State} {sc : Nat} (body : State → Out) (h : Placed s) (hp : redPending s s.grp.handle sc = true) :
    redGate s sc body = .next (s.block 0) := by
  simp [redGate, noGroup_false h, hp]

-- Matrix and copy instructions -----------------------------------------------------------------------------------------

theorem tDo_ok {s t : State} {st : Nat} {p q : BitVec 3} {body : State → Acc Unit} (h : Placed s) (ht : TokOpen s st p q)
    (hb : body s = .ok () t) : tDo s st p q body = .next (tDone t st p q) := by
  unfold TokOpen at ht; simp [tDo, noGroup_false h, ht, hb, tDone]
theorem tDo_fault {s t : State} {e : Exc} {st : Nat} {p q : BitVec 3} {body : State → Acc Unit} (h : Placed s) (ht : TokOpen s st p q)
    (hb : body s = .fault e t) : tDo s st p q body = .next (raise t st e none) := by
  unfold TokOpen at ht; simp [tDo, noGroup_false h, ht, hb]
theorem tDo_wait {s t : State} {st : Nat} {p q : BitVec 3} {body : State → Acc Unit} (h : Placed s) (ht : TokOpen s st p q)
    (hb : body s = .wait t) : tDo s st p q body = .next (t.block st) := by
  unfold TokOpen at ht; simp [tDo, noGroup_false h, ht, hb]
theorem tDoIf_true {s : State} {st : Nat} {legal : Bool} {p q : BitVec 3} (body : State → Acc Unit) (h : Placed s) (hl : legal = true) :
    tDoIf s st legal p q body = tDo s st p q body := by
  simp [tDoIf, noGroup_false h, hl]
theorem tDoIf_false {s : State} {st : Nat} {legal : Bool} {p q : BitVec 3} (body : State → Acc Unit) (h : Placed s) (hl : legal = false) :
    tDoIf s st legal p q body = .next (illegal s st) := by
  simp [tDoIf, noGroup_false h, hl]

-- Vector instructions --------------------------------------------------------------------------------------------------

theorem vExec_open {s : State} {p q : BitVec 3} {names : List Nat} {lam : Nat} (body : Group → VRes) (h : Placed s)
    (hv : VOpen s p q names false true) : vExec s p q names lam body = .next (vMade s p q lam (body (retireDue s).grp)) := by
  unfold VOpen at hv; simp [vExec, noGroup_false h, hv, vMade]
theorem vExecIf_true {s : State} {legal : Bool} {p q : BitVec 3} {names : List Nat} {lam : Nat} (body : Group → VRes) (h : Placed s)
    (hl : legal = true) : vExecIf s legal p q names lam body = vExec s p q names lam body := by
  simp [vExecIf, noGroup_false h, hl]
theorem vExecIf_false {s : State} {legal : Bool} {p q : BitVec 3} {names : List Nat} {lam : Nat} (body : Group → VRes) (h : Placed s)
    (hl : legal = false) : vExecIf s legal p q names lam body = .next (illegal s 1) := by
  simp [vExecIf, noGroup_false h, hl]
theorem vDo_ok {s t : State} {p q : BitVec 3} {names : List Nat} {mem : Bool} {body : State → Acc Unit} (h : Placed s)
    (hv : VOpen s p q names mem false) (hb : body (retireDue s) = .ok () t) : vDo s p q names mem body = .next (vDone t p q) := by
  unfold VOpen at hv; simp [vDo, noGroup_false h, hv, hb, vDone]
theorem vDo_fault {s t : State} {e : Exc} {p q : BitVec 3} {names : List Nat} {mem : Bool} {body : State → Acc Unit} (h : Placed s)
    (hv : VOpen s p q names mem false) (hb : body (retireDue s) = .fault e t) :
    vDo s p q names mem body = .next (raise t 1 e none) := by
  unfold VOpen at hv; simp [vDo, noGroup_false h, hv, hb]
theorem vDoIf_true {s : State} {legal : Bool} {p q : BitVec 3} {names : List Nat} {mem : Bool} (body : State → Acc Unit) (h : Placed s)
    (hl : legal = true) : vDoIf s legal p q names mem body = vDo s p q names mem body := by
  simp [vDoIf, noGroup_false h, hl]
theorem vDoIf_false {s : State} {legal : Bool} {p q : BitVec 3} {names : List Nat} {mem : Bool} (body : State → Acc Unit) (h : Placed s)
    (hl : legal = false) : vDoIf s legal p q names mem body = .next (illegal s 1) := by
  simp [vDoIf, noGroup_false h, hl]

-- An instruction that keeps what it has read, and the matrix stream -------------------------------------------------------

/-- A vector instruction that issues with its gate open reads its sources there (R158). -/
theorem vHeld_fresh {s : State} {p q : BitVec 3} {names : List Nat} (cap : Group → VSrc) (body : VSrc → State → Acc Unit) (h : Placed s)
    (ho : VOpen s p q names true false) (hn : (retireDue s).grp.vsrc = none) :
    vHeld s p q names cap body = match body (cap (retireDue s).grp) (retireDue s) with
      | .ok _ t => .next (vDone (t.updGrp (fun g => { g with vsrc := none })) p q)
      | .fault e t => .next (raise (t.updGrp (fun g => { g with vsrc := none })) 1 e none)
      | .wait t => .next (vWait (t.updGrp (fun g => { g with vsrc := some (cap (retireDue s).grp) }))) := by
  unfold VOpen at ho
  simp only [vHeld, noGroup_false h, hn, ho, Acc.bind_ok, vDone]
  rfl
/-- One that waits goes on with what it has read. -/
theorem vHeld_goes {s : State} {p q : BitVec 3} {names : List Nat} {x : VSrc} (cap : Group → VSrc) (body : VSrc → State → Acc Unit) (h : Placed s)
    (hx : (retireDue s).grp.vsrc = some x) :
    vHeld s p q names cap body = match body x (retireDue s) with
      | .ok _ t => .next (vDone (t.updGrp (fun g => { g with vsrc := none })) p q)
      | .fault e t => .next (raise (t.updGrp (fun g => { g with vsrc := none })) 1 e none)
      | .wait t => .next (vWait (t.updGrp (fun g => { g with vsrc := some x }))) := by
  simp only [vHeld, noGroup_false h, hx, vDone]
  rfl

theorem mDo_issues {s : State} {p q : BitVec 3} (body : State → Acc Unit) (h : Placed s) (hb : tileBars s = false) :
    mDo s true p q body = tDo s 2 p q body := by simp [mDo, noGroup_false h, hb]
theorem mDo_waits {s : State} {p q : BitVec 3} (body : State → Acc Unit) (h : Placed s) (hb : tileBars s = true) :
    mDo s true p q body = .next (s.block 2) := by simp [mDo, noGroup_false h, hb]
theorem mDo_false {s : State} {legal : Bool} {p q : BitVec 3} (body : State → Acc Unit) (h : Placed s) (hl : legal = false) :
    mDo s legal p q body = .next (illegal s 2) := by simp [mDo, noGroup_false h, hl]
theorem mAlone_issues {s : State} {p q : BitVec 3} (body : State → Acc Unit) (h : Placed s) (hb : tileBusy s = false) :
    mAlone s true p q body = tDo s 2 p q body := by simp [mAlone, noGroup_false h, hb]
theorem mAlone_waits {s : State} {p q : BitVec 3} (body : State → Acc Unit) (h : Placed s) (hb : tileBusy s = true) :
    mAlone s true p q body = .next (s.block 2) := by simp [mAlone, noGroup_false h, hb]
theorem mAlone_false {s : State} {legal : Bool} {p q : BitVec 3} (body : State → Acc Unit) (h : Placed s) (hl : legal = false) :
    mAlone s legal p q body = .next (illegal s 2) := by simp [mAlone, noGroup_false h, hl]
/-- A command that bars every later matrix instruction has not completed. -/
theorem tileBars_false {s : State} (h : tileBusy s = false) : tileBars s = false := by
  unfold tileBusy at h; unfold tileBars
  cases hc : s.grp.mcmd <;> simp_all

-- The slot of an engine ------------------------------------------------------------------------------------------------

theorem thenSlot_unissued {s t : State} {n : Nat} (h : unissued s n t = true) : thenSlot s n (.next t) = .next t := by simp [thenSlot, h]
theorem thenSlot_taken {s t : State} {n : Nat} (h : unissued s n t = false) (hs : (s.core s.grp.core).slots.getD n 0 = s.cycle + 1) :
    thenSlot s n (.next t) = .next s := by
  simp only [thenSlot, h, hs, beq_self_eq_true, Bool.false_eq_true, if_true, if_false]
theorem thenSlot_free {s t : State} {n : Nat} (h : unissued s n t = false) (hs : (s.core s.grp.core).slots.getD n 0 ≠ s.cycle + 1) :
    thenSlot s n (.next t) = .next (t.updCore s.grp.core (fun c => { c with slots := updAt c.slots n (fun _ => s.cycle + 1) })) := by
  have e : ((s.core s.grp.core).slots.getD n 0 == s.cycle + 1) = false := by simpa only [beq_eq_false_iff_ne] using hs
  simp only [thenSlot, h, e, Bool.false_eq_true, if_false]
/-- An issue that answers a next state still does so once its slot is looked at. -/
theorem thenSlot_runs {s : State} {n : Nat} {o : Out} (h : Runs o) : Runs (thenSlot s n o) := by
  obtain ⟨t, rfl⟩ := h
  exact ⟨_, rfl⟩

-- The stride update of a vector register ---------------------------------------------------------------------------------

@[simp] theorem vecStride_mem (s : State) (r : Nat) (d : W32) : (vecStride s r d).mem = s.mem := rfl
@[simp] theorem vecStride_vregs (s : State) (r : Nat) (d : W32) : (vecStride s r d).grp.vregs = s.grp.vregs := rfl
@[simp] theorem vecStride_vcyc (s : State) (r : Nat) (d : W32) : (vecStride s r d).grp.vcyc = s.grp.vcyc + 1 := rfl
@[simp] theorem vecStride_others (s : State) (r : Nat) (d : W32) : (vecStride s r d).others = s.others := rfl

end Sys2Proof.Machine
end

