-- ==== Sys2Proof/Laws/PerInstr.lean ====
section
/-! SUPPORT. The family `Encode`, one lemma per constructor of `Instr`: where an instruction has a word (R37), the sum of its row's fixed
bits and of its fields at their places stays below 2^32, so that no field of it reaches above the word; a step of the device has no word. -/

namespace Sys2Proof.Laws

open Sys2Proof

/-- A field of `n` bits at its place ends below bit `lo + n`. -/
theorem put_le {n : Nat} (x : BitVec n) (lo : Nat) : put x lo ≤ (2 ^ n - 1) * 2 ^ lo :=
  Nat.mul_le_mul_right _ (Nat.le_sub_one_of_lt x.isLt)

/-- The word of an instruction has 32 bits. -/
def Encode.Statement (i : Instr) : Prop := ∀ w, encNat i = some w → w < 2 ^ 32

theorem Encode.of_none {i : Instr} (h : encNat i = none) : Encode.Statement i := fun w hw => by rw [h] at hw; cases hw
theorem Encode.of_some {i : Instr} {v : Nat} (h : encNat i = some v) (hv : v < 2 ^ 32) : Encode.Statement i :=
  fun w hw => by rw [h] at hw; cases hw; exact hv

theorem Encode.add (d a b : BitVec 5) : Encode.Statement (.add d a b) := Encode.of_some rfl <| by
  have := put_le d 20; have := put_le a 15; have := put_le b 10; omega
theorem Encode.sub (d a b : BitVec 5) : Encode.Statement (.sub d a b) := Encode.of_some rfl <| by
  have := put_le d 20; have := put_le a 15; have := put_le b 10; omega
theorem Encode.and (d a b : BitVec 5) : Encode.Statement (.and d a b) := Encode.of_some rfl <| by
  have := put_le d 20; have := put_le a 15; have := put_le b 10; omega
theorem Encode.or (d a b : BitVec 5) : Encode.Statement (.or d a b) := Encode.of_some rfl <| by
  have := put_le d 20; have := put_le a 15; have := put_le b 10; omega
theorem Encode.xor (d a b : BitVec 5) : Encode.Statement (.xor d a b) := Encode.of_some rfl <| by
  have := put_le d 20; have := put_le a 15; have := put_le b 10; omega
theorem Encode.andn (d a b : BitVec 5) : Encode.Statement (.andn d a b) := Encode.of_some rfl <| by
  have := put_le d 20; have := put_le a 15; have := put_le b 10; omega
theorem Encode.shl (d a b : BitVec 5) : Encode.Statement (.shl d a b) := Encode.of_some rfl <| by
  have := put_le d 20; have := put_le a 15; have := put_le b 10; omega
theorem Encode.shrN (d a b : BitVec 5) : Encode.Statement (.shrN d a b) := Encode.of_some rfl <| by
  have := put_le d 20; have := put_le a 15; have := put_le b 10; omega
theorem Encode.shrI (d a b : BitVec 5) : Encode.Statement (.shrI d a b) := Encode.of_some rfl <| by
  have := put_le d 20; have := put_le a 15; have := put_le b 10; omega
theorem Encode.cmpltI (d a b : BitVec 5) : Encode.Statement (.cmpltI d a b) := Encode.of_some rfl <| by
  have := put_le d 20; have := put_le a 15; have := put_le b 10; omega
theorem Encode.cmpltN (d a b : BitVec 5) : Encode.Statement (.cmpltN d a b) := Encode.of_some rfl <| by
  have := put_le d 20; have := put_le a 15; have := put_le b 10; omega
theorem Encode.minI (d a b : BitVec 5) : Encode.Statement (.minI d a b) := Encode.of_some rfl <| by
  have := put_le d 20; have := put_le a 15; have := put_le b 10; omega
theorem Encode.maxI (d a b : BitVec 5) : Encode.Statement (.maxI d a b) := Encode.of_some rfl <| by
  have := put_le d 20; have := put_le a 15; have := put_le b 10; omega
theorem Encode.minN (d a b : BitVec 5) : Encode.Statement (.minN d a b) := Encode.of_some rfl <| by
  have := put_le d 20; have := put_le a 15; have := put_le b 10; omega
theorem Encode.maxN (d a b : BitVec 5) : Encode.Statement (.maxN d a b) := Encode.of_some rfl <| by
  have := put_le d 20; have := put_le a 15; have := put_le b 10; omega
theorem Encode.mul (d a b : BitVec 5) : Encode.Statement (.mul d a b) := Encode.of_some rfl <| by
  have := put_le d 20; have := put_le a 15; have := put_le b 10; omega
theorem Encode.mulhiI (d a b : BitVec 5) : Encode.Statement (.mulhiI d a b) := Encode.of_some rfl <| by
  have := put_le d 20; have := put_le a 15; have := put_le b 10; omega
theorem Encode.mulhiN (d a b : BitVec 5) : Encode.Statement (.mulhiN d a b) := Encode.of_some rfl <| by
  have := put_le d 20; have := put_le a 15; have := put_le b 10; omega
theorem Encode.quoI (d a b : BitVec 5) : Encode.Statement (.quoI d a b) := Encode.of_some rfl <| by
  have := put_le d 20; have := put_le a 15; have := put_le b 10; omega
theorem Encode.quoN (d a b : BitVec 5) : Encode.Statement (.quoN d a b) := Encode.of_some rfl <| by
  have := put_le d 20; have := put_le a 15; have := put_le b 10; omega
theorem Encode.rmdI (d a b : BitVec 5) : Encode.Statement (.rmdI d a b) := Encode.of_some rfl <| by
  have := put_le d 20; have := put_le a 15; have := put_le b 10; omega
theorem Encode.rmdN (d a b : BitVec 5) : Encode.Statement (.rmdN d a b) := Encode.of_some rfl <| by
  have := put_le d 20; have := put_le a 15; have := put_le b 10; omega
theorem Encode.sel (d a b c : BitVec 5) : Encode.Statement (.sel d a b c) := Encode.of_some rfl <| by
  have := put_le d 20; have := put_le a 15; have := put_le b 10; have := put_le c 5; omega
theorem Encode.clz (d a : BitVec 5) : Encode.Statement (.clz d a) := Encode.of_some rfl <| by
  have := put_le d 20; have := put_le a 15; omega
theorem Encode.ctz (d a : BitVec 5) : Encode.Statement (.ctz d a) := Encode.of_some rfl <| by
  have := put_le d 20; have := put_le a 15; omega
theorem Encode.popc (d a : BitVec 5) : Encode.Statement (.popc d a) := Encode.of_some rfl <| by
  have := put_le d 20; have := put_le a 15; omega
theorem Encode.bswap (d a : BitVec 5) : Encode.Statement (.bswap d a) := Encode.of_some rfl <| by
  have := put_le d 20; have := put_le a 15; omega
theorem Encode.addi (d a : BitVec 5) (i : BitVec 15) : Encode.Statement (.addi d a i) := Encode.of_some rfl <| by
  have := put_le d 20; have := put_le a 15; have := put_le i 0; omega
theorem Encode.andi (d a : BitVec 5) (i : BitVec 15) : Encode.Statement (.andi d a i) := Encode.of_some rfl <| by
  have := put_le d 20; have := put_le a 15; have := put_le i 0; omega
theorem Encode.ori (d a : BitVec 5) (i : BitVec 15) : Encode.Statement (.ori d a i) := Encode.of_some rfl <| by
  have := put_le d 20; have := put_le a 15; have := put_le i 0; omega
theorem Encode.xori (d a : BitVec 5) (i : BitVec 15) : Encode.Statement (.xori d a i) := Encode.of_some rfl <| by
  have := put_le d 20; have := put_le a 15; have := put_le i 0; omega
theorem Encode.cmpltiI (d a : BitVec 5) (i : BitVec 15) : Encode.Statement (.cmpltiI d a i) := Encode.of_some rfl <| by
  have := put_le d 20; have := put_le a 15; have := put_le i 0; omega
theorem Encode.cmpltiN (d a : BitVec 5) (i : BitVec 15) : Encode.Statement (.cmpltiN d a i) := Encode.of_some rfl <| by
  have := put_le d 20; have := put_le a 15; have := put_le i 0; omega
theorem Encode.shli (d a : BitVec 5) (s : BitVec 6) : Encode.Statement (.shli d a s) := Encode.of_some rfl <| by
  have := put_le d 20; have := put_le a 15; have := put_le s 0; omega
theorem Encode.shriN (d a : BitVec 5) (s : BitVec 6) : Encode.Statement (.shriN d a s) := Encode.of_some rfl <| by
  have := put_le d 20; have := put_le a 15; have := put_le s 0; omega
theorem Encode.shriI (d a : BitVec 5) (s : BitVec 6) : Encode.Statement (.shriI d a s) := Encode.of_some rfl <| by
  have := put_le d 20; have := put_le a 15; have := put_le s 0; omega
theorem Encode.immLo (d : BitVec 5) (i : BitVec 20) : Encode.Statement (.immLo d i) := Encode.of_some rfl <| by
  have := put_le d 20; have := put_le i 0; omega
theorem Encode.immCat (d : BitVec 5) (i : BitVec 20) : Encode.Statement (.immCat d i) := Encode.of_some rfl <| by
  have := put_le d 20; have := put_le i 0; omega
theorem Encode.pcadd (d : BitVec 5) (i : BitVec 20) : Encode.Statement (.pcadd d i) := Encode.of_some rfl <| by
  have := put_le d 20; have := put_le i 0; omega
theorem Encode.nop : Encode.Statement (.nop) := Encode.of_some rfl <| by decide
theorem Encode.beq (a b : BitVec 5) (o : BitVec 15) : Encode.Statement (.beq a b o) := Encode.of_some rfl <| by
  have := put_le a 20; have := put_le b 15; have := put_le o 0; omega
theorem Encode.bne (a b : BitVec 5) (o : BitVec 15) : Encode.Statement (.bne a b o) := Encode.of_some rfl <| by
  have := put_le a 20; have := put_le b 15; have := put_le o 0; omega
theorem Encode.bltI (a b : BitVec 5) (o : BitVec 15) : Encode.Statement (.bltI a b o) := Encode.of_some rfl <| by
  have := put_le a 20; have := put_le b 15; have := put_le o 0; omega
theorem Encode.bgeI (a b : BitVec 5) (o : BitVec 15) : Encode.Statement (.bgeI a b o) := Encode.of_some rfl <| by
  have := put_le a 20; have := put_le b 15; have := put_le o 0; omega
theorem Encode.bltN (a b : BitVec 5) (o : BitVec 15) : Encode.Statement (.bltN a b o) := Encode.of_some rfl <| by
  have := put_le a 20; have := put_le b 15; have := put_le o 0; omega
theorem Encode.bgeN (a b : BitVec 5) (o : BitVec 15) : Encode.Statement (.bgeN a b o) := Encode.of_some rfl <| by
  have := put_le a 20; have := put_le b 15; have := put_le o 0; omega
theorem Encode.jmp (d : BitVec 5) (o : BitVec 20) : Encode.Statement (.jmp d o) := Encode.of_some rfl <| by
  have := put_le d 20; have := put_le o 0; omega
theorem Encode.jmpr (d a : BitVec 5) (i : BitVec 15) : Encode.Statement (.jmpr d a i) := Encode.of_some rfl <| by
  have := put_le d 20; have := put_le a 15; have := put_le i 0; omega
theorem Encode.ldI8 (d a : BitVec 5) (i : BitVec 12) : Encode.Statement (.ldI8 d a i) := Encode.of_some rfl <| by
  have := put_le d 20; have := put_le a 15; have := put_le i 0; omega
theorem Encode.ldN8 (d a : BitVec 5) (i : BitVec 12) : Encode.Statement (.ldN8 d a i) := Encode.of_some rfl <| by
  have := put_le d 20; have := put_le a 15; have := put_le i 0; omega
theorem Encode.ldI16 (d a : BitVec 5) (i : BitVec 12) : Encode.Statement (.ldI16 d a i) := Encode.of_some rfl <| by
  have := put_le d 20; have := put_le a 15; have := put_le i 0; omega
theorem Encode.ldN16 (d a : BitVec 5) (i : BitVec 12) : Encode.Statement (.ldN16 d a i) := Encode.of_some rfl <| by
  have := put_le d 20; have := put_le a 15; have := put_le i 0; omega
theorem Encode.ldI32 (d a : BitVec 5) (i : BitVec 12) : Encode.Statement (.ldI32 d a i) := Encode.of_some rfl <| by
  have := put_le d 20; have := put_le a 15; have := put_le i 0; omega
theorem Encode.ldN32 (d a : BitVec 5) (i : BitVec 12) : Encode.Statement (.ldN32 d a i) := Encode.of_some rfl <| by
  have := put_le d 20; have := put_le a 15; have := put_le i 0; omega
theorem Encode.ldI64 (d a : BitVec 5) (i : BitVec 12) : Encode.Statement (.ldI64 d a i) := Encode.of_some rfl <| by
  have := put_le d 20; have := put_le a 15; have := put_le i 0; omega
theorem Encode.stI8 (d a : BitVec 5) (i : BitVec 12) : Encode.Statement (.stI8 d a i) := Encode.of_some rfl <| by
  have := put_le d 20; have := put_le a 15; have := put_le i 0; omega
theorem Encode.stI16 (d a : BitVec 5) (i : BitVec 12) : Encode.Statement (.stI16 d a i) := Encode.of_some rfl <| by
  have := put_le d 20; have := put_le a 15; have := put_le i 0; omega
theorem Encode.stI32 (d a : BitVec 5) (i : BitVec 12) : Encode.Statement (.stI32 d a i) := Encode.of_some rfl <| by
  have := put_le d 20; have := put_le a 15; have := put_le i 0; omega
theorem Encode.stI64 (d a : BitVec 5) (i : BitVec 12) : Encode.Statement (.stI64 d a i) := Encode.of_some rfl <| by
  have := put_le d 20; have := put_le a 15; have := put_le i 0; omega
theorem Encode.ldlI32 (d a : BitVec 5) (i : BitVec 12) : Encode.Statement (.ldlI32 d a i) := Encode.of_some rfl <| by
  have := put_le d 20; have := put_le a 15; have := put_le i 0; omega
theorem Encode.ldlI64 (d a : BitVec 5) (i : BitVec 12) : Encode.Statement (.ldlI64 d a i) := Encode.of_some rfl <| by
  have := put_le d 20; have := put_le a 15; have := put_le i 0; omega
theorem Encode.stlI32 (d a : BitVec 5) (i : BitVec 12) : Encode.Statement (.stlI32 d a i) := Encode.of_some rfl <| by
  have := put_le d 20; have := put_le a 15; have := put_le i 0; omega
theorem Encode.stlI64 (d a : BitVec 5) (i : BitVec 12) : Encode.Statement (.stlI64 d a i) := Encode.of_some rfl <| by
  have := put_le d 20; have := put_le a 15; have := put_le i 0; omega
theorem Encode.ldAcq (d a : BitVec 5) (s : BitVec 3) (i : BitVec 12) : Encode.Statement (.ldAcq d a s i) := Encode.of_some rfl <| by
  have := put_le d 20; have := put_le a 15; have := put_le s 12; have := put_le i 0; omega
theorem Encode.stRel (d a : BitVec 5) (s : BitVec 3) (i : BitVec 12) : Encode.Statement (.stRel d a s i) := Encode.of_some rfl <| by
  have := put_le d 20; have := put_le a 15; have := put_le s 12; have := put_le i 0; omega
theorem Encode.ldAcqp (d a : BitVec 5) (s : BitVec 3) (b : BitVec 5) : Encode.Statement (.ldAcqp d a s b) := Encode.of_some rfl <| by
  have := put_le d 20; have := put_le a 15; have := put_le s 12; have := put_le b 7; omega
theorem Encode.fence (s : BitVec 3) : Encode.Statement (.fence s) := Encode.of_some rfl <| by
  have := put_le s 12; omega
theorem Encode.fenceRel (s : BitVec 3) : Encode.Statement (.fenceRel s) := Encode.of_some rfl <| by
  have := put_le s 12; omega
theorem Encode.fenceAcq (s : BitVec 3) : Encode.Statement (.fenceAcq s) := Encode.of_some rfl <| by
  have := put_le s 12; omega
theorem Encode.atom (d a : BitVec 5) (s : BitVec 3) (b : BitVec 5) (o : BitVec 4) (t : BitVec 3) : Encode.Statement (.atom d a s b o t) := Encode.of_some rfl <| by
  have := put_le d 20; have := put_le a 15; have := put_le s 12; have := put_le b 7; have := put_le o 3; have := put_le t 0; omega
theorem Encode.red (a : BitVec 5) (s : BitVec 3) (b : BitVec 5) (o : BitVec 4) (t : BitVec 3) : Encode.Statement (.red a s b o t) := Encode.of_some rfl <| by
  have := put_le a 15; have := put_le s 12; have := put_le b 7; have := put_le o 3; have := put_le t 0; omega
theorem Encode.ldfe (d a : BitVec 5) (s : BitVec 3) (i : BitVec 12) : Encode.Statement (.ldfe d a s i) := Encode.of_some rfl <| by
  have := put_le d 20; have := put_le a 15; have := put_le s 12; have := put_le i 0; omega
theorem Encode.stfe (d a : BitVec 5) (s : BitVec 3) (i : BitVec 12) : Encode.Statement (.stfe d a s i) := Encode.of_some rfl <| by
  have := put_le d 20; have := put_le a 15; have := put_le s 12; have := put_le i 0; omega
theorem Encode.clineWb (a b : BitVec 5) (l : BitVec 1) : Encode.Statement (.clineWb a b l) := Encode.of_some rfl <| by
  have := put_le a 15; have := put_le b 10; have := put_le l 2; omega
theorem Encode.clineInv (a b : BitVec 5) (l : BitVec 1) : Encode.Statement (.clineInv a b l) := Encode.of_some rfl <| by
  have := put_le a 15; have := put_le b 10; have := put_le l 2; omega
theorem Encode.clineWbi (a b : BitVec 5) (l : BitVec 1) : Encode.Statement (.clineWbi a b l) := Encode.of_some rfl <| by
  have := put_le a 15; have := put_le b 10; have := put_le l 2; omega
theorem Encode.clineZero (a b : BitVec 5) : Encode.Statement (.clineZero a b) := Encode.of_some rfl <| by
  have := put_le a 15; have := put_le b 10; omega
theorem Encode.ftcWb (a b : BitVec 5) : Encode.Statement (.ftcWb a b) := Encode.of_some rfl <| by
  have := put_le a 15; have := put_le b 10; omega
theorem Encode.ftcInv (a b : BitVec 5) : Encode.Statement (.ftcInv a b) := Encode.of_some rfl <| by
  have := put_le a 15; have := put_le b 10; omega
theorem Encode.ftcWbi (a b : BitVec 5) : Encode.Statement (.ftcWbi a b) := Encode.of_some rfl <| by
  have := put_le a 15; have := put_le b 10; omega
theorem Encode.ftcProbe (d a : BitVec 5) : Encode.Statement (.ftcProbe d a) := Encode.of_some rfl <| by
  have := put_le d 20; have := put_le a 15; omega
theorem Encode.bmodeReset (a : BitVec 5) : Encode.Statement (.bmodeReset a) := Encode.of_some rfl <| by
  have := put_le a 15; omega
theorem Encode.bmodeEmpty (a b : BitVec 5) : Encode.Statement (.bmodeEmpty a b) := Encode.of_some rfl <| by
  have := put_le a 15; have := put_le b 10; omega
theorem Encode.bmodeFull (a b : BitVec 5) : Encode.Statement (.bmodeFull a b) := Encode.of_some rfl <| by
  have := put_le a 15; have := put_le b 10; omega
theorem Encode.bmodeQuery (d a : BitVec 5) : Encode.Statement (.bmodeQuery d a) := Encode.of_some rfl <| by
  have := put_le d 20; have := put_le a 15; omega
theorem Encode.tlbInv (d a : BitVec 5) : Encode.Statement (.tlbInv d a) := Encode.of_some rfl <| by
  have := put_le d 20; have := put_le a 15; omega
theorem Encode.tlbInvall (d : BitVec 5) : Encode.Statement (.tlbInvall d) := Encode.of_some rfl <| by
  have := put_le d 20; omega
theorem Encode.tlbSync : Encode.Statement (.tlbSync) := Encode.of_some rfl <| by decide
theorem Encode.pgProbe (d a : BitVec 5) : Encode.Statement (.pgProbe d a) := Encode.of_some rfl <| by
  have := put_le d 20; have := put_le a 15; omega
theorem Encode.pgMig (d a : BitVec 5) : Encode.Statement (.pgMig d a) := Encode.of_some rfl <| by
  have := put_le d 20; have := put_le a 15; omega
theorem Encode.toksend (v m c : BitVec 1) (n : BitVec 6) : Encode.Statement (.toksend v m c n) := Encode.of_some rfl <| by
  have := put_le v 19; have := put_le m 18; have := put_le c 17; have := put_le n 0; omega
theorem Encode.tokwait (v m c : BitVec 1) (n : BitVec 6) : Encode.Statement (.tokwait v m c n) := Encode.of_some rfl <| by
  have := put_le v 19; have := put_le m 18; have := put_le c 17; have := put_le n 0; omega
theorem Encode.fmtq (a : BitVec 5) : Encode.Statement (.fmtq a) := Encode.of_some rfl <| by
  have := put_le a 15; omega
theorem Encode.endS : Encode.Statement (.endS) := Encode.of_some rfl <| by decide
theorem Encode.rend (i : BitVec 16) : Encode.Statement (.rend i) := Encode.of_some rfl <| by
  have := put_le i 0; omega
theorem Encode.exit (i : BitVec 16) : Encode.Statement (.exit i) := Encode.of_some rfl <| by
  have := put_le i 0; omega
theorem Encode.launch (d a b : BitVec 5) : Encode.Statement (.launch d a b) := Encode.of_some rfl <| by
  have := put_le d 20; have := put_le a 15; have := put_le b 10; omega
theorem Encode.sigAdd (d a b : BitVec 5) : Encode.Statement (.sigAdd d a b) := Encode.of_some rfl <| by
  have := put_le d 20; have := put_le a 15; have := put_le b 10; omega
theorem Encode.sigSet (d a b : BitVec 5) : Encode.Statement (.sigSet d a b) := Encode.of_some rfl <| by
  have := put_le d 20; have := put_le a 15; have := put_le b 10; omega
theorem Encode.sigWait (d a b : BitVec 5) : Encode.Statement (.sigWait d a b) := Encode.of_some rfl <| by
  have := put_le d 20; have := put_le a 15; have := put_le b 10; omega
theorem Encode.sigInt (d a b : BitVec 5) : Encode.Statement (.sigInt d a b) := Encode.of_some rfl <| by
  have := put_le d 20; have := put_le a 15; have := put_le b 10; omega
theorem Encode.hintSave (b : BitVec 5) (i : BitVec 20) : Encode.Statement (.hintSave b i) := Encode.of_some rfl <| by
  have := put_le b 20; have := put_le i 0; omega
theorem Encode.trap (i : BitVec 16) : Encode.Statement (.trap i) := Encode.of_some rfl <| by
  have := put_le i 0; omega
theorem Encode.rett : Encode.Statement (.rett) := Encode.of_some rfl <| by decide
theorem Encode.sysr (d : BitVec 5) (r : BitVec 9) : Encode.Statement (.sysr d r) := Encode.of_some rfl <| by
  have := put_le d 20; have := put_le r 0; omega
theorem Encode.sysw (a : BitVec 5) (r : BitVec 9) : Encode.Statement (.sysw a r) := Encode.of_some rfl <| by
  have := put_le a 15; have := put_le r 0; omega
theorem Encode.barInit (a b : BitVec 5) : Encode.Statement (.barInit a b) := Encode.of_some rfl <| by
  have := put_le a 15; have := put_le b 10; omega
theorem Encode.barReg (a : BitVec 5) : Encode.Statement (.barReg a) := Encode.of_some rfl <| by
  have := put_le a 15; omega
theorem Encode.barArr (d a : BitVec 5) (s : BitVec 3) : Encode.Statement (.barArr d a s) := Encode.of_some rfl <| by
  have := put_le d 20; have := put_le a 15; have := put_le s 7; omega
theorem Encode.barWait (d a b : BitVec 5) (s : BitVec 3) : Encode.Statement (.barWait d a b s) := Encode.of_some rfl <| by
  have := put_le d 20; have := put_le a 15; have := put_le b 10; have := put_le s 7; omega
theorem Encode.barArd (a : BitVec 5) (s : BitVec 3) : Encode.Statement (.barArd a s) := Encode.of_some rfl <| by
  have := put_le a 15; have := put_le s 7; omega
theorem Encode.barPub (a b : BitVec 5) : Encode.Statement (.barPub a b) := Encode.of_some rfl <| by
  have := put_le a 15; have := put_le b 10; omega
theorem Encode.barAtt (a b : BitVec 5) : Encode.Statement (.barAtt a b) := Encode.of_some rfl <| by
  have := put_le a 15; have := put_le b 10; omega
theorem Encode.barRarr (d a b : BitVec 5) (s : BitVec 3) : Encode.Statement (.barRarr d a b s) := Encode.of_some rfl <| by
  have := put_le d 20; have := put_le a 15; have := put_le b 10; have := put_le s 7; omega
theorem Encode.barRdlo (d a : BitVec 5) : Encode.Statement (.barRdlo d a) := Encode.of_some rfl <| by
  have := put_le d 20; have := put_le a 15; omega
theorem Encode.barRdhi (d a : BitVec 5) : Encode.Statement (.barRdhi d a) := Encode.of_some rfl <| by
  have := put_le d 20; have := put_le a 15; omega
theorem Encode.loopBeg (l : BitVec 3) (n : BitVec 8) : Encode.Statement (.loopBeg l n) := Encode.of_some rfl <| by
  have := put_le l 13; have := put_le n 0; omega
theorem Encode.loopFirst (l : BitVec 3) (c : BitVec 4) : Encode.Statement (.loopFirst l c) := Encode.of_some rfl <| by
  have := put_le l 13; have := put_le c 0; omega
theorem Encode.loopLast (l : BitVec 3) (c : BitVec 4) : Encode.Statement (.loopLast l c) := Encode.of_some rfl <| by
  have := put_le l 13; have := put_le c 0; omega
theorem Encode.loopIdx (d : BitVec 5) (l : BitVec 3) : Encode.Statement (.loopIdx d l) := Encode.of_some rfl <| by
  have := put_le d 20; have := put_le l 13; omega
theorem Encode.loopIterationEnd : Encode.Statement (.loopIterationEnd) := Encode.of_none rfl
theorem Encode.vadd (p q : BitVec 3) (d a b : BitVec 5) (k : BitVec 3) (t : BitVec 2) : Encode.Statement (.vadd p q d a b k t) := Encode.of_some rfl <| by
  have := put_le p 23; have := put_le q 20; have := put_le d 15; have := put_le a 10; have := put_le b 5; have := put_le k 2; have := put_le t 0; omega
theorem Encode.vsub (p q : BitVec 3) (d a b : BitVec 5) (k : BitVec 3) (t : BitVec 2) : Encode.Statement (.vsub p q d a b k t) := Encode.of_some rfl <| by
  have := put_le p 23; have := put_le q 20; have := put_le d 15; have := put_le a 10; have := put_le b 5; have := put_le k 2; have := put_le t 0; omega
theorem Encode.vmul (p q : BitVec 3) (d a b : BitVec 5) (k : BitVec 3) (t : BitVec 2) : Encode.Statement (.vmul p q d a b k t) := Encode.of_some rfl <| by
  have := put_le p 23; have := put_le q 20; have := put_le d 15; have := put_le a 10; have := put_le b 5; have := put_le k 2; have := put_le t 0; omega
theorem Encode.vfma (p q : BitVec 3) (d a b : BitVec 5) (k : BitVec 3) (t : BitVec 2) : Encode.Statement (.vfma p q d a b k t) := Encode.of_some rfl <| by
  have := put_le p 23; have := put_le q 20; have := put_le d 15; have := put_le a 10; have := put_le b 5; have := put_le k 2; have := put_le t 0; omega
theorem Encode.vfms (p q : BitVec 3) (d a b : BitVec 5) (k : BitVec 3) (t : BitVec 2) : Encode.Statement (.vfms p q d a b k t) := Encode.of_some rfl <| by
  have := put_le p 23; have := put_le q 20; have := put_le d 15; have := put_le a 10; have := put_le b 5; have := put_le k 2; have := put_le t 0; omega
theorem Encode.vmin (p q : BitVec 3) (d a b : BitVec 5) (k : BitVec 3) (t : BitVec 2) : Encode.Statement (.vmin p q d a b k t) := Encode.of_some rfl <| by
  have := put_le p 23; have := put_le q 20; have := put_le d 15; have := put_le a 10; have := put_le b 5; have := put_le k 2; have := put_le t 0; omega
theorem Encode.vmax (p q : BitVec 3) (d a b : BitVec 5) (k : BitVec 3) (t : BitVec 2) : Encode.Statement (.vmax p q d a b k t) := Encode.of_some rfl <| by
  have := put_le p 23; have := put_le q 20; have := put_le d 15; have := put_le a 10; have := put_le b 5; have := put_le k 2; have := put_le t 0; omega
theorem Encode.vaddInteger (p q : BitVec 3) (d a b : BitVec 5) (k : BitVec 3) (t : BitVec 2) : Encode.Statement (.vaddInteger p q d a b k t) := Encode.of_some rfl <| by
  have := put_le p 23; have := put_le q 20; have := put_le d 15; have := put_le a 10; have := put_le b 5; have := put_le k 2; have := put_le t 0; omega
theorem Encode.vsubInteger (p q : BitVec 3) (d a b : BitVec 5) (k : BitVec 3) (t : BitVec 2) : Encode.Statement (.vsubInteger p q d a b k t) := Encode.of_some rfl <| by
  have := put_le p 23; have := put_le q 20; have := put_le d 15; have := put_le a 10; have := put_le b 5; have := put_le k 2; have := put_le t 0; omega
theorem Encode.vmulInteger (p q : BitVec 3) (d a b : BitVec 5) (k : BitVec 3) (t : BitVec 2) : Encode.Statement (.vmulInteger p q d a b k t) := Encode.of_some rfl <| by
  have := put_le p 23; have := put_le q 20; have := put_le d 15; have := put_le a 10; have := put_le b 5; have := put_le k 2; have := put_le t 0; omega
theorem Encode.vmulh (p q : BitVec 3) (d a b : BitVec 5) (k : BitVec 3) (t : BitVec 2) : Encode.Statement (.vmulh p q d a b k t) := Encode.of_some rfl <| by
  have := put_le p 23; have := put_le q 20; have := put_le d 15; have := put_le a 10; have := put_le b 5; have := put_le k 2; have := put_le t 0; omega
theorem Encode.vminInteger (p q : BitVec 3) (d a b : BitVec 5) (k : BitVec 3) (t : BitVec 2) : Encode.Statement (.vminInteger p q d a b k t) := Encode.of_some rfl <| by
  have := put_le p 23; have := put_le q 20; have := put_le d 15; have := put_le a 10; have := put_le b 5; have := put_le k 2; have := put_le t 0; omega
theorem Encode.vmaxInteger (p q : BitVec 3) (d a b : BitVec 5) (k : BitVec 3) (t : BitVec 2) : Encode.Statement (.vmaxInteger p q d a b k t) := Encode.of_some rfl <| by
  have := put_le p 23; have := put_le q 20; have := put_le d 15; have := put_le a 10; have := put_le b 5; have := put_le k 2; have := put_le t 0; omega
theorem Encode.vand (p q : BitVec 3) (d a b : BitVec 5) (k : BitVec 3) : Encode.Statement (.vand p q d a b k) := Encode.of_some rfl <| by
  have := put_le p 23; have := put_le q 20; have := put_le d 15; have := put_le a 10; have := put_le b 5; have := put_le k 2; omega
theorem Encode.vor (p q : BitVec 3) (d a b : BitVec 5) (k : BitVec 3) : Encode.Statement (.vor p q d a b k) := Encode.of_some rfl <| by
  have := put_le p 23; have := put_le q 20; have := put_le d 15; have := put_le a 10; have := put_le b 5; have := put_le k 2; omega
theorem Encode.vxor (p q : BitVec 3) (d a b : BitVec 5) (k : BitVec 3) : Encode.Statement (.vxor p q d a b k) := Encode.of_some rfl <| by
  have := put_le p 23; have := put_le q 20; have := put_le d 15; have := put_le a 10; have := put_le b 5; have := put_le k 2; omega
theorem Encode.vshl (p q : BitVec 3) (d a b : BitVec 5) (k : BitVec 3) : Encode.Statement (.vshl p q d a b k) := Encode.of_some rfl <| by
  have := put_le p 23; have := put_le q 20; have := put_le d 15; have := put_le a 10; have := put_le b 5; have := put_le k 2; omega
theorem Encode.vshr (p q : BitVec 3) (d a b : BitVec 5) (k : BitVec 3) : Encode.Statement (.vshr p q d a b k) := Encode.of_some rfl <| by
  have := put_le p 23; have := put_le q 20; have := put_le d 15; have := put_le a 10; have := put_le b 5; have := put_le k 2; omega
theorem Encode.vsra (p q : BitVec 3) (d a b : BitVec 5) (k : BitVec 3) : Encode.Statement (.vsra p q d a b k) := Encode.of_some rfl <| by
  have := put_le p 23; have := put_le q 20; have := put_le d 15; have := put_le a 10; have := put_le b 5; have := put_le k 2; omega
theorem Encode.vaddi (p q : BitVec 3) (d a : BitVec 5) (k : BitVec 3) (i : BitVec 7) : Encode.Statement (.vaddi p q d a k i) := Encode.of_some rfl <| by
  have := put_le p 23; have := put_le q 20; have := put_le d 15; have := put_le a 10; have := put_le k 7; have := put_le i 0; omega
theorem Encode.vandi (p q : BitVec 3) (d a : BitVec 5) (k : BitVec 3) (i : BitVec 7) : Encode.Statement (.vandi p q d a k i) := Encode.of_some rfl <| by
  have := put_le p 23; have := put_le q 20; have := put_le d 15; have := put_le a 10; have := put_le k 7; have := put_le i 0; omega
theorem Encode.vshli (p q : BitVec 3) (d a : BitVec 5) (k : BitVec 3) (i : BitVec 5) : Encode.Statement (.vshli p q d a k i) := Encode.of_some rfl <| by
  have := put_le p 23; have := put_le q 20; have := put_le d 15; have := put_le a 10; have := put_le k 7; have := put_le i 0; omega
theorem Encode.vshri (p q : BitVec 3) (d a : BitVec 5) (k : BitVec 3) (i : BitVec 5) : Encode.Statement (.vshri p q d a k i) := Encode.of_some rfl <| by
  have := put_le p 23; have := put_le q 20; have := put_le d 15; have := put_le a 10; have := put_le k 7; have := put_le i 0; omega
theorem Encode.vcmp (p q x : BitVec 3) (a b : BitVec 5) (k : BitVec 3) (t c : BitVec 2) : Encode.Statement (.vcmp p q x a b k t c) := Encode.of_some rfl <| by
  have := put_le p 23; have := put_le q 20; have := put_le x 17; have := put_le a 12; have := put_le b 7; have := put_le k 4; have := put_le t 2; have := put_le c 0; omega
theorem Encode.kand (p q x y k : BitVec 3) : Encode.Statement (.kand p q x y k) := Encode.of_some rfl <| by
  have := put_le p 23; have := put_le q 20; have := put_le x 17; have := put_le y 7; have := put_le k 4; omega
theorem Encode.kor (p q x y k : BitVec 3) : Encode.Statement (.kor p q x y k) := Encode.of_some rfl <| by
  have := put_le p 23; have := put_le q 20; have := put_le x 17; have := put_le y 7; have := put_le k 4; omega
theorem Encode.kxor (p q x y k : BitVec 3) : Encode.Statement (.kxor p q x y k) := Encode.of_some rfl <| by
  have := put_le p 23; have := put_le q 20; have := put_le x 17; have := put_le y 7; have := put_le k 4; omega
theorem Encode.kandn (p q x y k : BitVec 3) : Encode.Statement (.kandn p q x y k) := Encode.of_some rfl <| by
  have := put_le p 23; have := put_le q 20; have := put_le x 17; have := put_le y 7; have := put_le k 4; omega
theorem Encode.kmov (p q x k : BitVec 3) : Encode.Statement (.kmov p q x k) := Encode.of_some rfl <| by
  have := put_le p 23; have := put_le q 20; have := put_le x 17; have := put_le k 4; omega
theorem Encode.knot (p q x k : BitVec 3) : Encode.Statement (.knot p q x k) := Encode.of_some rfl <| by
  have := put_le p 23; have := put_le q 20; have := put_le x 17; have := put_le k 4; omega
theorem Encode.kpush (p q x k : BitVec 3) : Encode.Statement (.kpush p q x k) := Encode.of_some rfl <| by
  have := put_le p 23; have := put_le q 20; have := put_le x 17; have := put_le k 4; omega
theorem Encode.kpop (p q x : BitVec 3) : Encode.Statement (.kpop p q x) := Encode.of_some rfl <| by
  have := put_le p 23; have := put_le q 20; have := put_le x 17; omega
theorem Encode.kelse (p q x : BitVec 3) : Encode.Statement (.kelse p q x) := Encode.of_some rfl <| by
  have := put_le p 23; have := put_le q 20; have := put_le x 17; omega
theorem Encode.vbrAny (p q k : BitVec 3) (o : BitVec 15) : Encode.Statement (.vbrAny p q k o) := Encode.of_some rfl <| by
  have := put_le p 23; have := put_le q 20; have := put_le k 17; have := put_le o 0; omega
theorem Encode.vbrAll (p q k : BitVec 3) (o : BitVec 15) : Encode.Statement (.vbrAll p q k o) := Encode.of_some rfl <| by
  have := put_le p 23; have := put_le q 20; have := put_le k 17; have := put_le o 0; omega
theorem Encode.vbrNone (p q k : BitVec 3) (o : BitVec 15) : Encode.Statement (.vbrNone p q k o) := Encode.of_some rfl <| by
  have := put_le p 23; have := put_le q 20; have := put_le k 17; have := put_le o 0; omega
theorem Encode.vj (p q : BitVec 3) (o : BitVec 15) : Encode.Statement (.vj p q o) := Encode.of_some rfl <| by
  have := put_le p 23; have := put_le q 20; have := put_le o 0; omega
theorem Encode.vcvt (p q : BitVec 3) (d a : BitVec 5) (k : BitVec 3) (f : BitVec 7) : Encode.Statement (.vcvt p q d a k f) := Encode.of_some rfl <| by
  have := put_le p 23; have := put_le q 20; have := put_le d 15; have := put_le a 10; have := put_le k 7; have := put_le f 0; omega
theorem Encode.vquant (p q : BitVec 3) (d a : BitVec 5) (k : BitVec 3) (m : BitVec 1) (s : BitVec 3) : Encode.Statement (.vquant p q d a k m s) := Encode.of_some rfl <| by
  have := put_le p 23; have := put_le q 20; have := put_le d 15; have := put_le a 10; have := put_le k 7; have := put_le m 3; have := put_le s 0; omega
theorem Encode.vexp2 (p q : BitVec 3) (d a : BitVec 5) (k : BitVec 3) : Encode.Statement (.vexp2 p q d a k) := Encode.of_some rfl <| by
  have := put_le p 23; have := put_le q 20; have := put_le d 15; have := put_le a 10; have := put_le k 7; omega
theorem Encode.vlog2 (p q : BitVec 3) (d a : BitVec 5) (k : BitVec 3) : Encode.Statement (.vlog2 p q d a k) := Encode.of_some rfl <| by
  have := put_le p 23; have := put_le q 20; have := put_le d 15; have := put_le a 10; have := put_le k 7; omega
theorem Encode.vrcp (p q : BitVec 3) (d a : BitVec 5) (k : BitVec 3) : Encode.Statement (.vrcp p q d a k) := Encode.of_some rfl <| by
  have := put_le p 23; have := put_le q 20; have := put_le d 15; have := put_le a 10; have := put_le k 7; omega
theorem Encode.vrsqrt (p q : BitVec 3) (d a : BitVec 5) (k : BitVec 3) : Encode.Statement (.vrsqrt p q d a k) := Encode.of_some rfl <| by
  have := put_le p 23; have := put_le q 20; have := put_le d 15; have := put_le a 10; have := put_le k 7; omega
theorem Encode.vsin (p q : BitVec 3) (d a : BitVec 5) (k : BitVec 3) : Encode.Statement (.vsin p q d a k) := Encode.of_some rfl <| by
  have := put_le p 23; have := put_le q 20; have := put_le d 15; have := put_le a 10; have := put_le k 7; omega
theorem Encode.vcos (p q : BitVec 3) (d a : BitVec 5) (k : BitVec 3) : Encode.Statement (.vcos p q d a k) := Encode.of_some rfl <| by
  have := put_le p 23; have := put_le q 20; have := put_le d 15; have := put_le a 10; have := put_le k 7; omega
theorem Encode.vtanh (p q : BitVec 3) (d a : BitVec 5) (k : BitVec 3) : Encode.Statement (.vtanh p q d a k) := Encode.of_some rfl <| by
  have := put_le p 23; have := put_le q 20; have := put_le d 15; have := put_le a 10; have := put_le k 7; omega
theorem Encode.vradd (p q : BitVec 3) (d a : BitVec 5) (k : BitVec 3) (t : BitVec 2) : Encode.Statement (.vradd p q d a k t) := Encode.of_some rfl <| by
  have := put_le p 23; have := put_le q 20; have := put_le d 15; have := put_le a 10; have := put_le k 7; have := put_le t 2; omega
theorem Encode.vrmax (p q : BitVec 3) (d a : BitVec 5) (k : BitVec 3) (t : BitVec 2) : Encode.Statement (.vrmax p q d a k t) := Encode.of_some rfl <| by
  have := put_le p 23; have := put_le q 20; have := put_le d 15; have := put_le a 10; have := put_le k 7; have := put_le t 2; omega
theorem Encode.vrmin (p q : BitVec 3) (d a : BitVec 5) (k : BitVec 3) (t : BitVec 2) : Encode.Statement (.vrmin p q d a k t) := Encode.of_some rfl <| by
  have := put_le p 23; have := put_le q 20; have := put_le d 15; have := put_le a 10; have := put_le k 7; have := put_le t 2; omega
theorem Encode.vrmaxi (p q : BitVec 3) (d a : BitVec 5) (k : BitVec 3) (t : BitVec 2) : Encode.Statement (.vrmaxi p q d a k t) := Encode.of_some rfl <| by
  have := put_le p 23; have := put_le q 20; have := put_le d 15; have := put_le a 10; have := put_le k 7; have := put_le t 2; omega
theorem Encode.vperm (p q : BitVec 3) (d a b : BitVec 5) (k : BitVec 3) : Encode.Statement (.vperm p q d a b k) := Encode.of_some rfl <| by
  have := put_le p 23; have := put_le q 20; have := put_le d 15; have := put_le a 10; have := put_le b 5; have := put_le k 2; omega
theorem Encode.vshuf (p q : BitVec 3) (d a b : BitVec 5) (k : BitVec 3) : Encode.Statement (.vshuf p q d a b k) := Encode.of_some rfl <| by
  have := put_le p 23; have := put_le q 20; have := put_le d 15; have := put_le a 10; have := put_le b 5; have := put_le k 2; omega
theorem Encode.vrot (p q : BitVec 3) (d a b : BitVec 5) (k : BitVec 3) : Encode.Statement (.vrot p q d a b k) := Encode.of_some rfl <| by
  have := put_le p 23; have := put_le q 20; have := put_le d 15; have := put_le a 10; have := put_le b 5; have := put_le k 2; omega
theorem Encode.vzip (p q : BitVec 3) (d a b : BitVec 5) (k : BitVec 3) : Encode.Statement (.vzip p q d a b k) := Encode.of_some rfl <| by
  have := put_le p 23; have := put_le q 20; have := put_le d 15; have := put_le a 10; have := put_le b 5; have := put_le k 2; omega
theorem Encode.vsel (p q : BitVec 3) (d a b : BitVec 5) (k : BitVec 3) : Encode.Statement (.vsel p q d a b k) := Encode.of_some rfl <| by
  have := put_le p 23; have := put_le q 20; have := put_le d 15; have := put_le a 10; have := put_le b 5; have := put_le k 2; omega
theorem Encode.vli (p q : BitVec 3) (d : BitVec 5) (i : BitVec 15) : Encode.Statement (.vli p q d i) := Encode.of_some rfl <| by
  have := put_le p 23; have := put_le q 20; have := put_le d 15; have := put_le i 0; omega
theorem Encode.vlih (p q : BitVec 3) (d : BitVec 5) (i : BitVec 15) : Encode.Statement (.vlih p q d i) := Encode.of_some rfl <| by
  have := put_le p 23; have := put_le q 20; have := put_le d 15; have := put_le i 0; omega
theorem Encode.vmov (p q : BitVec 3) (d a : BitVec 5) (k : BitVec 3) : Encode.Statement (.vmov p q d a k) := Encode.of_some rfl <| by
  have := put_le p 23; have := put_le q 20; have := put_le d 15; have := put_le a 10; have := put_le k 7; omega
theorem Encode.vlane (p q : BitVec 3) (d a : BitVec 5) (k : BitVec 3) (n : BitVec 6) : Encode.Statement (.vlane p q d a k n) := Encode.of_some rfl <| by
  have := put_le p 23; have := put_le q 20; have := put_le d 15; have := put_le a 10; have := put_le k 7; have := put_le n 0; omega
theorem Encode.vld (p q : BitVec 3) (d a : BitVec 5) (k : BitVec 3) (o : BitVec 7) : Encode.Statement (.vld p q d a k o) := Encode.of_some rfl <| by
  have := put_le p 23; have := put_le q 20; have := put_le d 15; have := put_le a 10; have := put_le k 7; have := put_le o 0; omega
theorem Encode.vst (p q : BitVec 3) (d a : BitVec 5) (k : BitVec 3) (o : BitVec 7) : Encode.Statement (.vst p q d a k o) := Encode.of_some rfl <| by
  have := put_le p 23; have := put_le q 20; have := put_le d 15; have := put_le a 10; have := put_le k 7; have := put_le o 0; omega
theorem Encode.vgather (p q : BitVec 3) (d a : BitVec 5) (k : BitVec 3) (o : BitVec 7) : Encode.Statement (.vgather p q d a k o) := Encode.of_some rfl <| by
  have := put_le p 23; have := put_le q 20; have := put_le d 15; have := put_le a 10; have := put_le k 7; have := put_le o 0; omega
theorem Encode.vscatter (p q : BitVec 3) (d a : BitVec 5) (k : BitVec 3) (o : BitVec 7) : Encode.Statement (.vscatter p q d a k o) := Encode.of_some rfl <| by
  have := put_le p 23; have := put_le q 20; have := put_le d 15; have := put_le a 10; have := put_le k 7; have := put_le o 0; omega
theorem Encode.vlut (p q : BitVec 3) (d a : BitVec 5) (k : BitVec 3) (o : BitVec 7) : Encode.Statement (.vlut p q d a k o) := Encode.of_some rfl <| by
  have := put_le p 23; have := put_le q 20; have := put_le d 15; have := put_le a 10; have := put_le k 7; have := put_le o 0; omega
theorem Encode.vrescale (p q : BitVec 3) (d a : BitVec 5) (k : BitVec 3) (t : BitVec 5) : Encode.Statement (.vrescale p q d a k t) := Encode.of_some rfl <| by
  have := put_le p 23; have := put_le q 20; have := put_le d 15; have := put_le a 10; have := put_le k 7; have := put_le t 0; omega
theorem Encode.vaccCol (p q : BitVec 3) (d a : BitVec 5) (k : BitVec 3) : Encode.Statement (.vaccCol p q d a k) := Encode.of_some rfl <| by
  have := put_le p 23; have := put_le q 20; have := put_le d 15; have := put_le a 10; have := put_le k 7; omega
theorem Encode.vaccColz (p q : BitVec 3) (d a : BitVec 5) (k : BitVec 3) : Encode.Statement (.vaccColz p q d a k) := Encode.of_some rfl <| by
  have := put_le p 23; have := put_le q 20; have := put_le d 15; have := put_le a 10; have := put_le k 7; omega
theorem Encode.vaccRow (p q : BitVec 3) (d a : BitVec 5) (k : BitVec 3) : Encode.Statement (.vaccRow p q d a k) := Encode.of_some rfl <| by
  have := put_le p 23; have := put_le q 20; have := put_le d 15; have := put_le a 10; have := put_le k 7; omega
theorem Encode.vaccRowz (p q : BitVec 3) (d a : BitVec 5) (k : BitVec 3) : Encode.Statement (.vaccRowz p q d a k) := Encode.of_some rfl <| by
  have := put_le p 23; have := put_le q 20; have := put_le d 15; have := put_le a 10; have := put_le k 7; omega
theorem Encode.vaccWcol (p q : BitVec 3) (d a : BitVec 5) (k : BitVec 3) : Encode.Statement (.vaccWcol p q d a k) := Encode.of_some rfl <| by
  have := put_le p 23; have := put_le q 20; have := put_le d 15; have := put_le a 10; have := put_le k 7; omega
theorem Encode.vaccAcol (p q : BitVec 3) (d a : BitVec 5) (k : BitVec 3) : Encode.Statement (.vaccAcol p q d a k) := Encode.of_some rfl <| by
  have := put_le p 23; have := put_le q 20; have := put_le d 15; have := put_le a 10; have := put_le k 7; omega
theorem Encode.vldfe (p q : BitVec 3) (d a : BitVec 5) (k : BitVec 3) (o : BitVec 7) : Encode.Statement (.vldfe p q d a k o) := Encode.of_some rfl <| by
  have := put_le p 23; have := put_le q 20; have := put_le d 15; have := put_le a 10; have := put_le k 7; have := put_le o 0; omega
theorem Encode.vstfe (p q : BitVec 3) (d a : BitVec 5) (k : BitVec 3) (o : BitVec 7) : Encode.Statement (.vstfe p q d a k o) := Encode.of_some rfl <| by
  have := put_le p 23; have := put_le q 20; have := put_le d 15; have := put_le a 10; have := put_le k 7; have := put_le o 0; omega
theorem Encode.loopBegXn (l : BitVec 3) (n : BitVec 8) : Encode.Statement (.loopBegXn l n) := Encode.of_some rfl <| by
  have := put_le l 13; have := put_le n 0; omega
theorem Encode.loopFirstXn (l : BitVec 3) (c : BitVec 4) : Encode.Statement (.loopFirstXn l c) := Encode.of_some rfl <| by
  have := put_le l 13; have := put_le c 0; omega
theorem Encode.loopLastXn (l : BitVec 3) (c : BitVec 4) : Encode.Statement (.loopLastXn l c) := Encode.of_some rfl <| by
  have := put_le l 13; have := put_le c 0; omega
theorem Encode.rendXn (p q : BitVec 3) (i : BitVec 16) : Encode.Statement (.rendXn p q i) := Encode.of_some rfl <| by
  have := put_le p 23; have := put_le q 20; have := put_le i 0; omega
theorem Encode.endXn (p q : BitVec 3) : Encode.Statement (.endXn p q) := Encode.of_some rfl <| by
  have := put_le p 23; have := put_le q 20; omega
theorem Encode.nopXn (p q : BitVec 3) : Encode.Statement (.nopXn p q) := Encode.of_some rfl <| by
  have := put_le p 23; have := put_le q 20; omega
theorem Encode.mtile (p q : BitVec 3) (n : BitVec 6) (m : BitVec 2) (a b c : BitVec 4) : Encode.Statement (.mtile p q n m a b c) := Encode.of_some rfl <| by
  have := put_le p 23; have := put_le q 20; have := put_le n 14; have := put_le m 12; have := put_le a 8; have := put_le b 4; have := put_le c 0; omega
theorem Encode.mbcast (p q : BitVec 3) (n : BitVec 6) (a b : BitVec 4) : Encode.Statement (.mbcast p q n a b) := Encode.of_some rfl <| by
  have := put_le p 23; have := put_le q 20; have := put_le n 14; have := put_le a 8; have := put_le b 4; omega
theorem Encode.mtileT (p q : BitVec 3) (n : BitVec 6) (m : BitVec 2) (a b c : BitVec 4) : Encode.Statement (.mtileT p q n m a b c) := Encode.of_some rfl <| by
  have := put_le p 23; have := put_le q 20; have := put_le n 14; have := put_le m 12; have := put_le a 8; have := put_le b 4; have := put_le c 0; omega
theorem Encode.msync (p q : BitVec 3) : Encode.Statement (.msync p q) := Encode.of_some rfl <| by
  have := put_le p 23; have := put_le q 20; omega
theorem Encode.mdset (p q : BitVec 3) (d f : BitVec 4) (i : BitVec 12) : Encode.Statement (.mdset p q d f i) := Encode.of_some rfl <| by
  have := put_le p 23; have := put_le q 20; have := put_le d 16; have := put_le f 12; have := put_le i 0; omega
theorem Encode.mdadd (p q : BitVec 3) (d s : BitVec 4) (i : BitVec 12) : Encode.Statement (.mdadd p q d s i) := Encode.of_some rfl <| by
  have := put_le p 23; have := put_le q 20; have := put_le d 16; have := put_le s 12; have := put_le i 0; omega
theorem Encode.mdmov (p q : BitVec 3) (d s : BitVec 4) : Encode.Statement (.mdmov p q d s) := Encode.of_some rfl <| by
  have := put_le p 23; have := put_le q 20; have := put_le d 16; have := put_le s 12; omega
theorem Encode.mdld (p q : BitVec 3) (d s : BitVec 4) (i : BitVec 12) : Encode.Statement (.mdld p q d s i) := Encode.of_some rfl <| by
  have := put_le p 23; have := put_le q 20; have := put_le d 16; have := put_le s 12; have := put_le i 0; omega
theorem Encode.mjoin (p q s : BitVec 3) (r : BitVec 2) (k : BitVec 6) (v : BitVec 2) : Encode.Statement (.mjoin p q s r k v) := Encode.of_some rfl <| by
  have := put_le p 23; have := put_le q 20; have := put_le s 17; have := put_le r 15; have := put_le k 9; have := put_le v 7; omega
theorem Encode.mleave (p q : BitVec 3) : Encode.Statement (.mleave p q) := Encode.of_some rfl <| by
  have := put_le p 23; have := put_le q 20; omega
theorem Encode.mcal (p q s : BitVec 3) (r : BitVec 2) : Encode.Statement (.mcal p q s r) := Encode.of_some rfl <| by
  have := put_le p 23; have := put_le q 20; have := put_le s 17; have := put_le r 15; omega
theorem Encode.mocfg (p q : BitVec 3) (o : BitVec 6) (t : BitVec 2) (i : BitVec 12) : Encode.Statement (.mocfg p q o t i) := Encode.of_some rfl <| by
  have := put_le p 23; have := put_le q 20; have := put_le o 14; have := put_le t 12; have := put_le i 0; omega
theorem Encode.mstat (p q : BitVec 3) (o : BitVec 6) (s : BitVec 3) (m : BitVec 4) : Encode.Statement (.mstat p q o s m) := Encode.of_some rfl <| by
  have := put_le p 23; have := put_le q 20; have := put_le o 14; have := put_le s 4; have := put_le m 0; omega
theorem Encode.maccAlloc (p q : BitVec 3) (b : BitVec 4) : Encode.Statement (.maccAlloc p q b) := Encode.of_some rfl <| by
  have := put_le p 23; have := put_le q 20; have := put_le b 0; omega
theorem Encode.maccFree (p q : BitVec 3) (b : BitVec 4) : Encode.Statement (.maccFree p q b) := Encode.of_some rfl <| by
  have := put_le p 23; have := put_le q 20; have := put_le b 0; omega
theorem Encode.maccZero (p q : BitVec 3) (n b : BitVec 4) : Encode.Statement (.maccZero p q n b) := Encode.of_some rfl <| by
  have := put_le p 23; have := put_le q 20; have := put_le n 4; have := put_le b 0; omega
theorem Encode.maccShare (p q : BitVec 3) (k : BitVec 6) (b : BitVec 4) : Encode.Statement (.maccShare p q k b) := Encode.of_some rfl <| by
  have := put_le p 23; have := put_le q 20; have := put_le k 4; have := put_le b 0; omega
theorem Encode.maccAttach (p q : BitVec 3) (n : BitVec 4) (k : BitVec 6) (b : BitVec 4) : Encode.Statement (.maccAttach p q n k b) := Encode.of_some rfl <| by
  have := put_le p 23; have := put_le q 20; have := put_le n 10; have := put_le k 4; have := put_le b 0; omega
theorem Encode.cpy (p q : BitVec 3) (x y z : BitVec 4) (f : BitVec 8) : Encode.Statement (.cpy p q x y z f) := Encode.of_some rfl <| by
  have := put_le p 23; have := put_le q 20; have := put_le x 16; have := put_le y 12; have := put_le z 8; have := put_le f 0; omega
theorem Encode.cpyS (p q : BitVec 3) (x y z : BitVec 4) (f : BitVec 8) : Encode.Statement (.cpyS p q x y z f) := Encode.of_some rfl <| by
  have := put_le p 23; have := put_le q 20; have := put_le x 16; have := put_le y 12; have := put_le z 8; have := put_le f 0; omega
theorem Encode.ctld (p q : BitVec 3) (x y z : BitVec 4) (f : BitVec 8) : Encode.Statement (.ctld p q x y z f) := Encode.of_some rfl <| by
  have := put_le p 23; have := put_le q 20; have := put_le x 16; have := put_le y 12; have := put_le z 8; have := put_le f 0; omega
theorem Encode.ctst (p q : BitVec 3) (x y z : BitVec 4) (f : BitVec 8) : Encode.Statement (.ctst p q x y z f) := Encode.of_some rfl <| by
  have := put_le p 23; have := put_le q 20; have := put_le x 16; have := put_le y 12; have := put_le z 8; have := put_le f 0; omega
theorem Encode.cgath (p q : BitVec 3) (x y z : BitVec 4) (f : BitVec 8) : Encode.Statement (.cgath p q x y z f) := Encode.of_some rfl <| by
  have := put_le p 23; have := put_le q 20; have := put_le x 16; have := put_le y 12; have := put_le z 8; have := put_le f 0; omega
theorem Encode.cscat (p q : BitVec 3) (x y z : BitVec 4) (f : BitVec 8) : Encode.Statement (.cscat p q x y z f) := Encode.of_some rfl <| by
  have := put_le p 23; have := put_le q 20; have := put_le x 16; have := put_le y 12; have := put_le z 8; have := put_le f 0; omega
theorem Encode.cwalk (p q : BitVec 3) (x y z : BitVec 4) (f : BitVec 8) : Encode.Statement (.cwalk p q x y z f) := Encode.of_some rfl <| by
  have := put_le p 23; have := put_le q 20; have := put_le x 16; have := put_le y 12; have := put_le z 8; have := put_le f 0; omega
theorem Encode.czero (p q : BitVec 3) (x z : BitVec 4) (f : BitVec 8) : Encode.Statement (.czero p q x z f) := Encode.of_some rfl <| by
  have := put_le p 23; have := put_le q 20; have := put_le x 16; have := put_le z 8; have := put_le f 0; omega
theorem Encode.cfill (p q : BitVec 3) (x y z : BitVec 4) (f : BitVec 8) : Encode.Statement (.cfill p q x y z f) := Encode.of_some rfl <| by
  have := put_le p 23; have := put_le q 20; have := put_le x 16; have := put_le y 12; have := put_le z 8; have := put_le f 0; omega
theorem Encode.cbarIn (p q : BitVec 3) (x : BitVec 4) (b : BitVec 8) : Encode.Statement (.cbarIn p q x b) := Encode.of_some rfl <| by
  have := put_le p 23; have := put_le q 20; have := put_le x 16; have := put_le b 0; omega
theorem Encode.cbarOut (p q : BitVec 3) (x : BitVec 4) (b : BitVec 8) : Encode.Statement (.cbarOut p q x b) := Encode.of_some rfl <| by
  have := put_le p 23; have := put_le q 20; have := put_le x 16; have := put_le b 0; omega
theorem Encode.cbarArr (p q : BitVec 3) (b : BitVec 8) : Encode.Statement (.cbarArr p q b) := Encode.of_some rfl <| by
  have := put_le p 23; have := put_le q 20; have := put_le b 0; omega
theorem Encode.csigAdd (p q : BitVec 3) (x y : BitVec 4) : Encode.Statement (.csigAdd p q x y) := Encode.of_some rfl <| by
  have := put_le p 23; have := put_le q 20; have := put_le x 16; have := put_le y 12; omega
theorem Encode.csigSet (p q : BitVec 3) (x y : BitVec 4) : Encode.Statement (.csigSet p q x y) := Encode.of_some rfl <| by
  have := put_le p 23; have := put_le q 20; have := put_le x 16; have := put_le y 12; omega
theorem Encode.ccoll (p q : BitVec 3) (x z : BitVec 4) : Encode.Statement (.ccoll p q x z) := Encode.of_some rfl <| by
  have := put_le p 23; have := put_le q 20; have := put_le x 16; have := put_le z 8; omega
theorem Encode.cpref (p q : BitVec 3) (x z : BitVec 4) : Encode.Statement (.cpref p q x z) := Encode.of_some rfl <| by
  have := put_le p 23; have := put_le q 20; have := put_le x 16; have := put_le z 8; omega
theorem Encode.caLi (p q : BitVec 3) (a : BitVec 4) (i : BitVec 16) : Encode.Statement (.caLi p q a i) := Encode.of_some rfl <| by
  have := put_le p 23; have := put_le q 20; have := put_le a 16; have := put_le i 0; omega
theorem Encode.caLih (p q : BitVec 3) (a : BitVec 4) (i : BitVec 16) : Encode.Statement (.caLih p q a i) := Encode.of_some rfl <| by
  have := put_le p 23; have := put_le q 20; have := put_le a 16; have := put_le i 0; omega
theorem Encode.caAddi (p q : BitVec 3) (a : BitVec 4) (i : BitVec 16) : Encode.Statement (.caAddi p q a i) := Encode.of_some rfl <| by
  have := put_le p 23; have := put_le q 20; have := put_le a 16; have := put_le i 0; omega
theorem Encode.caAdd (p q : BitVec 3) (x y z : BitVec 4) : Encode.Statement (.caAdd p q x y z) := Encode.of_some rfl <| by
  have := put_le p 23; have := put_le q 20; have := put_le x 16; have := put_le y 12; have := put_le z 8; omega
theorem Encode.caMov (p q : BitVec 3) (x y : BitVec 4) : Encode.Statement (.caMov p q x y) := Encode.of_some rfl <| by
  have := put_le p 23; have := put_le q 20; have := put_le x 16; have := put_le y 12; omega
theorem Encode.chLd (p q : BitVec 3) (x y : BitVec 4) (i : BitVec 8) : Encode.Statement (.chLd p q x y i) := Encode.of_some rfl <| by
  have := put_le p 23; have := put_le q 20; have := put_le x 16; have := put_le y 12; have := put_le i 0; omega
theorem Encode.chSt (p q : BitVec 3) (x y : BitVec 4) (i : BitVec 8) : Encode.Statement (.chSt p q x y i) := Encode.of_some rfl <| by
  have := put_le p 23; have := put_le q 20; have := put_le x 16; have := put_le y 12; have := put_le i 0; omega
theorem Encode.vectorResultWrite (h : BitVec 64) : Encode.Statement (.vectorResultWrite h) := Encode.of_none rfl
theorem Encode.vldChecksDecided (h : BitVec 64) : Encode.Statement (.vldChecksDecided h) := Encode.of_none rfl
theorem Encode.vldReplay (h : BitVec 64) : Encode.Statement (.vldReplay h) := Encode.of_none rfl
theorem Encode.latchWrite (h : BitVec 64) : Encode.Statement (.latchWrite h) := Encode.of_none rfl
theorem Encode.vectorElement (h : BitVec 64) : Encode.Statement (.vectorElement h) := Encode.of_none rfl
theorem Encode.vquantGroup (h : BitVec 64) : Encode.Statement (.vquantGroup h) := Encode.of_none rfl
theorem Encode.copyElement (h : BitVec 64) : Encode.Statement (.copyElement h) := Encode.of_none rfl
theorem Encode.tileCommandStart (h : BitVec 64) : Encode.Statement (.tileCommandStart h) := Encode.of_none rfl
theorem Encode.frameStart (h : BitVec 64) (dark : BitVec 68) (pre : List (BitVec 64)) : Encode.Statement (.frameStart h dark pre) := Encode.of_none rfl
theorem Encode.sessionTimeout (h : BitVec 64) : Encode.Statement (.sessionTimeout h) := Encode.of_none rfl
theorem Encode.tileElement (h : BitVec 64) (laser : BitVec 1 × BitVec 68) (obs : List (BitVec 64 × BitVec 2 × List (BitVec 16))) (light : List (BitVec 16)) : Encode.Statement (.tileElement h laser obs light) := Encode.of_none rfl
theorem Encode.joinAdmitted (str : BitVec 3) : Encode.Statement (.joinAdmitted str) := Encode.of_none rfl
theorem Encode.combFailoverDone (str : BitVec 3) : Encode.Statement (.combFailoverDone str) := Encode.of_none rfl
theorem Encode.calibrationDone (str : BitVec 3) (found : BitVec 68 × List (BitVec 16)) : Encode.Statement (.calibrationDone str found) := Encode.of_none rfl
theorem Encode.streamEnded (h : BitVec 64) (st : BitVec 2) : Encode.Statement (.streamEnded h st) := Encode.of_none rfl
theorem Encode.trapDelivery (h : BitVec 64) : Encode.Statement (.trapDelivery h) := Encode.of_none rfl
theorem Encode.asyncFaultDelivery (h : BitVec 64) : Encode.Statement (.asyncFaultDelivery h) := Encode.of_none rfl
theorem Encode.preemptionDeadline (h : BitVec 64) : Encode.Statement (.preemptionDeadline h) := Encode.of_none rfl
theorem Encode.groupSave (h : BitVec 64) : Encode.Statement (.groupSave h) := Encode.of_none rfl
theorem Encode.groupRetire (h : BitVec 64) : Encode.Statement (.groupRetire h) := Encode.of_none rfl
theorem Encode.packetTake (q : BitVec 15) : Encode.Statement (.packetTake q) := Encode.of_none rfl
theorem Encode.parameterBlockRead (q : BitVec 15) : Encode.Statement (.parameterBlockRead q) := Encode.of_none rfl
theorem Encode.groupDispatch : Encode.Statement (.groupDispatch) := Encode.of_none rfl
theorem Encode.spillExpiry (q : BitVec 15) : Encode.Statement (.spillExpiry q) := Encode.of_none rfl
theorem Encode.packetComplete (q : BitVec 15) (n : BitVec 16) : Encode.Statement (.packetComplete q n) := Encode.of_none rfl
theorem Encode.ctxOpen (c : BitVec 8) : Encode.Statement (.ctxOpen c) := Encode.of_none rfl
theorem Encode.ctxSuspend (c : BitVec 8) : Encode.Statement (.ctxSuspend c) := Encode.of_none rfl
theorem Encode.ctxResume (c : BitVec 8) : Encode.Statement (.ctxResume c) := Encode.of_none rfl
theorem Encode.ctxClose (c : BitVec 8) : Encode.Statement (.ctxClose c) := Encode.of_none rfl
theorem Encode.kernelLoad (c : BitVec 8) (kid : BitVec 12) : Encode.Statement (.kernelLoad c kid) := Encode.of_none rfl
theorem Encode.kernelLoadReadDone : Encode.Statement (.kernelLoadReadDone) := Encode.of_none rfl
theorem Encode.kernelUnload (c : BitVec 8) (kid : BitVec 12) : Encode.Statement (.kernelUnload c kid) := Encode.of_none rfl
theorem Encode.queueEnable (q : BitVec 15) : Encode.Statement (.queueEnable q) := Encode.of_none rfl
theorem Encode.queueDisable (q : BitVec 15) : Encode.Statement (.queueDisable q) := Encode.of_none rfl
theorem Encode.queuePause (q : BitVec 15) : Encode.Statement (.queuePause q) := Encode.of_none rfl
theorem Encode.queueResume (q : BitVec 15) : Encode.Statement (.queueResume q) := Encode.of_none rfl
theorem Encode.queueReset (q : BitVec 15) : Encode.Statement (.queueReset q) := Encode.of_none rfl
theorem Encode.qdb (q : BitVec 15) (tail : BitVec 16) : Encode.Statement (.qdb q tail) := Encode.of_none rfl
theorem Encode.gintv (v : BitVec 64) : Encode.Statement (.gintv v) := Encode.of_none rfl
theorem Encode.proma (v : BitVec 64) : Encode.Statement (.proma v) := Encode.of_none rfl
theorem Encode.promoteRequest (h : BitVec 64) (line : BitVec 45) (c : BitVec 8) (src : BitVec 7) (tag : BitVec 16) : Encode.Statement (.promoteRequest h line c src tag) := Encode.of_none rfl
theorem Encode.promotion (h : BitVec 64) : Encode.Statement (.promotion h) := Encode.of_none rfl
theorem Encode.ilcmdInvalidatePage (c : BitVec 8) (va : BitVec 41) (sync : BitVec 1) : Encode.Statement (.ilcmdInvalidatePage c va sync) := Encode.of_none rfl
theorem Encode.ilcmdInvalidateContext (c : BitVec 8) (sync : BitVec 1) : Encode.Statement (.ilcmdInvalidateContext c sync) := Encode.of_none rfl
theorem Encode.ilcmdInvalidateAll (sync : BitVec 1) : Encode.Statement (.ilcmdInvalidateAll sync) := Encode.of_none rfl
theorem Encode.ilcmdSync : Encode.Statement (.ilcmdSync) := Encode.of_none rfl
theorem Encode.invalidationAppend (kind : BitVec 2) (c : BitVec 8) (va : BitVec 41) : Encode.Statement (.invalidationAppend kind c va) := Encode.of_none rfl
theorem Encode.pageWalk (core : BitVec 7) (c : BitVec 8) (va : BitVec 64) : Encode.Statement (.pageWalk core c va) := Encode.of_none rfl
theorem Encode.migh (v : BitVec 64) : Encode.Statement (.migh v) := Encode.of_none rfl
theorem Encode.migrationStep (e : BitVec 1) (n : BitVec 4) : Encode.Statement (.migrationStep e n) := Encode.of_none rfl
theorem Encode.ftccfg (n : BitVec 2) (v : BitVec 64) : Encode.Statement (.ftccfg n v) := Encode.of_none rfl
theorem Encode.ftcChangeDone (n : BitVec 2) : Encode.Statement (.ftcChangeDone n) := Encode.of_none rfl
theorem Encode.attaddr (v : BitVec 64) : Encode.Statement (.attaddr v) := Encode.of_none rfl
theorem Encode.attestationReportDone (rep : List (BitVec 8)) : Encode.Statement (.attestationReportDone rep) := Encode.of_none rfl
theorem Encode.fibmodeApply (port : BitVec 1) : Encode.Statement (.fibmodeApply port) := Encode.of_none rfl
theorem Encode.routeWrite (n : BitVec 6) (v : BitVec 64) : Encode.Statement (.routeWrite n v) := Encode.of_none rfl
theorem Encode.hostRegisterWrite (off : BitVec 12) (v : BitVec 64) : Encode.Statement (.hostRegisterWrite off v) := Encode.of_none rfl
theorem Encode.hostMemoryRead (pa : BitVec 52) (n : BitVec 8) : Encode.Statement (.hostMemoryRead pa n) := Encode.of_none rfl
theorem Encode.hostMemoryWrite (pa : BitVec 52) (bytes : List (BitVec 8)) : Encode.Statement (.hostMemoryWrite pa bytes) := Encode.of_none rfl
theorem Encode.writeQueueRequest (n : BitVec 2) : Encode.Statement (.writeQueueRequest n) := Encode.of_none rfl
theorem Encode.cacheFill (l2 : BitVec 1) (unit : BitVec 7) (line victim : BitVec 45) : Encode.Statement (.cacheFill l2 unit line victim) := Encode.of_none rfl
theorem Encode.refresh (stack : BitVec 4) (row : BitVec 40) : Encode.Statement (.refresh stack row) := Encode.of_none rfl
theorem Encode.bankFillDone (core : BitVec 7) (bank : BitVec 5) : Encode.Statement (.bankFillDone core bank) := Encode.of_none rfl
theorem Encode.bankWritebackDone (core : BitVec 7) (bank : BitVec 5) : Encode.Statement (.bankWritebackDone core bank) := Encode.of_none rfl
theorem Encode.packageReset (modid : BitVec 6) (cxl : BitVec 8) (fibre : BitVec 4) (sigs : BitVec 2) : Encode.Statement (.packageReset modid cxl fibre sigs) := Encode.of_none rfl
theorem Encode.functionReady (f : BitVec 8) : Encode.Statement (.functionReady f) := Encode.of_none rfl
theorem Encode.functionRestore (f : BitVec 8) : Encode.Statement (.functionRestore f) := Encode.of_none rfl
theorem Encode.managementInstall (serial : BitVec 64) (neigh : List (BitVec 7)) : Encode.Statement (.managementInstall serial neigh) := Encode.of_none rfl
theorem Encode.powerLimitThrottle : Encode.Statement (.powerLimitThrottle) := Encode.of_none rfl
theorem Encode.coreFault (core : BitVec 7) (unreadable : List (BitVec 64)) : Encode.Statement (.coreFault core unreadable) := Encode.of_none rfl
theorem Encode.spareTakeoverDone (die : BitVec 4) : Encode.Statement (.spareTakeoverDone die) := Encode.of_none rfl
theorem Encode.correctableError (u : BitVec 8) (idx : BitVec 16) (count : BitVec 32) : Encode.Statement (.correctableError u idx count) := Encode.of_none rfl
theorem Encode.storageLost (far : BitVec 1) (idx : BitVec 4) : Encode.Statement (.storageLost far idx) := Encode.of_none rfl
theorem Encode.linkTrained (n : BitVec 4) (waves : BitVec 5) (neighbour : BitVec 6) : Encode.Statement (.linkTrained n waves neighbour) := Encode.of_none rfl
theorem Encode.linkTrainingFailed (n : BitVec 4) : Encode.Statement (.linkTrainingFailed n) := Encode.of_none rfl
theorem Encode.wavelengthLost (n : BitVec 4) : Encode.Statement (.wavelengthLost n) := Encode.of_none rfl
theorem Encode.lightLost (n : BitVec 4) : Encode.Statement (.lightLost n) := Encode.of_none rfl
theorem Encode.linkManagementReset (n : BitVec 4) : Encode.Statement (.linkManagementReset n) := Encode.of_none rfl
theorem Encode.flitReceive (n : BitVec 4) (flit : BitVec 512) : Encode.Statement (.flitReceive n flit) := Encode.of_none rfl
theorem Encode.nakReceive (n : BitVec 4) (seq : BitVec 12) : Encode.Statement (.nakReceive n seq) := Encode.of_none rfl
theorem Encode.ackTimeout (n : BitVec 4) : Encode.Statement (.ackTimeout n) := Encode.of_none rfl
theorem Encode.rerouteResend (m : BitVec 6) : Encode.Statement (.rerouteResend m) := Encode.of_none rfl
theorem Encode.remoteRequest (p : Packet) : Encode.Statement (.remoteRequest p) := Encode.of_none rfl
theorem Encode.remoteReply (p : Packet) : Encode.Statement (.remoteReply p) := Encode.of_none rfl
theorem Encode.collectiveMatch (cg : BitVec 8) (seq : BitVec 32) (posts : List (BitVec 64 × BitVec 64)) : Encode.Statement (.collectiveMatch cg seq posts) := Encode.of_none rfl
theorem Encode.collectiveMatchTimeout (cg : BitVec 8) (seq : BitVec 32) : Encode.Statement (.collectiveMatchTimeout cg seq) := Encode.of_none rfl
theorem Encode.collectiveBucketStart (cg : BitVec 8) (seq b : BitVec 32) : Encode.Statement (.collectiveBucketStart cg seq b) := Encode.of_none rfl
theorem Encode.collectiveBucketDone (cg : BitVec 8) (seq b : BitVec 32) (xs : List (List (BitVec 32))) : Encode.Statement (.collectiveBucketDone cg seq b xs) := Encode.of_none rfl
theorem Encode.collectiveFailure (cg : BitVec 8) (seq : BitVec 32) (cause : BitVec 8) (m : BitVec 6) : Encode.Statement (.collectiveFailure cg seq cause m) := Encode.of_none rfl
theorem Encode.gangReadyReceived (g : BitVec 32) (m : BitVec 6) : Encode.Statement (.gangReadyReceived g m) := Encode.of_none rfl
theorem Encode.gangCommitReceived (g : BitVec 32) : Encode.Statement (.gangCommitReceived g) := Encode.of_none rfl
theorem Encode.gangAbortReceived (g : BitVec 32) (lacked : BitVec 6) : Encode.Statement (.gangAbortReceived g lacked) := Encode.of_none rfl
theorem Encode.gangQueryReceived (g : BitVec 32) (m : BitVec 6) : Encode.Statement (.gangQueryReceived g m) := Encode.of_none rfl
theorem Encode.gangLeaderTimeout (g : BitVec 32) : Encode.Statement (.gangLeaderTimeout g) := Encode.of_none rfl
theorem Encode.gangQueryTimeout (g : BitVec 32) : Encode.Statement (.gangQueryTimeout g) := Encode.of_none rfl
theorem Encode.gangAnswerTimeout (g : BitVec 32) : Encode.Statement (.gangAnswerTimeout g) := Encode.of_none rfl
theorem Encode.linkLightDetected (n : BitVec 4) : Encode.Statement (.linkLightDetected n) := Encode.of_none rfl
theorem Encode.gangDecisionExpiry (g : BitVec 32) : Encode.Statement (.gangDecisionExpiry g) := Encode.of_none rfl
theorem Encode.l2ReductionApplied (die : BitVec 4) : Encode.Statement (.l2ReductionApplied die) := Encode.of_none rfl
theorem Encode.interruptPacket (h : BitVec 64) (v : BitVec 32) (c : BitVec 8) (src : BitVec 6) (tag : BitVec 16) : Encode.Statement (.interruptPacket h v c src tag) := Encode.of_none rfl
theorem Encode.sessionControlFlit (str : BitVec 3) (kind : BitVec 2) (member : BitVec 14) (key : BitVec 6) (c : BitVec 8) (fields : BitVec 64) : Encode.Statement (.sessionControlFlit str kind member key c fields) := Encode.of_none rfl
theorem Encode.farWriteCompletion (line : BitVec 45) : Encode.Statement (.farWriteCompletion line) := Encode.of_none rfl

end Sys2Proof.Laws
end

