-- ==== Sys2Proof/Laws/State.lean ====
section
/-! SUPPORT. One lemma per field of the state and per update: what the update leaves in that field. Then the reads after
writes of the lists that hold registers, cores and dies. -/

namespace Sys2Proof.Machine

-- Lists as arrays ------------------------------------------------------------------------------------------------------

@[simp] theorem updAt_length {α : Type} (l : List α) (i : Nat) (f : α → α) : (updAt l i f).length = l.length := by
  induction l generalizing i with
  | nil => cases i <;> rfl
  | cons x xs ih => cases i <;> simp [updAt, ih]

theorem getD_updAt_self {α : Type} (l : List α) (i : Nat) (f : α → α) (d : α) (h : i < l.length) :
    (updAt l i f).getD i d = f (l.getD i d) := by
  induction l generalizing i with
  | nil => simp at h
  | cons x xs ih =>
    cases i with
    | zero => rfl
    | succ i => simpa [updAt] using ih i (by simpa using h)

theorem getD_updAt_other {α : Type} (l : List α) (i j : Nat) (f : α → α) (d : α) (h : i ≠ j) :
    (updAt l i f).getD j d = l.getD j d := by
  induction l generalizing i j with
  | nil => cases i <;> rfl
  | cons x xs ih =>
    cases i with
    | zero => cases j with
      | zero => exact absurd rfl h
      | succ j => rfl
    | succ i => cases j with
      | zero => rfl
      | succ j => simpa [updAt] using ih i j (fun e => h (by rw [e]))

@[simp] theorem getA_setA_self {α : Type} (l : List (Nat × α)) (k : Nat) (v d : α) : getA (setA l k v) k d = v := by
  induction l with
  | nil => simp [setA, getA]
  | cons p ps ih => by_cases h : p.1 = k <;> simp [setA, getA, h, ih]

theorem getA_setA_other {α : Type} (l : List (Nat × α)) (k j : Nat) (v d : α) (h : k ≠ j) : getA (setA l k v) j d = getA l j d := by
  induction l with
  | nil => simp [setA, getA, h]
  | cons p ps ih =>
    by_cases hk : p.1 = k
    · have : p.1 ≠ j := fun e => h (hk.symm.trans e)
      simp [setA, getA, hk, h]
    · have hb : (p.1 == k) = false := by simpa using hk
      unfold setA; rw [hb]; simp only [getA, Bool.false_eq_true, if_false, ih]

-- updGrp ------------------------------------------------------------------------------------------------------------

@[simp] theorem State.updGrp_cycle (s : State) (f : Group → Group) : (s.updGrp f).cycle = s.cycle := rfl
@[simp] theorem State.updGrp_clockMHz (s : State) (f : Group → Group) : (s.updGrp f).clockMHz = s.clockMHz := rfl
@[simp] theorem State.updGrp_modid (s : State) (f : Group → Group) : (s.updGrp f).modid = s.modid := rfl
@[simp] theorem State.updGrp_cxlMask (s : State) (f : Group → Group) : (s.updGrp f).cxlMask = s.cxlMask := rfl
@[simp] theorem State.updGrp_fibStrap (s : State) (f : Group → Group) : (s.updGrp f).fibStrap = s.fibStrap := rfl
@[simp] theorem State.updGrp_topo (s : State) (f : Group → Group) : (s.updGrp f).topo = s.topo := rfl
@[simp] theorem State.updGrp_keys (s : State) (f : Group → Group) : (s.updGrp f).keys = s.keys := rfl
@[simp] theorem State.updGrp_phase (s : State) (f : Group → Group) : (s.updGrp f).phase = s.phase := rfl
@[simp] theorem State.updGrp_reason (s : State) (f : Group → Group) : (s.updGrp f).reason = s.reason := rfl
@[simp] theorem State.updGrp_safe (s : State) (f : Group → Group) : (s.updGrp f).safe = s.safe := rfl
@[simp] theorem State.updGrp_ready (s : State) (f : Group → Group) : (s.updGrp f).ready = s.ready := rfl
@[simp] theorem State.updGrp_farCap (s : State) (f : Group → Group) : (s.updGrp f).farCap = s.farCap := rfl
@[simp] theorem State.updGrp_host (s : State) (f : Group → Group) : (s.updGrp f).host = s.host := rfl
@[simp] theorem State.updGrp_msiMask (s : State) (f : Group → Group) : (s.updGrp f).msiMask = s.msiMask := rfl
@[simp] theorem State.updGrp_msiPend (s : State) (f : Group → Group) : (s.updGrp f).msiPend = s.msiPend := rfl
@[simp] theorem State.updGrp_msiSent (s : State) (f : Group → Group) : (s.updGrp f).msiSent = s.msiSent := rfl
@[simp] theorem State.updGrp_replies (s : State) (f : Group → Group) : (s.updGrp f).replies = s.replies := rfl
@[simp] theorem State.updGrp_loading (s : State) (f : Group → Group) : (s.updGrp f).loading = s.loading := rfl
@[simp] theorem State.updGrp_ctxs (s : State) (f : Group → Group) : (s.updGrp f).ctxs = s.ctxs := rfl
@[simp] theorem State.updGrp_kerns (s : State) (f : Group → Group) : (s.updGrp f).kerns = s.kerns := rfl
@[simp] theorem State.updGrp_queues (s : State) (f : Group → Group) : (s.updGrp f).queues = s.queues := rfl
@[simp] theorem State.updGrp_serial (s : State) (f : Group → Group) : (s.updGrp f).serial = s.serial := rfl
@[simp] theorem State.updGrp_turns (s : State) (f : Group → Group) : (s.updGrp f).turns = s.turns := rfl
@[simp] theorem State.updGrp_grp (s : State) (f : Group → Group) : (s.updGrp f).grp = f s.grp := rfl
@[simp] theorem State.updGrp_others (s : State) (f : Group → Group) : (s.updGrp f).others = s.others := rfl
@[simp] theorem State.updGrp_strm (s : State) (f : Group → Group) : (s.updGrp f).strm = s.strm := rfl
@[simp] theorem State.updGrp_iw (s : State) (f : Group → Group) : (s.updGrp f).iw = s.iw := rfl
@[simp] theorem State.updGrp_ipc (s : State) (f : Group → Group) : (s.updGrp f).ipc = s.ipc := rfl
@[simp] theorem State.updGrp_agenda (s : State) (f : Group → Group) : (s.updGrp f).agenda = s.agenda := rfl
@[simp] theorem State.updGrp_fresh (s : State) (f : Group → Group) : (s.updGrp f).fresh = s.fresh := rfl
@[simp] theorem State.updGrp_cores (s : State) (f : Group → Group) : (s.updGrp f).cores = s.cores := rfl
@[simp] theorem State.updGrp_dies (s : State) (f : Group → Group) : (s.updGrp f).dies = s.dies := rfl
@[simp] theorem State.updGrp_ndies (s : State) (f : Group → Group) : (s.updGrp f).ndies = s.ndies := rfl
@[simp] theorem State.updGrp_mem (s : State) (f : Group → Group) : (s.updGrp f).mem = s.mem := rfl
@[simp] theorem State.updGrp_spareEcc (s : State) (f : Group → Group) : (s.updGrp f).spareEcc = s.spareEcc := rfl
@[simp] theorem State.updGrp_badBlocks (s : State) (f : Group → Group) : (s.updGrp f).badBlocks = s.badBlocks := rfl
@[simp] theorem State.updGrp_freed (s : State) (f : Group → Group) : (s.updGrp f).freed = s.freed := rfl
@[simp] theorem State.updGrp_lost (s : State) (f : Group → Group) : (s.updGrp f).lost = s.lost := rfl
@[simp] theorem State.updGrp_rowTimes (s : State) (f : Group → Group) : (s.updGrp f).rowTimes = s.rowTimes := rfl
@[simp] theorem State.updGrp_ilSeq (s : State) (f : Group → Group) : (s.updGrp f).ilSeq = s.ilSeq := rfl
@[simp] theorem State.updGrp_mighWait (s : State) (f : Group → Group) : (s.updGrp f).mighWait = s.mighWait := rfl
@[simp] theorem State.updGrp_migActive (s : State) (f : Group → Group) : (s.updGrp f).migActive = s.migActive := rfl
@[simp] theorem State.updGrp_migQueued (s : State) (f : Group → Group) : (s.updGrp f).migQueued = s.migQueued := rfl
@[simp] theorem State.updGrp_strs (s : State) (f : Group → Group) : (s.updGrp f).strs = s.strs := rfl
@[simp] theorem State.updGrp_links (s : State) (f : Group → Group) : (s.updGrp f).links = s.links := rfl
@[simp] theorem State.updGrp_dests (s : State) (f : Group → Group) : (s.updGrp f).dests = s.dests := rfl
@[simp] theorem State.updGrp_nextTag (s : State) (f : Group → Group) : (s.updGrp f).nextTag = s.nextTag := rfl
@[simp] theorem State.updGrp_tagOwner (s : State) (f : Group → Group) : (s.updGrp f).tagOwner = s.tagOwner := rfl
@[simp] theorem State.updGrp_outbox (s : State) (f : Group → Group) : (s.updGrp f).outbox = s.outbox := rfl
@[simp] theorem State.updGrp_remReds (s : State) (f : Group → Group) : (s.updGrp f).remReds = s.remReds := rfl
@[simp] theorem State.updGrp_corrected (s : State) (f : Group → Group) : (s.updGrp f).corrected = s.corrected := rfl
@[simp] theorem State.updGrp_colls (s : State) (f : Group → Group) : (s.updGrp f).colls = s.colls := rfl
@[simp] theorem State.updGrp_slots (s : State) (f : Group → Group) : (s.updGrp f).slots = s.slots := rfl
@[simp] theorem State.updGrp_devw (s : State) (f : Group → Group) : (s.updGrp f).devw = s.devw := rfl
@[simp] theorem State.updGrp_devOut (s : State) (f : Group → Group) : (s.updGrp f).devOut = s.devOut := rfl
@[simp] theorem State.updGrp_remWait (s : State) (f : Group → Group) : (s.updGrp f).remWait = s.remWait := rfl
@[simp] theorem State.updGrp_attSent (s : State) (f : Group → Group) : (s.updGrp f).attSent = s.attSent := rfl
@[simp] theorem State.updGrp_gangs (s : State) (f : Group → Group) : (s.updGrp f).gangs = s.gangs := rfl
@[simp] theorem State.updGrp_proms (s : State) (f : Group → Group) : (s.updGrp f).proms = s.proms := rfl

-- updCore -----------------------------------------------------------------------------------------------------------

@[simp] theorem State.updCore_cycle (s : State) (c : Nat) (f : Core → Core) : (s.updCore c f).cycle = s.cycle := rfl
@[simp] theorem State.updCore_clockMHz (s : State) (c : Nat) (f : Core → Core) : (s.updCore c f).clockMHz = s.clockMHz := rfl
@[simp] theorem State.updCore_modid (s : State) (c : Nat) (f : Core → Core) : (s.updCore c f).modid = s.modid := rfl
@[simp] theorem State.updCore_cxlMask (s : State) (c : Nat) (f : Core → Core) : (s.updCore c f).cxlMask = s.cxlMask := rfl
@[simp] theorem State.updCore_fibStrap (s : State) (c : Nat) (f : Core → Core) : (s.updCore c f).fibStrap = s.fibStrap := rfl
@[simp] theorem State.updCore_topo (s : State) (c : Nat) (f : Core → Core) : (s.updCore c f).topo = s.topo := rfl
@[simp] theorem State.updCore_keys (s : State) (c : Nat) (f : Core → Core) : (s.updCore c f).keys = s.keys := rfl
@[simp] theorem State.updCore_phase (s : State) (c : Nat) (f : Core → Core) : (s.updCore c f).phase = s.phase := rfl
@[simp] theorem State.updCore_reason (s : State) (c : Nat) (f : Core → Core) : (s.updCore c f).reason = s.reason := rfl
@[simp] theorem State.updCore_safe (s : State) (c : Nat) (f : Core → Core) : (s.updCore c f).safe = s.safe := rfl
@[simp] theorem State.updCore_ready (s : State) (c : Nat) (f : Core → Core) : (s.updCore c f).ready = s.ready := rfl
@[simp] theorem State.updCore_farCap (s : State) (c : Nat) (f : Core → Core) : (s.updCore c f).farCap = s.farCap := rfl
@[simp] theorem State.updCore_host (s : State) (c : Nat) (f : Core → Core) : (s.updCore c f).host = s.host := rfl
@[simp] theorem State.updCore_msiMask (s : State) (c : Nat) (f : Core → Core) : (s.updCore c f).msiMask = s.msiMask := rfl
@[simp] theorem State.updCore_msiPend (s : State) (c : Nat) (f : Core → Core) : (s.updCore c f).msiPend = s.msiPend := rfl
@[simp] theorem State.updCore_msiSent (s : State) (c : Nat) (f : Core → Core) : (s.updCore c f).msiSent = s.msiSent := rfl
@[simp] theorem State.updCore_replies (s : State) (c : Nat) (f : Core → Core) : (s.updCore c f).replies = s.replies := rfl
@[simp] theorem State.updCore_loading (s : State) (c : Nat) (f : Core → Core) : (s.updCore c f).loading = s.loading := rfl
@[simp] theorem State.updCore_ctxs (s : State) (c : Nat) (f : Core → Core) : (s.updCore c f).ctxs = s.ctxs := rfl
@[simp] theorem State.updCore_kerns (s : State) (c : Nat) (f : Core → Core) : (s.updCore c f).kerns = s.kerns := rfl
@[simp] theorem State.updCore_queues (s : State) (c : Nat) (f : Core → Core) : (s.updCore c f).queues = s.queues := rfl
@[simp] theorem State.updCore_serial (s : State) (c : Nat) (f : Core → Core) : (s.updCore c f).serial = s.serial := rfl
@[simp] theorem State.updCore_turns (s : State) (c : Nat) (f : Core → Core) : (s.updCore c f).turns = s.turns := rfl
@[simp] theorem State.updCore_grp (s : State) (c : Nat) (f : Core → Core) : (s.updCore c f).grp = s.grp := rfl
@[simp] theorem State.updCore_others (s : State) (c : Nat) (f : Core → Core) : (s.updCore c f).others = s.others := rfl
@[simp] theorem State.updCore_strm (s : State) (c : Nat) (f : Core → Core) : (s.updCore c f).strm = s.strm := rfl
@[simp] theorem State.updCore_iw (s : State) (c : Nat) (f : Core → Core) : (s.updCore c f).iw = s.iw := rfl
@[simp] theorem State.updCore_ipc (s : State) (c : Nat) (f : Core → Core) : (s.updCore c f).ipc = s.ipc := rfl
@[simp] theorem State.updCore_agenda (s : State) (c : Nat) (f : Core → Core) : (s.updCore c f).agenda = s.agenda := rfl
@[simp] theorem State.updCore_fresh (s : State) (c : Nat) (f : Core → Core) : (s.updCore c f).fresh = s.fresh := rfl
@[simp] theorem State.updCore_cores (s : State) (c : Nat) (f : Core → Core) : (s.updCore c f).cores = updAt s.cores c f := rfl
@[simp] theorem State.updCore_dies (s : State) (c : Nat) (f : Core → Core) : (s.updCore c f).dies = s.dies := rfl
@[simp] theorem State.updCore_ndies (s : State) (c : Nat) (f : Core → Core) : (s.updCore c f).ndies = s.ndies := rfl
@[simp] theorem State.updCore_mem (s : State) (c : Nat) (f : Core → Core) : (s.updCore c f).mem = s.mem := rfl
@[simp] theorem State.updCore_spareEcc (s : State) (c : Nat) (f : Core → Core) : (s.updCore c f).spareEcc = s.spareEcc := rfl
@[simp] theorem State.updCore_badBlocks (s : State) (c : Nat) (f : Core → Core) : (s.updCore c f).badBlocks = s.badBlocks := rfl
@[simp] theorem State.updCore_freed (s : State) (c : Nat) (f : Core → Core) : (s.updCore c f).freed = s.freed := rfl
@[simp] theorem State.updCore_lost (s : State) (c : Nat) (f : Core → Core) : (s.updCore c f).lost = s.lost := rfl
@[simp] theorem State.updCore_rowTimes (s : State) (c : Nat) (f : Core → Core) : (s.updCore c f).rowTimes = s.rowTimes := rfl
@[simp] theorem State.updCore_ilSeq (s : State) (c : Nat) (f : Core → Core) : (s.updCore c f).ilSeq = s.ilSeq := rfl
@[simp] theorem State.updCore_mighWait (s : State) (c : Nat) (f : Core → Core) : (s.updCore c f).mighWait = s.mighWait := rfl
@[simp] theorem State.updCore_migActive (s : State) (c : Nat) (f : Core → Core) : (s.updCore c f).migActive = s.migActive := rfl
@[simp] theorem State.updCore_migQueued (s : State) (c : Nat) (f : Core → Core) : (s.updCore c f).migQueued = s.migQueued := rfl
@[simp] theorem State.updCore_strs (s : State) (c : Nat) (f : Core → Core) : (s.updCore c f).strs = s.strs := rfl
@[simp] theorem State.updCore_links (s : State) (c : Nat) (f : Core → Core) : (s.updCore c f).links = s.links := rfl
@[simp] theorem State.updCore_dests (s : State) (c : Nat) (f : Core → Core) : (s.updCore c f).dests = s.dests := rfl
@[simp] theorem State.updCore_nextTag (s : State) (c : Nat) (f : Core → Core) : (s.updCore c f).nextTag = s.nextTag := rfl
@[simp] theorem State.updCore_tagOwner (s : State) (c : Nat) (f : Core → Core) : (s.updCore c f).tagOwner = s.tagOwner := rfl
@[simp] theorem State.updCore_outbox (s : State) (c : Nat) (f : Core → Core) : (s.updCore c f).outbox = s.outbox := rfl
@[simp] theorem State.updCore_remReds (s : State) (c : Nat) (f : Core → Core) : (s.updCore c f).remReds = s.remReds := rfl
@[simp] theorem State.updCore_corrected (s : State) (c : Nat) (f : Core → Core) : (s.updCore c f).corrected = s.corrected := rfl
@[simp] theorem State.updCore_colls (s : State) (c : Nat) (f : Core → Core) : (s.updCore c f).colls = s.colls := rfl
@[simp] theorem State.updCore_slots (s : State) (c : Nat) (f : Core → Core) : (s.updCore c f).slots = s.slots := rfl
@[simp] theorem State.updCore_devw (s : State) (c : Nat) (f : Core → Core) : (s.updCore c f).devw = s.devw := rfl
@[simp] theorem State.updCore_devOut (s : State) (c : Nat) (f : Core → Core) : (s.updCore c f).devOut = s.devOut := rfl
@[simp] theorem State.updCore_remWait (s : State) (c : Nat) (f : Core → Core) : (s.updCore c f).remWait = s.remWait := rfl
@[simp] theorem State.updCore_attSent (s : State) (c : Nat) (f : Core → Core) : (s.updCore c f).attSent = s.attSent := rfl
@[simp] theorem State.updCore_gangs (s : State) (c : Nat) (f : Core → Core) : (s.updCore c f).gangs = s.gangs := rfl
@[simp] theorem State.updCore_proms (s : State) (c : Nat) (f : Core → Core) : (s.updCore c f).proms = s.proms := rfl

-- updDie ------------------------------------------------------------------------------------------------------------

@[simp] theorem State.updDie_cycle (s : State) (d : Nat) (f : Die → Die) : (s.updDie d f).cycle = s.cycle := rfl
@[simp] theorem State.updDie_clockMHz (s : State) (d : Nat) (f : Die → Die) : (s.updDie d f).clockMHz = s.clockMHz := rfl
@[simp] theorem State.updDie_modid (s : State) (d : Nat) (f : Die → Die) : (s.updDie d f).modid = s.modid := rfl
@[simp] theorem State.updDie_cxlMask (s : State) (d : Nat) (f : Die → Die) : (s.updDie d f).cxlMask = s.cxlMask := rfl
@[simp] theorem State.updDie_fibStrap (s : State) (d : Nat) (f : Die → Die) : (s.updDie d f).fibStrap = s.fibStrap := rfl
@[simp] theorem State.updDie_topo (s : State) (d : Nat) (f : Die → Die) : (s.updDie d f).topo = s.topo := rfl
@[simp] theorem State.updDie_keys (s : State) (d : Nat) (f : Die → Die) : (s.updDie d f).keys = s.keys := rfl
@[simp] theorem State.updDie_phase (s : State) (d : Nat) (f : Die → Die) : (s.updDie d f).phase = s.phase := rfl
@[simp] theorem State.updDie_reason (s : State) (d : Nat) (f : Die → Die) : (s.updDie d f).reason = s.reason := rfl
@[simp] theorem State.updDie_safe (s : State) (d : Nat) (f : Die → Die) : (s.updDie d f).safe = s.safe := rfl
@[simp] theorem State.updDie_ready (s : State) (d : Nat) (f : Die → Die) : (s.updDie d f).ready = s.ready := rfl
@[simp] theorem State.updDie_farCap (s : State) (d : Nat) (f : Die → Die) : (s.updDie d f).farCap = s.farCap := rfl
@[simp] theorem State.updDie_host (s : State) (d : Nat) (f : Die → Die) : (s.updDie d f).host = s.host := rfl
@[simp] theorem State.updDie_msiMask (s : State) (d : Nat) (f : Die → Die) : (s.updDie d f).msiMask = s.msiMask := rfl
@[simp] theorem State.updDie_msiPend (s : State) (d : Nat) (f : Die → Die) : (s.updDie d f).msiPend = s.msiPend := rfl
@[simp] theorem State.updDie_msiSent (s : State) (d : Nat) (f : Die → Die) : (s.updDie d f).msiSent = s.msiSent := rfl
@[simp] theorem State.updDie_replies (s : State) (d : Nat) (f : Die → Die) : (s.updDie d f).replies = s.replies := rfl
@[simp] theorem State.updDie_loading (s : State) (d : Nat) (f : Die → Die) : (s.updDie d f).loading = s.loading := rfl
@[simp] theorem State.updDie_ctxs (s : State) (d : Nat) (f : Die → Die) : (s.updDie d f).ctxs = s.ctxs := rfl
@[simp] theorem State.updDie_kerns (s : State) (d : Nat) (f : Die → Die) : (s.updDie d f).kerns = s.kerns := rfl
@[simp] theorem State.updDie_queues (s : State) (d : Nat) (f : Die → Die) : (s.updDie d f).queues = s.queues := rfl
@[simp] theorem State.updDie_serial (s : State) (d : Nat) (f : Die → Die) : (s.updDie d f).serial = s.serial := rfl
@[simp] theorem State.updDie_turns (s : State) (d : Nat) (f : Die → Die) : (s.updDie d f).turns = s.turns := rfl
@[simp] theorem State.updDie_grp (s : State) (d : Nat) (f : Die → Die) : (s.updDie d f).grp = s.grp := rfl
@[simp] theorem State.updDie_others (s : State) (d : Nat) (f : Die → Die) : (s.updDie d f).others = s.others := rfl
@[simp] theorem State.updDie_strm (s : State) (d : Nat) (f : Die → Die) : (s.updDie d f).strm = s.strm := rfl
@[simp] theorem State.updDie_iw (s : State) (d : Nat) (f : Die → Die) : (s.updDie d f).iw = s.iw := rfl
@[simp] theorem State.updDie_ipc (s : State) (d : Nat) (f : Die → Die) : (s.updDie d f).ipc = s.ipc := rfl
@[simp] theorem State.updDie_agenda (s : State) (d : Nat) (f : Die → Die) : (s.updDie d f).agenda = s.agenda := rfl
@[simp] theorem State.updDie_fresh (s : State) (d : Nat) (f : Die → Die) : (s.updDie d f).fresh = s.fresh := rfl
@[simp] theorem State.updDie_cores (s : State) (d : Nat) (f : Die → Die) : (s.updDie d f).cores = s.cores := rfl
@[simp] theorem State.updDie_dies (s : State) (d : Nat) (f : Die → Die) : (s.updDie d f).dies = updAt s.dies d f := rfl
@[simp] theorem State.updDie_ndies (s : State) (d : Nat) (f : Die → Die) : (s.updDie d f).ndies = s.ndies := rfl
@[simp] theorem State.updDie_mem (s : State) (d : Nat) (f : Die → Die) : (s.updDie d f).mem = s.mem := rfl
@[simp] theorem State.updDie_spareEcc (s : State) (d : Nat) (f : Die → Die) : (s.updDie d f).spareEcc = s.spareEcc := rfl
@[simp] theorem State.updDie_badBlocks (s : State) (d : Nat) (f : Die → Die) : (s.updDie d f).badBlocks = s.badBlocks := rfl
@[simp] theorem State.updDie_freed (s : State) (d : Nat) (f : Die → Die) : (s.updDie d f).freed = s.freed := rfl
@[simp] theorem State.updDie_lost (s : State) (d : Nat) (f : Die → Die) : (s.updDie d f).lost = s.lost := rfl
@[simp] theorem State.updDie_rowTimes (s : State) (d : Nat) (f : Die → Die) : (s.updDie d f).rowTimes = s.rowTimes := rfl
@[simp] theorem State.updDie_ilSeq (s : State) (d : Nat) (f : Die → Die) : (s.updDie d f).ilSeq = s.ilSeq := rfl
@[simp] theorem State.updDie_mighWait (s : State) (d : Nat) (f : Die → Die) : (s.updDie d f).mighWait = s.mighWait := rfl
@[simp] theorem State.updDie_migActive (s : State) (d : Nat) (f : Die → Die) : (s.updDie d f).migActive = s.migActive := rfl
@[simp] theorem State.updDie_migQueued (s : State) (d : Nat) (f : Die → Die) : (s.updDie d f).migQueued = s.migQueued := rfl
@[simp] theorem State.updDie_strs (s : State) (d : Nat) (f : Die → Die) : (s.updDie d f).strs = s.strs := rfl
@[simp] theorem State.updDie_links (s : State) (d : Nat) (f : Die → Die) : (s.updDie d f).links = s.links := rfl
@[simp] theorem State.updDie_dests (s : State) (d : Nat) (f : Die → Die) : (s.updDie d f).dests = s.dests := rfl
@[simp] theorem State.updDie_nextTag (s : State) (d : Nat) (f : Die → Die) : (s.updDie d f).nextTag = s.nextTag := rfl
@[simp] theorem State.updDie_tagOwner (s : State) (d : Nat) (f : Die → Die) : (s.updDie d f).tagOwner = s.tagOwner := rfl
@[simp] theorem State.updDie_outbox (s : State) (d : Nat) (f : Die → Die) : (s.updDie d f).outbox = s.outbox := rfl
@[simp] theorem State.updDie_remReds (s : State) (d : Nat) (f : Die → Die) : (s.updDie d f).remReds = s.remReds := rfl
@[simp] theorem State.updDie_corrected (s : State) (d : Nat) (f : Die → Die) : (s.updDie d f).corrected = s.corrected := rfl
@[simp] theorem State.updDie_colls (s : State) (d : Nat) (f : Die → Die) : (s.updDie d f).colls = s.colls := rfl
@[simp] theorem State.updDie_slots (s : State) (d : Nat) (f : Die → Die) : (s.updDie d f).slots = s.slots := rfl
@[simp] theorem State.updDie_devw (s : State) (d : Nat) (f : Die → Die) : (s.updDie d f).devw = s.devw := rfl
@[simp] theorem State.updDie_devOut (s : State) (d : Nat) (f : Die → Die) : (s.updDie d f).devOut = s.devOut := rfl
@[simp] theorem State.updDie_remWait (s : State) (d : Nat) (f : Die → Die) : (s.updDie d f).remWait = s.remWait := rfl
@[simp] theorem State.updDie_attSent (s : State) (d : Nat) (f : Die → Die) : (s.updDie d f).attSent = s.attSent := rfl
@[simp] theorem State.updDie_gangs (s : State) (d : Nat) (f : Die → Die) : (s.updDie d f).gangs = s.gangs := rfl
@[simp] theorem State.updDie_proms (s : State) (d : Nat) (f : Die → Die) : (s.updDie d f).proms = s.proms := rfl

-- updNDie -----------------------------------------------------------------------------------------------------------

@[simp] theorem State.updNDie_cycle (s : State) (n : Nat) (f : NDie → NDie) : (s.updNDie n f).cycle = s.cycle := rfl
@[simp] theorem State.updNDie_clockMHz (s : State) (n : Nat) (f : NDie → NDie) : (s.updNDie n f).clockMHz = s.clockMHz := rfl
@[simp] theorem State.updNDie_modid (s : State) (n : Nat) (f : NDie → NDie) : (s.updNDie n f).modid = s.modid := rfl
@[simp] theorem State.updNDie_cxlMask (s : State) (n : Nat) (f : NDie → NDie) : (s.updNDie n f).cxlMask = s.cxlMask := rfl
@[simp] theorem State.updNDie_fibStrap (s : State) (n : Nat) (f : NDie → NDie) : (s.updNDie n f).fibStrap = s.fibStrap := rfl
@[simp] theorem State.updNDie_topo (s : State) (n : Nat) (f : NDie → NDie) : (s.updNDie n f).topo = s.topo := rfl
@[simp] theorem State.updNDie_keys (s : State) (n : Nat) (f : NDie → NDie) : (s.updNDie n f).keys = s.keys := rfl
@[simp] theorem State.updNDie_phase (s : State) (n : Nat) (f : NDie → NDie) : (s.updNDie n f).phase = s.phase := rfl
@[simp] theorem State.updNDie_reason (s : State) (n : Nat) (f : NDie → NDie) : (s.updNDie n f).reason = s.reason := rfl
@[simp] theorem State.updNDie_safe (s : State) (n : Nat) (f : NDie → NDie) : (s.updNDie n f).safe = s.safe := rfl
@[simp] theorem State.updNDie_ready (s : State) (n : Nat) (f : NDie → NDie) : (s.updNDie n f).ready = s.ready := rfl
@[simp] theorem State.updNDie_farCap (s : State) (n : Nat) (f : NDie → NDie) : (s.updNDie n f).farCap = s.farCap := rfl
@[simp] theorem State.updNDie_host (s : State) (n : Nat) (f : NDie → NDie) : (s.updNDie n f).host = s.host := rfl
@[simp] theorem State.updNDie_msiMask (s : State) (n : Nat) (f : NDie → NDie) : (s.updNDie n f).msiMask = s.msiMask := rfl
@[simp] theorem State.updNDie_msiPend (s : State) (n : Nat) (f : NDie → NDie) : (s.updNDie n f).msiPend = s.msiPend := rfl
@[simp] theorem State.updNDie_msiSent (s : State) (n : Nat) (f : NDie → NDie) : (s.updNDie n f).msiSent = s.msiSent := rfl
@[simp] theorem State.updNDie_replies (s : State) (n : Nat) (f : NDie → NDie) : (s.updNDie n f).replies = s.replies := rfl
@[simp] theorem State.updNDie_loading (s : State) (n : Nat) (f : NDie → NDie) : (s.updNDie n f).loading = s.loading := rfl
@[simp] theorem State.updNDie_ctxs (s : State) (n : Nat) (f : NDie → NDie) : (s.updNDie n f).ctxs = s.ctxs := rfl
@[simp] theorem State.updNDie_kerns (s : State) (n : Nat) (f : NDie → NDie) : (s.updNDie n f).kerns = s.kerns := rfl
@[simp] theorem State.updNDie_queues (s : State) (n : Nat) (f : NDie → NDie) : (s.updNDie n f).queues = s.queues := rfl
@[simp] theorem State.updNDie_serial (s : State) (n : Nat) (f : NDie → NDie) : (s.updNDie n f).serial = s.serial := rfl
@[simp] theorem State.updNDie_turns (s : State) (n : Nat) (f : NDie → NDie) : (s.updNDie n f).turns = s.turns := rfl
@[simp] theorem State.updNDie_grp (s : State) (n : Nat) (f : NDie → NDie) : (s.updNDie n f).grp = s.grp := rfl
@[simp] theorem State.updNDie_others (s : State) (n : Nat) (f : NDie → NDie) : (s.updNDie n f).others = s.others := rfl
@[simp] theorem State.updNDie_strm (s : State) (n : Nat) (f : NDie → NDie) : (s.updNDie n f).strm = s.strm := rfl
@[simp] theorem State.updNDie_iw (s : State) (n : Nat) (f : NDie → NDie) : (s.updNDie n f).iw = s.iw := rfl
@[simp] theorem State.updNDie_ipc (s : State) (n : Nat) (f : NDie → NDie) : (s.updNDie n f).ipc = s.ipc := rfl
@[simp] theorem State.updNDie_agenda (s : State) (n : Nat) (f : NDie → NDie) : (s.updNDie n f).agenda = s.agenda := rfl
@[simp] theorem State.updNDie_fresh (s : State) (n : Nat) (f : NDie → NDie) : (s.updNDie n f).fresh = s.fresh := rfl
@[simp] theorem State.updNDie_cores (s : State) (n : Nat) (f : NDie → NDie) : (s.updNDie n f).cores = s.cores := rfl
@[simp] theorem State.updNDie_dies (s : State) (n : Nat) (f : NDie → NDie) : (s.updNDie n f).dies = s.dies := rfl
@[simp] theorem State.updNDie_ndies (s : State) (n : Nat) (f : NDie → NDie) : (s.updNDie n f).ndies = updAt s.ndies n f := rfl
@[simp] theorem State.updNDie_mem (s : State) (n : Nat) (f : NDie → NDie) : (s.updNDie n f).mem = s.mem := rfl
@[simp] theorem State.updNDie_spareEcc (s : State) (n : Nat) (f : NDie → NDie) : (s.updNDie n f).spareEcc = s.spareEcc := rfl
@[simp] theorem State.updNDie_badBlocks (s : State) (n : Nat) (f : NDie → NDie) : (s.updNDie n f).badBlocks = s.badBlocks := rfl
@[simp] theorem State.updNDie_freed (s : State) (n : Nat) (f : NDie → NDie) : (s.updNDie n f).freed = s.freed := rfl
@[simp] theorem State.updNDie_lost (s : State) (n : Nat) (f : NDie → NDie) : (s.updNDie n f).lost = s.lost := rfl
@[simp] theorem State.updNDie_rowTimes (s : State) (n : Nat) (f : NDie → NDie) : (s.updNDie n f).rowTimes = s.rowTimes := rfl
@[simp] theorem State.updNDie_ilSeq (s : State) (n : Nat) (f : NDie → NDie) : (s.updNDie n f).ilSeq = s.ilSeq := rfl
@[simp] theorem State.updNDie_mighWait (s : State) (n : Nat) (f : NDie → NDie) : (s.updNDie n f).mighWait = s.mighWait := rfl
@[simp] theorem State.updNDie_migActive (s : State) (n : Nat) (f : NDie → NDie) : (s.updNDie n f).migActive = s.migActive := rfl
@[simp] theorem State.updNDie_migQueued (s : State) (n : Nat) (f : NDie → NDie) : (s.updNDie n f).migQueued = s.migQueued := rfl
@[simp] theorem State.updNDie_strs (s : State) (n : Nat) (f : NDie → NDie) : (s.updNDie n f).strs = s.strs := rfl
@[simp] theorem State.updNDie_links (s : State) (n : Nat) (f : NDie → NDie) : (s.updNDie n f).links = s.links := rfl
@[simp] theorem State.updNDie_dests (s : State) (n : Nat) (f : NDie → NDie) : (s.updNDie n f).dests = s.dests := rfl
@[simp] theorem State.updNDie_nextTag (s : State) (n : Nat) (f : NDie → NDie) : (s.updNDie n f).nextTag = s.nextTag := rfl
@[simp] theorem State.updNDie_tagOwner (s : State) (n : Nat) (f : NDie → NDie) : (s.updNDie n f).tagOwner = s.tagOwner := rfl
@[simp] theorem State.updNDie_outbox (s : State) (n : Nat) (f : NDie → NDie) : (s.updNDie n f).outbox = s.outbox := rfl
@[simp] theorem State.updNDie_remReds (s : State) (n : Nat) (f : NDie → NDie) : (s.updNDie n f).remReds = s.remReds := rfl
@[simp] theorem State.updNDie_corrected (s : State) (n : Nat) (f : NDie → NDie) : (s.updNDie n f).corrected = s.corrected := rfl
@[simp] theorem State.updNDie_colls (s : State) (n : Nat) (f : NDie → NDie) : (s.updNDie n f).colls = s.colls := rfl
@[simp] theorem State.updNDie_slots (s : State) (n : Nat) (f : NDie → NDie) : (s.updNDie n f).slots = s.slots := rfl
@[simp] theorem State.updNDie_devw (s : State) (n : Nat) (f : NDie → NDie) : (s.updNDie n f).devw = s.devw := rfl
@[simp] theorem State.updNDie_devOut (s : State) (n : Nat) (f : NDie → NDie) : (s.updNDie n f).devOut = s.devOut := rfl
@[simp] theorem State.updNDie_remWait (s : State) (n : Nat) (f : NDie → NDie) : (s.updNDie n f).remWait = s.remWait := rfl
@[simp] theorem State.updNDie_attSent (s : State) (n : Nat) (f : NDie → NDie) : (s.updNDie n f).attSent = s.attSent := rfl
@[simp] theorem State.updNDie_gangs (s : State) (n : Nat) (f : NDie → NDie) : (s.updNDie n f).gangs = s.gangs := rfl
@[simp] theorem State.updNDie_proms (s : State) (n : Nat) (f : NDie → NDie) : (s.updNDie n f).proms = s.proms := rfl

-- updStr ------------------------------------------------------------------------------------------------------------

@[simp] theorem State.updStr_cycle (s : State) (n : Nat) (f : Str → Str) : (s.updStr n f).cycle = s.cycle := rfl
@[simp] theorem State.updStr_clockMHz (s : State) (n : Nat) (f : Str → Str) : (s.updStr n f).clockMHz = s.clockMHz := rfl
@[simp] theorem State.updStr_modid (s : State) (n : Nat) (f : Str → Str) : (s.updStr n f).modid = s.modid := rfl
@[simp] theorem State.updStr_cxlMask (s : State) (n : Nat) (f : Str → Str) : (s.updStr n f).cxlMask = s.cxlMask := rfl
@[simp] theorem State.updStr_fibStrap (s : State) (n : Nat) (f : Str → Str) : (s.updStr n f).fibStrap = s.fibStrap := rfl
@[simp] theorem State.updStr_topo (s : State) (n : Nat) (f : Str → Str) : (s.updStr n f).topo = s.topo := rfl
@[simp] theorem State.updStr_keys (s : State) (n : Nat) (f : Str → Str) : (s.updStr n f).keys = s.keys := rfl
@[simp] theorem State.updStr_phase (s : State) (n : Nat) (f : Str → Str) : (s.updStr n f).phase = s.phase := rfl
@[simp] theorem State.updStr_reason (s : State) (n : Nat) (f : Str → Str) : (s.updStr n f).reason = s.reason := rfl
@[simp] theorem State.updStr_safe (s : State) (n : Nat) (f : Str → Str) : (s.updStr n f).safe = s.safe := rfl
@[simp] theorem State.updStr_ready (s : State) (n : Nat) (f : Str → Str) : (s.updStr n f).ready = s.ready := rfl
@[simp] theorem State.updStr_farCap (s : State) (n : Nat) (f : Str → Str) : (s.updStr n f).farCap = s.farCap := rfl
@[simp] theorem State.updStr_host (s : State) (n : Nat) (f : Str → Str) : (s.updStr n f).host = s.host := rfl
@[simp] theorem State.updStr_msiMask (s : State) (n : Nat) (f : Str → Str) : (s.updStr n f).msiMask = s.msiMask := rfl
@[simp] theorem State.updStr_msiPend (s : State) (n : Nat) (f : Str → Str) : (s.updStr n f).msiPend = s.msiPend := rfl
@[simp] theorem State.updStr_msiSent (s : State) (n : Nat) (f : Str → Str) : (s.updStr n f).msiSent = s.msiSent := rfl
@[simp] theorem State.updStr_replies (s : State) (n : Nat) (f : Str → Str) : (s.updStr n f).replies = s.replies := rfl
@[simp] theorem State.updStr_loading (s : State) (n : Nat) (f : Str → Str) : (s.updStr n f).loading = s.loading := rfl
@[simp] theorem State.updStr_ctxs (s : State) (n : Nat) (f : Str → Str) : (s.updStr n f).ctxs = s.ctxs := rfl
@[simp] theorem State.updStr_kerns (s : State) (n : Nat) (f : Str → Str) : (s.updStr n f).kerns = s.kerns := rfl
@[simp] theorem State.updStr_queues (s : State) (n : Nat) (f : Str → Str) : (s.updStr n f).queues = s.queues := rfl
@[simp] theorem State.updStr_serial (s : State) (n : Nat) (f : Str → Str) : (s.updStr n f).serial = s.serial := rfl
@[simp] theorem State.updStr_turns (s : State) (n : Nat) (f : Str → Str) : (s.updStr n f).turns = s.turns := rfl
@[simp] theorem State.updStr_grp (s : State) (n : Nat) (f : Str → Str) : (s.updStr n f).grp = s.grp := rfl
@[simp] theorem State.updStr_others (s : State) (n : Nat) (f : Str → Str) : (s.updStr n f).others = s.others := rfl
@[simp] theorem State.updStr_strm (s : State) (n : Nat) (f : Str → Str) : (s.updStr n f).strm = s.strm := rfl
@[simp] theorem State.updStr_iw (s : State) (n : Nat) (f : Str → Str) : (s.updStr n f).iw = s.iw := rfl
@[simp] theorem State.updStr_ipc (s : State) (n : Nat) (f : Str → Str) : (s.updStr n f).ipc = s.ipc := rfl
@[simp] theorem State.updStr_agenda (s : State) (n : Nat) (f : Str → Str) : (s.updStr n f).agenda = s.agenda := rfl
@[simp] theorem State.updStr_fresh (s : State) (n : Nat) (f : Str → Str) : (s.updStr n f).fresh = s.fresh := rfl
@[simp] theorem State.updStr_cores (s : State) (n : Nat) (f : Str → Str) : (s.updStr n f).cores = s.cores := rfl
@[simp] theorem State.updStr_dies (s : State) (n : Nat) (f : Str → Str) : (s.updStr n f).dies = s.dies := rfl
@[simp] theorem State.updStr_ndies (s : State) (n : Nat) (f : Str → Str) : (s.updStr n f).ndies = s.ndies := rfl
@[simp] theorem State.updStr_mem (s : State) (n : Nat) (f : Str → Str) : (s.updStr n f).mem = s.mem := rfl
@[simp] theorem State.updStr_spareEcc (s : State) (n : Nat) (f : Str → Str) : (s.updStr n f).spareEcc = s.spareEcc := rfl
@[simp] theorem State.updStr_badBlocks (s : State) (n : Nat) (f : Str → Str) : (s.updStr n f).badBlocks = s.badBlocks := rfl
@[simp] theorem State.updStr_freed (s : State) (n : Nat) (f : Str → Str) : (s.updStr n f).freed = s.freed := rfl
@[simp] theorem State.updStr_lost (s : State) (n : Nat) (f : Str → Str) : (s.updStr n f).lost = s.lost := rfl
@[simp] theorem State.updStr_rowTimes (s : State) (n : Nat) (f : Str → Str) : (s.updStr n f).rowTimes = s.rowTimes := rfl
@[simp] theorem State.updStr_ilSeq (s : State) (n : Nat) (f : Str → Str) : (s.updStr n f).ilSeq = s.ilSeq := rfl
@[simp] theorem State.updStr_mighWait (s : State) (n : Nat) (f : Str → Str) : (s.updStr n f).mighWait = s.mighWait := rfl
@[simp] theorem State.updStr_migActive (s : State) (n : Nat) (f : Str → Str) : (s.updStr n f).migActive = s.migActive := rfl
@[simp] theorem State.updStr_migQueued (s : State) (n : Nat) (f : Str → Str) : (s.updStr n f).migQueued = s.migQueued := rfl
@[simp] theorem State.updStr_strs (s : State) (n : Nat) (f : Str → Str) : (s.updStr n f).strs = updAt s.strs n f := rfl
@[simp] theorem State.updStr_links (s : State) (n : Nat) (f : Str → Str) : (s.updStr n f).links = s.links := rfl
@[simp] theorem State.updStr_dests (s : State) (n : Nat) (f : Str → Str) : (s.updStr n f).dests = s.dests := rfl
@[simp] theorem State.updStr_nextTag (s : State) (n : Nat) (f : Str → Str) : (s.updStr n f).nextTag = s.nextTag := rfl
@[simp] theorem State.updStr_tagOwner (s : State) (n : Nat) (f : Str → Str) : (s.updStr n f).tagOwner = s.tagOwner := rfl
@[simp] theorem State.updStr_outbox (s : State) (n : Nat) (f : Str → Str) : (s.updStr n f).outbox = s.outbox := rfl
@[simp] theorem State.updStr_remReds (s : State) (n : Nat) (f : Str → Str) : (s.updStr n f).remReds = s.remReds := rfl
@[simp] theorem State.updStr_corrected (s : State) (n : Nat) (f : Str → Str) : (s.updStr n f).corrected = s.corrected := rfl
@[simp] theorem State.updStr_colls (s : State) (n : Nat) (f : Str → Str) : (s.updStr n f).colls = s.colls := rfl
@[simp] theorem State.updStr_slots (s : State) (n : Nat) (f : Str → Str) : (s.updStr n f).slots = s.slots := rfl
@[simp] theorem State.updStr_devw (s : State) (n : Nat) (f : Str → Str) : (s.updStr n f).devw = s.devw := rfl
@[simp] theorem State.updStr_devOut (s : State) (n : Nat) (f : Str → Str) : (s.updStr n f).devOut = s.devOut := rfl
@[simp] theorem State.updStr_remWait (s : State) (n : Nat) (f : Str → Str) : (s.updStr n f).remWait = s.remWait := rfl
@[simp] theorem State.updStr_attSent (s : State) (n : Nat) (f : Str → Str) : (s.updStr n f).attSent = s.attSent := rfl
@[simp] theorem State.updStr_gangs (s : State) (n : Nat) (f : Str → Str) : (s.updStr n f).gangs = s.gangs := rfl
@[simp] theorem State.updStr_proms (s : State) (n : Nat) (f : Str → Str) : (s.updStr n f).proms = s.proms := rfl

-- updCtx ------------------------------------------------------------------------------------------------------------

@[simp] theorem State.updCtx_cycle (s : State) (c : Nat) (f : Ctx → Ctx) : (s.updCtx c f).cycle = s.cycle := rfl
@[simp] theorem State.updCtx_clockMHz (s : State) (c : Nat) (f : Ctx → Ctx) : (s.updCtx c f).clockMHz = s.clockMHz := rfl
@[simp] theorem State.updCtx_modid (s : State) (c : Nat) (f : Ctx → Ctx) : (s.updCtx c f).modid = s.modid := rfl
@[simp] theorem State.updCtx_cxlMask (s : State) (c : Nat) (f : Ctx → Ctx) : (s.updCtx c f).cxlMask = s.cxlMask := rfl
@[simp] theorem State.updCtx_fibStrap (s : State) (c : Nat) (f : Ctx → Ctx) : (s.updCtx c f).fibStrap = s.fibStrap := rfl
@[simp] theorem State.updCtx_topo (s : State) (c : Nat) (f : Ctx → Ctx) : (s.updCtx c f).topo = s.topo := rfl
@[simp] theorem State.updCtx_keys (s : State) (c : Nat) (f : Ctx → Ctx) : (s.updCtx c f).keys = s.keys := rfl
@[simp] theorem State.updCtx_phase (s : State) (c : Nat) (f : Ctx → Ctx) : (s.updCtx c f).phase = s.phase := rfl
@[simp] theorem State.updCtx_reason (s : State) (c : Nat) (f : Ctx → Ctx) : (s.updCtx c f).reason = s.reason := rfl
@[simp] theorem State.updCtx_safe (s : State) (c : Nat) (f : Ctx → Ctx) : (s.updCtx c f).safe = s.safe := rfl
@[simp] theorem State.updCtx_ready (s : State) (c : Nat) (f : Ctx → Ctx) : (s.updCtx c f).ready = s.ready := rfl
@[simp] theorem State.updCtx_farCap (s : State) (c : Nat) (f : Ctx → Ctx) : (s.updCtx c f).farCap = s.farCap := rfl
@[simp] theorem State.updCtx_host (s : State) (c : Nat) (f : Ctx → Ctx) : (s.updCtx c f).host = s.host := rfl
@[simp] theorem State.updCtx_msiMask (s : State) (c : Nat) (f : Ctx → Ctx) : (s.updCtx c f).msiMask = s.msiMask := rfl
@[simp] theorem State.updCtx_msiPend (s : State) (c : Nat) (f : Ctx → Ctx) : (s.updCtx c f).msiPend = s.msiPend := rfl
@[simp] theorem State.updCtx_msiSent (s : State) (c : Nat) (f : Ctx → Ctx) : (s.updCtx c f).msiSent = s.msiSent := rfl
@[simp] theorem State.updCtx_replies (s : State) (c : Nat) (f : Ctx → Ctx) : (s.updCtx c f).replies = s.replies := rfl
@[simp] theorem State.updCtx_loading (s : State) (c : Nat) (f : Ctx → Ctx) : (s.updCtx c f).loading = s.loading := rfl
@[simp] theorem State.updCtx_ctxs (s : State) (c : Nat) (f : Ctx → Ctx) : (s.updCtx c f).ctxs = setA s.ctxs c (f (s.ctx c)) := rfl
@[simp] theorem State.updCtx_kerns (s : State) (c : Nat) (f : Ctx → Ctx) : (s.updCtx c f).kerns = s.kerns := rfl
@[simp] theorem State.updCtx_queues (s : State) (c : Nat) (f : Ctx → Ctx) : (s.updCtx c f).queues = s.queues := rfl
@[simp] theorem State.updCtx_serial (s : State) (c : Nat) (f : Ctx → Ctx) : (s.updCtx c f).serial = s.serial := rfl
@[simp] theorem State.updCtx_turns (s : State) (c : Nat) (f : Ctx → Ctx) : (s.updCtx c f).turns = s.turns := rfl
@[simp] theorem State.updCtx_grp (s : State) (c : Nat) (f : Ctx → Ctx) : (s.updCtx c f).grp = s.grp := rfl
@[simp] theorem State.updCtx_others (s : State) (c : Nat) (f : Ctx → Ctx) : (s.updCtx c f).others = s.others := rfl
@[simp] theorem State.updCtx_strm (s : State) (c : Nat) (f : Ctx → Ctx) : (s.updCtx c f).strm = s.strm := rfl
@[simp] theorem State.updCtx_iw (s : State) (c : Nat) (f : Ctx → Ctx) : (s.updCtx c f).iw = s.iw := rfl
@[simp] theorem State.updCtx_ipc (s : State) (c : Nat) (f : Ctx → Ctx) : (s.updCtx c f).ipc = s.ipc := rfl
@[simp] theorem State.updCtx_agenda (s : State) (c : Nat) (f : Ctx → Ctx) : (s.updCtx c f).agenda = s.agenda := rfl
@[simp] theorem State.updCtx_fresh (s : State) (c : Nat) (f : Ctx → Ctx) : (s.updCtx c f).fresh = s.fresh := rfl
@[simp] theorem State.updCtx_cores (s : State) (c : Nat) (f : Ctx → Ctx) : (s.updCtx c f).cores = s.cores := rfl
@[simp] theorem State.updCtx_dies (s : State) (c : Nat) (f : Ctx → Ctx) : (s.updCtx c f).dies = s.dies := rfl
@[simp] theorem State.updCtx_ndies (s : State) (c : Nat) (f : Ctx → Ctx) : (s.updCtx c f).ndies = s.ndies := rfl
@[simp] theorem State.updCtx_mem (s : State) (c : Nat) (f : Ctx → Ctx) : (s.updCtx c f).mem = s.mem := rfl
@[simp] theorem State.updCtx_spareEcc (s : State) (c : Nat) (f : Ctx → Ctx) : (s.updCtx c f).spareEcc = s.spareEcc := rfl
@[simp] theorem State.updCtx_badBlocks (s : State) (c : Nat) (f : Ctx → Ctx) : (s.updCtx c f).badBlocks = s.badBlocks := rfl
@[simp] theorem State.updCtx_freed (s : State) (c : Nat) (f : Ctx → Ctx) : (s.updCtx c f).freed = s.freed := rfl
@[simp] theorem State.updCtx_lost (s : State) (c : Nat) (f : Ctx → Ctx) : (s.updCtx c f).lost = s.lost := rfl
@[simp] theorem State.updCtx_rowTimes (s : State) (c : Nat) (f : Ctx → Ctx) : (s.updCtx c f).rowTimes = s.rowTimes := rfl
@[simp] theorem State.updCtx_ilSeq (s : State) (c : Nat) (f : Ctx → Ctx) : (s.updCtx c f).ilSeq = s.ilSeq := rfl
@[simp] theorem State.updCtx_mighWait (s : State) (c : Nat) (f : Ctx → Ctx) : (s.updCtx c f).mighWait = s.mighWait := rfl
@[simp] theorem State.updCtx_migActive (s : State) (c : Nat) (f : Ctx → Ctx) : (s.updCtx c f).migActive = s.migActive := rfl
@[simp] theorem State.updCtx_migQueued (s : State) (c : Nat) (f : Ctx → Ctx) : (s.updCtx c f).migQueued = s.migQueued := rfl
@[simp] theorem State.updCtx_strs (s : State) (c : Nat) (f : Ctx → Ctx) : (s.updCtx c f).strs = s.strs := rfl
@[simp] theorem State.updCtx_links (s : State) (c : Nat) (f : Ctx → Ctx) : (s.updCtx c f).links = s.links := rfl
@[simp] theorem State.updCtx_dests (s : State) (c : Nat) (f : Ctx → Ctx) : (s.updCtx c f).dests = s.dests := rfl
@[simp] theorem State.updCtx_nextTag (s : State) (c : Nat) (f : Ctx → Ctx) : (s.updCtx c f).nextTag = s.nextTag := rfl
@[simp] theorem State.updCtx_tagOwner (s : State) (c : Nat) (f : Ctx → Ctx) : (s.updCtx c f).tagOwner = s.tagOwner := rfl
@[simp] theorem State.updCtx_outbox (s : State) (c : Nat) (f : Ctx → Ctx) : (s.updCtx c f).outbox = s.outbox := rfl
@[simp] theorem State.updCtx_remReds (s : State) (c : Nat) (f : Ctx → Ctx) : (s.updCtx c f).remReds = s.remReds := rfl
@[simp] theorem State.updCtx_corrected (s : State) (c : Nat) (f : Ctx → Ctx) : (s.updCtx c f).corrected = s.corrected := rfl
@[simp] theorem State.updCtx_colls (s : State) (c : Nat) (f : Ctx → Ctx) : (s.updCtx c f).colls = s.colls := rfl
@[simp] theorem State.updCtx_slots (s : State) (c : Nat) (f : Ctx → Ctx) : (s.updCtx c f).slots = s.slots := rfl
@[simp] theorem State.updCtx_devw (s : State) (c : Nat) (f : Ctx → Ctx) : (s.updCtx c f).devw = s.devw := rfl
@[simp] theorem State.updCtx_devOut (s : State) (c : Nat) (f : Ctx → Ctx) : (s.updCtx c f).devOut = s.devOut := rfl
@[simp] theorem State.updCtx_remWait (s : State) (c : Nat) (f : Ctx → Ctx) : (s.updCtx c f).remWait = s.remWait := rfl
@[simp] theorem State.updCtx_attSent (s : State) (c : Nat) (f : Ctx → Ctx) : (s.updCtx c f).attSent = s.attSent := rfl
@[simp] theorem State.updCtx_gangs (s : State) (c : Nat) (f : Ctx → Ctx) : (s.updCtx c f).gangs = s.gangs := rfl
@[simp] theorem State.updCtx_proms (s : State) (c : Nat) (f : Ctx → Ctx) : (s.updCtx c f).proms = s.proms := rfl

-- updKern -----------------------------------------------------------------------------------------------------------

@[simp] theorem State.updKern_cycle (s : State) (k : Nat) (f : Kern → Kern) : (s.updKern k f).cycle = s.cycle := rfl
@[simp] theorem State.updKern_clockMHz (s : State) (k : Nat) (f : Kern → Kern) : (s.updKern k f).clockMHz = s.clockMHz := rfl
@[simp] theorem State.updKern_modid (s : State) (k : Nat) (f : Kern → Kern) : (s.updKern k f).modid = s.modid := rfl
@[simp] theorem State.updKern_cxlMask (s : State) (k : Nat) (f : Kern → Kern) : (s.updKern k f).cxlMask = s.cxlMask := rfl
@[simp] theorem State.updKern_fibStrap (s : State) (k : Nat) (f : Kern → Kern) : (s.updKern k f).fibStrap = s.fibStrap := rfl
@[simp] theorem State.updKern_topo (s : State) (k : Nat) (f : Kern → Kern) : (s.updKern k f).topo = s.topo := rfl
@[simp] theorem State.updKern_keys (s : State) (k : Nat) (f : Kern → Kern) : (s.updKern k f).keys = s.keys := rfl
@[simp] theorem State.updKern_phase (s : State) (k : Nat) (f : Kern → Kern) : (s.updKern k f).phase = s.phase := rfl
@[simp] theorem State.updKern_reason (s : State) (k : Nat) (f : Kern → Kern) : (s.updKern k f).reason = s.reason := rfl
@[simp] theorem State.updKern_safe (s : State) (k : Nat) (f : Kern → Kern) : (s.updKern k f).safe = s.safe := rfl
@[simp] theorem State.updKern_ready (s : State) (k : Nat) (f : Kern → Kern) : (s.updKern k f).ready = s.ready := rfl
@[simp] theorem State.updKern_farCap (s : State) (k : Nat) (f : Kern → Kern) : (s.updKern k f).farCap = s.farCap := rfl
@[simp] theorem State.updKern_host (s : State) (k : Nat) (f : Kern → Kern) : (s.updKern k f).host = s.host := rfl
@[simp] theorem State.updKern_msiMask (s : State) (k : Nat) (f : Kern → Kern) : (s.updKern k f).msiMask = s.msiMask := rfl
@[simp] theorem State.updKern_msiPend (s : State) (k : Nat) (f : Kern → Kern) : (s.updKern k f).msiPend = s.msiPend := rfl
@[simp] theorem State.updKern_msiSent (s : State) (k : Nat) (f : Kern → Kern) : (s.updKern k f).msiSent = s.msiSent := rfl
@[simp] theorem State.updKern_replies (s : State) (k : Nat) (f : Kern → Kern) : (s.updKern k f).replies = s.replies := rfl
@[simp] theorem State.updKern_loading (s : State) (k : Nat) (f : Kern → Kern) : (s.updKern k f).loading = s.loading := rfl
@[simp] theorem State.updKern_ctxs (s : State) (k : Nat) (f : Kern → Kern) : (s.updKern k f).ctxs = s.ctxs := rfl
@[simp] theorem State.updKern_kerns (s : State) (k : Nat) (f : Kern → Kern) : (s.updKern k f).kerns = setA s.kerns k (f (s.kern k)) := rfl
@[simp] theorem State.updKern_queues (s : State) (k : Nat) (f : Kern → Kern) : (s.updKern k f).queues = s.queues := rfl
@[simp] theorem State.updKern_serial (s : State) (k : Nat) (f : Kern → Kern) : (s.updKern k f).serial = s.serial := rfl
@[simp] theorem State.updKern_turns (s : State) (k : Nat) (f : Kern → Kern) : (s.updKern k f).turns = s.turns := rfl
@[simp] theorem State.updKern_grp (s : State) (k : Nat) (f : Kern → Kern) : (s.updKern k f).grp = s.grp := rfl
@[simp] theorem State.updKern_others (s : State) (k : Nat) (f : Kern → Kern) : (s.updKern k f).others = s.others := rfl
@[simp] theorem State.updKern_strm (s : State) (k : Nat) (f : Kern → Kern) : (s.updKern k f).strm = s.strm := rfl
@[simp] theorem State.updKern_iw (s : State) (k : Nat) (f : Kern → Kern) : (s.updKern k f).iw = s.iw := rfl
@[simp] theorem State.updKern_ipc (s : State) (k : Nat) (f : Kern → Kern) : (s.updKern k f).ipc = s.ipc := rfl
@[simp] theorem State.updKern_agenda (s : State) (k : Nat) (f : Kern → Kern) : (s.updKern k f).agenda = s.agenda := rfl
@[simp] theorem State.updKern_fresh (s : State) (k : Nat) (f : Kern → Kern) : (s.updKern k f).fresh = s.fresh := rfl
@[simp] theorem State.updKern_cores (s : State) (k : Nat) (f : Kern → Kern) : (s.updKern k f).cores = s.cores := rfl
@[simp] theorem State.updKern_dies (s : State) (k : Nat) (f : Kern → Kern) : (s.updKern k f).dies = s.dies := rfl
@[simp] theorem State.updKern_ndies (s : State) (k : Nat) (f : Kern → Kern) : (s.updKern k f).ndies = s.ndies := rfl
@[simp] theorem State.updKern_mem (s : State) (k : Nat) (f : Kern → Kern) : (s.updKern k f).mem = s.mem := rfl
@[simp] theorem State.updKern_spareEcc (s : State) (k : Nat) (f : Kern → Kern) : (s.updKern k f).spareEcc = s.spareEcc := rfl
@[simp] theorem State.updKern_badBlocks (s : State) (k : Nat) (f : Kern → Kern) : (s.updKern k f).badBlocks = s.badBlocks := rfl
@[simp] theorem State.updKern_freed (s : State) (k : Nat) (f : Kern → Kern) : (s.updKern k f).freed = s.freed := rfl
@[simp] theorem State.updKern_lost (s : State) (k : Nat) (f : Kern → Kern) : (s.updKern k f).lost = s.lost := rfl
@[simp] theorem State.updKern_rowTimes (s : State) (k : Nat) (f : Kern → Kern) : (s.updKern k f).rowTimes = s.rowTimes := rfl
@[simp] theorem State.updKern_ilSeq (s : State) (k : Nat) (f : Kern → Kern) : (s.updKern k f).ilSeq = s.ilSeq := rfl
@[simp] theorem State.updKern_mighWait (s : State) (k : Nat) (f : Kern → Kern) : (s.updKern k f).mighWait = s.mighWait := rfl
@[simp] theorem State.updKern_migActive (s : State) (k : Nat) (f : Kern → Kern) : (s.updKern k f).migActive = s.migActive := rfl
@[simp] theorem State.updKern_migQueued (s : State) (k : Nat) (f : Kern → Kern) : (s.updKern k f).migQueued = s.migQueued := rfl
@[simp] theorem State.updKern_strs (s : State) (k : Nat) (f : Kern → Kern) : (s.updKern k f).strs = s.strs := rfl
@[simp] theorem State.updKern_links (s : State) (k : Nat) (f : Kern → Kern) : (s.updKern k f).links = s.links := rfl
@[simp] theorem State.updKern_dests (s : State) (k : Nat) (f : Kern → Kern) : (s.updKern k f).dests = s.dests := rfl
@[simp] theorem State.updKern_nextTag (s : State) (k : Nat) (f : Kern → Kern) : (s.updKern k f).nextTag = s.nextTag := rfl
@[simp] theorem State.updKern_tagOwner (s : State) (k : Nat) (f : Kern → Kern) : (s.updKern k f).tagOwner = s.tagOwner := rfl
@[simp] theorem State.updKern_outbox (s : State) (k : Nat) (f : Kern → Kern) : (s.updKern k f).outbox = s.outbox := rfl
@[simp] theorem State.updKern_remReds (s : State) (k : Nat) (f : Kern → Kern) : (s.updKern k f).remReds = s.remReds := rfl
@[simp] theorem State.updKern_corrected (s : State) (k : Nat) (f : Kern → Kern) : (s.updKern k f).corrected = s.corrected := rfl
@[simp] theorem State.updKern_colls (s : State) (k : Nat) (f : Kern → Kern) : (s.updKern k f).colls = s.colls := rfl
@[simp] theorem State.updKern_slots (s : State) (k : Nat) (f : Kern → Kern) : (s.updKern k f).slots = s.slots := rfl
@[simp] theorem State.updKern_devw (s : State) (k : Nat) (f : Kern → Kern) : (s.updKern k f).devw = s.devw := rfl
@[simp] theorem State.updKern_devOut (s : State) (k : Nat) (f : Kern → Kern) : (s.updKern k f).devOut = s.devOut := rfl
@[simp] theorem State.updKern_remWait (s : State) (k : Nat) (f : Kern → Kern) : (s.updKern k f).remWait = s.remWait := rfl
@[simp] theorem State.updKern_attSent (s : State) (k : Nat) (f : Kern → Kern) : (s.updKern k f).attSent = s.attSent := rfl
@[simp] theorem State.updKern_gangs (s : State) (k : Nat) (f : Kern → Kern) : (s.updKern k f).gangs = s.gangs := rfl
@[simp] theorem State.updKern_proms (s : State) (k : Nat) (f : Kern → Kern) : (s.updKern k f).proms = s.proms := rfl

-- updQueue ----------------------------------------------------------------------------------------------------------

@[simp] theorem State.updQueue_cycle (s : State) (q : Nat) (f : Queue → Queue) : (s.updQueue q f).cycle = s.cycle := rfl
@[simp] theorem State.updQueue_clockMHz (s : State) (q : Nat) (f : Queue → Queue) : (s.updQueue q f).clockMHz = s.clockMHz := rfl
@[simp] theorem State.updQueue_modid (s : State) (q : Nat) (f : Queue → Queue) : (s.updQueue q f).modid = s.modid := rfl
@[simp] theorem State.updQueue_cxlMask (s : State) (q : Nat) (f : Queue → Queue) : (s.updQueue q f).cxlMask = s.cxlMask := rfl
@[simp] theorem State.updQueue_fibStrap (s : State) (q : Nat) (f : Queue → Queue) : (s.updQueue q f).fibStrap = s.fibStrap := rfl
@[simp] theorem State.updQueue_topo (s : State) (q : Nat) (f : Queue → Queue) : (s.updQueue q f).topo = s.topo := rfl
@[simp] theorem State.updQueue_keys (s : State) (q : Nat) (f : Queue → Queue) : (s.updQueue q f).keys = s.keys := rfl
@[simp] theorem State.updQueue_phase (s : State) (q : Nat) (f : Queue → Queue) : (s.updQueue q f).phase = s.phase := rfl
@[simp] theorem State.updQueue_reason (s : State) (q : Nat) (f : Queue → Queue) : (s.updQueue q f).reason = s.reason := rfl
@[simp] theorem State.updQueue_safe (s : State) (q : Nat) (f : Queue → Queue) : (s.updQueue q f).safe = s.safe := rfl
@[simp] theorem State.updQueue_ready (s : State) (q : Nat) (f : Queue → Queue) : (s.updQueue q f).ready = s.ready := rfl
@[simp] theorem State.updQueue_farCap (s : State) (q : Nat) (f : Queue → Queue) : (s.updQueue q f).farCap = s.farCap := rfl
@[simp] theorem State.updQueue_host (s : State) (q : Nat) (f : Queue → Queue) : (s.updQueue q f).host = s.host := rfl
@[simp] theorem State.updQueue_msiMask (s : State) (q : Nat) (f : Queue → Queue) : (s.updQueue q f).msiMask = s.msiMask := rfl
@[simp] theorem State.updQueue_msiPend (s : State) (q : Nat) (f : Queue → Queue) : (s.updQueue q f).msiPend = s.msiPend := rfl
@[simp] theorem State.updQueue_msiSent (s : State) (q : Nat) (f : Queue → Queue) : (s.updQueue q f).msiSent = s.msiSent := rfl
@[simp] theorem State.updQueue_replies (s : State) (q : Nat) (f : Queue → Queue) : (s.updQueue q f).replies = s.replies := rfl
@[simp] theorem State.updQueue_loading (s : State) (q : Nat) (f : Queue → Queue) : (s.updQueue q f).loading = s.loading := rfl
@[simp] theorem State.updQueue_ctxs (s : State) (q : Nat) (f : Queue → Queue) : (s.updQueue q f).ctxs = s.ctxs := rfl
@[simp] theorem State.updQueue_kerns (s : State) (q : Nat) (f : Queue → Queue) : (s.updQueue q f).kerns = s.kerns := rfl
@[simp] theorem State.updQueue_serial (s : State) (q : Nat) (f : Queue → Queue) : (s.updQueue q f).serial = s.serial := rfl
@[simp] theorem State.updQueue_turns (s : State) (q : Nat) (f : Queue → Queue) : (s.updQueue q f).turns = s.turns := rfl
@[simp] theorem State.updQueue_grp (s : State) (q : Nat) (f : Queue → Queue) : (s.updQueue q f).grp = s.grp := rfl
@[simp] theorem State.updQueue_others (s : State) (q : Nat) (f : Queue → Queue) : (s.updQueue q f).others = s.others := rfl
@[simp] theorem State.updQueue_strm (s : State) (q : Nat) (f : Queue → Queue) : (s.updQueue q f).strm = s.strm := rfl
@[simp] theorem State.updQueue_iw (s : State) (q : Nat) (f : Queue → Queue) : (s.updQueue q f).iw = s.iw := rfl
@[simp] theorem State.updQueue_ipc (s : State) (q : Nat) (f : Queue → Queue) : (s.updQueue q f).ipc = s.ipc := rfl
@[simp] theorem State.updQueue_agenda (s : State) (q : Nat) (f : Queue → Queue) : (s.updQueue q f).agenda = s.agenda := rfl
@[simp] theorem State.updQueue_fresh (s : State) (q : Nat) (f : Queue → Queue) : (s.updQueue q f).fresh = s.fresh := rfl
@[simp] theorem State.updQueue_cores (s : State) (q : Nat) (f : Queue → Queue) : (s.updQueue q f).cores = s.cores := rfl
@[simp] theorem State.updQueue_dies (s : State) (q : Nat) (f : Queue → Queue) : (s.updQueue q f).dies = s.dies := rfl
@[simp] theorem State.updQueue_ndies (s : State) (q : Nat) (f : Queue → Queue) : (s.updQueue q f).ndies = s.ndies := rfl
@[simp] theorem State.updQueue_mem (s : State) (q : Nat) (f : Queue → Queue) : (s.updQueue q f).mem = s.mem := rfl
@[simp] theorem State.updQueue_spareEcc (s : State) (q : Nat) (f : Queue → Queue) : (s.updQueue q f).spareEcc = s.spareEcc := rfl
@[simp] theorem State.updQueue_badBlocks (s : State) (q : Nat) (f : Queue → Queue) : (s.updQueue q f).badBlocks = s.badBlocks := rfl
@[simp] theorem State.updQueue_freed (s : State) (q : Nat) (f : Queue → Queue) : (s.updQueue q f).freed = s.freed := rfl
@[simp] theorem State.updQueue_lost (s : State) (q : Nat) (f : Queue → Queue) : (s.updQueue q f).lost = s.lost := rfl
@[simp] theorem State.updQueue_rowTimes (s : State) (q : Nat) (f : Queue → Queue) : (s.updQueue q f).rowTimes = s.rowTimes := rfl
@[simp] theorem State.updQueue_ilSeq (s : State) (q : Nat) (f : Queue → Queue) : (s.updQueue q f).ilSeq = s.ilSeq := rfl
@[simp] theorem State.updQueue_mighWait (s : State) (q : Nat) (f : Queue → Queue) : (s.updQueue q f).mighWait = s.mighWait := rfl
@[simp] theorem State.updQueue_migActive (s : State) (q : Nat) (f : Queue → Queue) : (s.updQueue q f).migActive = s.migActive := rfl
@[simp] theorem State.updQueue_migQueued (s : State) (q : Nat) (f : Queue → Queue) : (s.updQueue q f).migQueued = s.migQueued := rfl
@[simp] theorem State.updQueue_strs (s : State) (q : Nat) (f : Queue → Queue) : (s.updQueue q f).strs = s.strs := rfl
@[simp] theorem State.updQueue_links (s : State) (q : Nat) (f : Queue → Queue) : (s.updQueue q f).links = s.links := rfl
@[simp] theorem State.updQueue_dests (s : State) (q : Nat) (f : Queue → Queue) : (s.updQueue q f).dests = s.dests := rfl
@[simp] theorem State.updQueue_nextTag (s : State) (q : Nat) (f : Queue → Queue) : (s.updQueue q f).nextTag = s.nextTag := rfl
@[simp] theorem State.updQueue_tagOwner (s : State) (q : Nat) (f : Queue → Queue) : (s.updQueue q f).tagOwner = s.tagOwner := rfl
@[simp] theorem State.updQueue_outbox (s : State) (q : Nat) (f : Queue → Queue) : (s.updQueue q f).outbox = s.outbox := rfl
@[simp] theorem State.updQueue_remReds (s : State) (q : Nat) (f : Queue → Queue) : (s.updQueue q f).remReds = s.remReds := rfl
@[simp] theorem State.updQueue_corrected (s : State) (q : Nat) (f : Queue → Queue) : (s.updQueue q f).corrected = s.corrected := rfl
@[simp] theorem State.updQueue_colls (s : State) (q : Nat) (f : Queue → Queue) : (s.updQueue q f).colls = s.colls := rfl
@[simp] theorem State.updQueue_slots (s : State) (q : Nat) (f : Queue → Queue) : (s.updQueue q f).slots = s.slots := rfl
@[simp] theorem State.updQueue_devw (s : State) (q : Nat) (f : Queue → Queue) : (s.updQueue q f).devw = s.devw := rfl
@[simp] theorem State.updQueue_devOut (s : State) (q : Nat) (f : Queue → Queue) : (s.updQueue q f).devOut = s.devOut := rfl
@[simp] theorem State.updQueue_remWait (s : State) (q : Nat) (f : Queue → Queue) : (s.updQueue q f).remWait = s.remWait := rfl
@[simp] theorem State.updQueue_attSent (s : State) (q : Nat) (f : Queue → Queue) : (s.updQueue q f).attSent = s.attSent := rfl
@[simp] theorem State.updQueue_gangs (s : State) (q : Nat) (f : Queue → Queue) : (s.updQueue q f).gangs = s.gangs := rfl
@[simp] theorem State.updQueue_proms (s : State) (q : Nat) (f : Queue → Queue) : (s.updQueue q f).proms = s.proms := rfl

-- updLink -----------------------------------------------------------------------------------------------------------

@[simp] theorem State.updLink_cycle (s : State) (n : Nat) (f : Link → Link) : (s.updLink n f).cycle = s.cycle := rfl
@[simp] theorem State.updLink_clockMHz (s : State) (n : Nat) (f : Link → Link) : (s.updLink n f).clockMHz = s.clockMHz := rfl
@[simp] theorem State.updLink_modid (s : State) (n : Nat) (f : Link → Link) : (s.updLink n f).modid = s.modid := rfl
@[simp] theorem State.updLink_cxlMask (s : State) (n : Nat) (f : Link → Link) : (s.updLink n f).cxlMask = s.cxlMask := rfl
@[simp] theorem State.updLink_fibStrap (s : State) (n : Nat) (f : Link → Link) : (s.updLink n f).fibStrap = s.fibStrap := rfl
@[simp] theorem State.updLink_topo (s : State) (n : Nat) (f : Link → Link) : (s.updLink n f).topo = s.topo := rfl
@[simp] theorem State.updLink_keys (s : State) (n : Nat) (f : Link → Link) : (s.updLink n f).keys = s.keys := rfl
@[simp] theorem State.updLink_phase (s : State) (n : Nat) (f : Link → Link) : (s.updLink n f).phase = s.phase := rfl
@[simp] theorem State.updLink_reason (s : State) (n : Nat) (f : Link → Link) : (s.updLink n f).reason = s.reason := rfl
@[simp] theorem State.updLink_safe (s : State) (n : Nat) (f : Link → Link) : (s.updLink n f).safe = s.safe := rfl
@[simp] theorem State.updLink_ready (s : State) (n : Nat) (f : Link → Link) : (s.updLink n f).ready = s.ready := rfl
@[simp] theorem State.updLink_farCap (s : State) (n : Nat) (f : Link → Link) : (s.updLink n f).farCap = s.farCap := rfl
@[simp] theorem State.updLink_host (s : State) (n : Nat) (f : Link → Link) : (s.updLink n f).host = s.host := rfl
@[simp] theorem State.updLink_msiMask (s : State) (n : Nat) (f : Link → Link) : (s.updLink n f).msiMask = s.msiMask := rfl
@[simp] theorem State.updLink_msiPend (s : State) (n : Nat) (f : Link → Link) : (s.updLink n f).msiPend = s.msiPend := rfl
@[simp] theorem State.updLink_msiSent (s : State) (n : Nat) (f : Link → Link) : (s.updLink n f).msiSent = s.msiSent := rfl
@[simp] theorem State.updLink_replies (s : State) (n : Nat) (f : Link → Link) : (s.updLink n f).replies = s.replies := rfl
@[simp] theorem State.updLink_loading (s : State) (n : Nat) (f : Link → Link) : (s.updLink n f).loading = s.loading := rfl
@[simp] theorem State.updLink_ctxs (s : State) (n : Nat) (f : Link → Link) : (s.updLink n f).ctxs = s.ctxs := rfl
@[simp] theorem State.updLink_kerns (s : State) (n : Nat) (f : Link → Link) : (s.updLink n f).kerns = s.kerns := rfl
@[simp] theorem State.updLink_queues (s : State) (n : Nat) (f : Link → Link) : (s.updLink n f).queues = s.queues := rfl
@[simp] theorem State.updLink_serial (s : State) (n : Nat) (f : Link → Link) : (s.updLink n f).serial = s.serial := rfl
@[simp] theorem State.updLink_turns (s : State) (n : Nat) (f : Link → Link) : (s.updLink n f).turns = s.turns := rfl
@[simp] theorem State.updLink_grp (s : State) (n : Nat) (f : Link → Link) : (s.updLink n f).grp = s.grp := rfl
@[simp] theorem State.updLink_others (s : State) (n : Nat) (f : Link → Link) : (s.updLink n f).others = s.others := rfl
@[simp] theorem State.updLink_strm (s : State) (n : Nat) (f : Link → Link) : (s.updLink n f).strm = s.strm := rfl
@[simp] theorem State.updLink_iw (s : State) (n : Nat) (f : Link → Link) : (s.updLink n f).iw = s.iw := rfl
@[simp] theorem State.updLink_ipc (s : State) (n : Nat) (f : Link → Link) : (s.updLink n f).ipc = s.ipc := rfl
@[simp] theorem State.updLink_agenda (s : State) (n : Nat) (f : Link → Link) : (s.updLink n f).agenda = s.agenda := rfl
@[simp] theorem State.updLink_fresh (s : State) (n : Nat) (f : Link → Link) : (s.updLink n f).fresh = s.fresh := rfl
@[simp] theorem State.updLink_cores (s : State) (n : Nat) (f : Link → Link) : (s.updLink n f).cores = s.cores := rfl
@[simp] theorem State.updLink_dies (s : State) (n : Nat) (f : Link → Link) : (s.updLink n f).dies = s.dies := rfl
@[simp] theorem State.updLink_ndies (s : State) (n : Nat) (f : Link → Link) : (s.updLink n f).ndies = s.ndies := rfl
@[simp] theorem State.updLink_mem (s : State) (n : Nat) (f : Link → Link) : (s.updLink n f).mem = s.mem := rfl
@[simp] theorem State.updLink_spareEcc (s : State) (n : Nat) (f : Link → Link) : (s.updLink n f).spareEcc = s.spareEcc := rfl
@[simp] theorem State.updLink_badBlocks (s : State) (n : Nat) (f : Link → Link) : (s.updLink n f).badBlocks = s.badBlocks := rfl
@[simp] theorem State.updLink_freed (s : State) (n : Nat) (f : Link → Link) : (s.updLink n f).freed = s.freed := rfl
@[simp] theorem State.updLink_lost (s : State) (n : Nat) (f : Link → Link) : (s.updLink n f).lost = s.lost := rfl
@[simp] theorem State.updLink_rowTimes (s : State) (n : Nat) (f : Link → Link) : (s.updLink n f).rowTimes = s.rowTimes := rfl
@[simp] theorem State.updLink_ilSeq (s : State) (n : Nat) (f : Link → Link) : (s.updLink n f).ilSeq = s.ilSeq := rfl
@[simp] theorem State.updLink_mighWait (s : State) (n : Nat) (f : Link → Link) : (s.updLink n f).mighWait = s.mighWait := rfl
@[simp] theorem State.updLink_migActive (s : State) (n : Nat) (f : Link → Link) : (s.updLink n f).migActive = s.migActive := rfl
@[simp] theorem State.updLink_migQueued (s : State) (n : Nat) (f : Link → Link) : (s.updLink n f).migQueued = s.migQueued := rfl
@[simp] theorem State.updLink_strs (s : State) (n : Nat) (f : Link → Link) : (s.updLink n f).strs = s.strs := rfl
@[simp] theorem State.updLink_links (s : State) (n : Nat) (f : Link → Link) : (s.updLink n f).links = updAt s.links n f := rfl
@[simp] theorem State.updLink_dests (s : State) (n : Nat) (f : Link → Link) : (s.updLink n f).dests = s.dests := rfl
@[simp] theorem State.updLink_nextTag (s : State) (n : Nat) (f : Link → Link) : (s.updLink n f).nextTag = s.nextTag := rfl
@[simp] theorem State.updLink_tagOwner (s : State) (n : Nat) (f : Link → Link) : (s.updLink n f).tagOwner = s.tagOwner := rfl
@[simp] theorem State.updLink_outbox (s : State) (n : Nat) (f : Link → Link) : (s.updLink n f).outbox = s.outbox := rfl
@[simp] theorem State.updLink_remReds (s : State) (n : Nat) (f : Link → Link) : (s.updLink n f).remReds = s.remReds := rfl
@[simp] theorem State.updLink_corrected (s : State) (n : Nat) (f : Link → Link) : (s.updLink n f).corrected = s.corrected := rfl
@[simp] theorem State.updLink_colls (s : State) (n : Nat) (f : Link → Link) : (s.updLink n f).colls = s.colls := rfl
@[simp] theorem State.updLink_slots (s : State) (n : Nat) (f : Link → Link) : (s.updLink n f).slots = s.slots := rfl
@[simp] theorem State.updLink_devw (s : State) (n : Nat) (f : Link → Link) : (s.updLink n f).devw = s.devw := rfl
@[simp] theorem State.updLink_devOut (s : State) (n : Nat) (f : Link → Link) : (s.updLink n f).devOut = s.devOut := rfl
@[simp] theorem State.updLink_remWait (s : State) (n : Nat) (f : Link → Link) : (s.updLink n f).remWait = s.remWait := rfl
@[simp] theorem State.updLink_attSent (s : State) (n : Nat) (f : Link → Link) : (s.updLink n f).attSent = s.attSent := rfl
@[simp] theorem State.updLink_gangs (s : State) (n : Nat) (f : Link → Link) : (s.updLink n f).gangs = s.gangs := rfl
@[simp] theorem State.updLink_proms (s : State) (n : Nat) (f : Link → Link) : (s.updLink n f).proms = s.proms := rfl

-- updDest -----------------------------------------------------------------------------------------------------------

@[simp] theorem State.updDest_cycle (s : State) (m : Nat) (f : Dest → Dest) : (s.updDest m f).cycle = s.cycle := rfl
@[simp] theorem State.updDest_clockMHz (s : State) (m : Nat) (f : Dest → Dest) : (s.updDest m f).clockMHz = s.clockMHz := rfl
@[simp] theorem State.updDest_modid (s : State) (m : Nat) (f : Dest → Dest) : (s.updDest m f).modid = s.modid := rfl
@[simp] theorem State.updDest_cxlMask (s : State) (m : Nat) (f : Dest → Dest) : (s.updDest m f).cxlMask = s.cxlMask := rfl
@[simp] theorem State.updDest_fibStrap (s : State) (m : Nat) (f : Dest → Dest) : (s.updDest m f).fibStrap = s.fibStrap := rfl
@[simp] theorem State.updDest_topo (s : State) (m : Nat) (f : Dest → Dest) : (s.updDest m f).topo = s.topo := rfl
@[simp] theorem State.updDest_keys (s : State) (m : Nat) (f : Dest → Dest) : (s.updDest m f).keys = s.keys := rfl
@[simp] theorem State.updDest_phase (s : State) (m : Nat) (f : Dest → Dest) : (s.updDest m f).phase = s.phase := rfl
@[simp] theorem State.updDest_reason (s : State) (m : Nat) (f : Dest → Dest) : (s.updDest m f).reason = s.reason := rfl
@[simp] theorem State.updDest_safe (s : State) (m : Nat) (f : Dest → Dest) : (s.updDest m f).safe = s.safe := rfl
@[simp] theorem State.updDest_ready (s : State) (m : Nat) (f : Dest → Dest) : (s.updDest m f).ready = s.ready := rfl
@[simp] theorem State.updDest_farCap (s : State) (m : Nat) (f : Dest → Dest) : (s.updDest m f).farCap = s.farCap := rfl
@[simp] theorem State.updDest_host (s : State) (m : Nat) (f : Dest → Dest) : (s.updDest m f).host = s.host := rfl
@[simp] theorem State.updDest_msiMask (s : State) (m : Nat) (f : Dest → Dest) : (s.updDest m f).msiMask = s.msiMask := rfl
@[simp] theorem State.updDest_msiPend (s : State) (m : Nat) (f : Dest → Dest) : (s.updDest m f).msiPend = s.msiPend := rfl
@[simp] theorem State.updDest_msiSent (s : State) (m : Nat) (f : Dest → Dest) : (s.updDest m f).msiSent = s.msiSent := rfl
@[simp] theorem State.updDest_replies (s : State) (m : Nat) (f : Dest → Dest) : (s.updDest m f).replies = s.replies := rfl
@[simp] theorem State.updDest_loading (s : State) (m : Nat) (f : Dest → Dest) : (s.updDest m f).loading = s.loading := rfl
@[simp] theorem State.updDest_ctxs (s : State) (m : Nat) (f : Dest → Dest) : (s.updDest m f).ctxs = s.ctxs := rfl
@[simp] theorem State.updDest_kerns (s : State) (m : Nat) (f : Dest → Dest) : (s.updDest m f).kerns = s.kerns := rfl
@[simp] theorem State.updDest_queues (s : State) (m : Nat) (f : Dest → Dest) : (s.updDest m f).queues = s.queues := rfl
@[simp] theorem State.updDest_serial (s : State) (m : Nat) (f : Dest → Dest) : (s.updDest m f).serial = s.serial := rfl
@[simp] theorem State.updDest_turns (s : State) (m : Nat) (f : Dest → Dest) : (s.updDest m f).turns = s.turns := rfl
@[simp] theorem State.updDest_grp (s : State) (m : Nat) (f : Dest → Dest) : (s.updDest m f).grp = s.grp := rfl
@[simp] theorem State.updDest_others (s : State) (m : Nat) (f : Dest → Dest) : (s.updDest m f).others = s.others := rfl
@[simp] theorem State.updDest_strm (s : State) (m : Nat) (f : Dest → Dest) : (s.updDest m f).strm = s.strm := rfl
@[simp] theorem State.updDest_iw (s : State) (m : Nat) (f : Dest → Dest) : (s.updDest m f).iw = s.iw := rfl
@[simp] theorem State.updDest_ipc (s : State) (m : Nat) (f : Dest → Dest) : (s.updDest m f).ipc = s.ipc := rfl
@[simp] theorem State.updDest_agenda (s : State) (m : Nat) (f : Dest → Dest) : (s.updDest m f).agenda = s.agenda := rfl
@[simp] theorem State.updDest_fresh (s : State) (m : Nat) (f : Dest → Dest) : (s.updDest m f).fresh = s.fresh := rfl
@[simp] theorem State.updDest_cores (s : State) (m : Nat) (f : Dest → Dest) : (s.updDest m f).cores = s.cores := rfl
@[simp] theorem State.updDest_dies (s : State) (m : Nat) (f : Dest → Dest) : (s.updDest m f).dies = s.dies := rfl
@[simp] theorem State.updDest_ndies (s : State) (m : Nat) (f : Dest → Dest) : (s.updDest m f).ndies = s.ndies := rfl
@[simp] theorem State.updDest_mem (s : State) (m : Nat) (f : Dest → Dest) : (s.updDest m f).mem = s.mem := rfl
@[simp] theorem State.updDest_spareEcc (s : State) (m : Nat) (f : Dest → Dest) : (s.updDest m f).spareEcc = s.spareEcc := rfl
@[simp] theorem State.updDest_badBlocks (s : State) (m : Nat) (f : Dest → Dest) : (s.updDest m f).badBlocks = s.badBlocks := rfl
@[simp] theorem State.updDest_freed (s : State) (m : Nat) (f : Dest → Dest) : (s.updDest m f).freed = s.freed := rfl
@[simp] theorem State.updDest_lost (s : State) (m : Nat) (f : Dest → Dest) : (s.updDest m f).lost = s.lost := rfl
@[simp] theorem State.updDest_rowTimes (s : State) (m : Nat) (f : Dest → Dest) : (s.updDest m f).rowTimes = s.rowTimes := rfl
@[simp] theorem State.updDest_ilSeq (s : State) (m : Nat) (f : Dest → Dest) : (s.updDest m f).ilSeq = s.ilSeq := rfl
@[simp] theorem State.updDest_mighWait (s : State) (m : Nat) (f : Dest → Dest) : (s.updDest m f).mighWait = s.mighWait := rfl
@[simp] theorem State.updDest_migActive (s : State) (m : Nat) (f : Dest → Dest) : (s.updDest m f).migActive = s.migActive := rfl
@[simp] theorem State.updDest_migQueued (s : State) (m : Nat) (f : Dest → Dest) : (s.updDest m f).migQueued = s.migQueued := rfl
@[simp] theorem State.updDest_strs (s : State) (m : Nat) (f : Dest → Dest) : (s.updDest m f).strs = s.strs := rfl
@[simp] theorem State.updDest_links (s : State) (m : Nat) (f : Dest → Dest) : (s.updDest m f).links = s.links := rfl
@[simp] theorem State.updDest_dests (s : State) (m : Nat) (f : Dest → Dest) : (s.updDest m f).dests = updAt s.dests m f := rfl
@[simp] theorem State.updDest_nextTag (s : State) (m : Nat) (f : Dest → Dest) : (s.updDest m f).nextTag = s.nextTag := rfl
@[simp] theorem State.updDest_tagOwner (s : State) (m : Nat) (f : Dest → Dest) : (s.updDest m f).tagOwner = s.tagOwner := rfl
@[simp] theorem State.updDest_outbox (s : State) (m : Nat) (f : Dest → Dest) : (s.updDest m f).outbox = s.outbox := rfl
@[simp] theorem State.updDest_remReds (s : State) (m : Nat) (f : Dest → Dest) : (s.updDest m f).remReds = s.remReds := rfl
@[simp] theorem State.updDest_corrected (s : State) (m : Nat) (f : Dest → Dest) : (s.updDest m f).corrected = s.corrected := rfl
@[simp] theorem State.updDest_colls (s : State) (m : Nat) (f : Dest → Dest) : (s.updDest m f).colls = s.colls := rfl
@[simp] theorem State.updDest_slots (s : State) (m : Nat) (f : Dest → Dest) : (s.updDest m f).slots = s.slots := rfl
@[simp] theorem State.updDest_devw (s : State) (m : Nat) (f : Dest → Dest) : (s.updDest m f).devw = s.devw := rfl
@[simp] theorem State.updDest_devOut (s : State) (m : Nat) (f : Dest → Dest) : (s.updDest m f).devOut = s.devOut := rfl
@[simp] theorem State.updDest_remWait (s : State) (m : Nat) (f : Dest → Dest) : (s.updDest m f).remWait = s.remWait := rfl
@[simp] theorem State.updDest_attSent (s : State) (m : Nat) (f : Dest → Dest) : (s.updDest m f).attSent = s.attSent := rfl
@[simp] theorem State.updDest_gangs (s : State) (m : Nat) (f : Dest → Dest) : (s.updDest m f).gangs = s.gangs := rfl
@[simp] theorem State.updDest_proms (s : State) (m : Nat) (f : Dest → Dest) : (s.updDest m f).proms = s.proms := rfl

-- updHost -----------------------------------------------------------------------------------------------------------

@[simp] theorem State.updHost_cycle (s : State) (f : HostRegs → HostRegs) : (s.updHost f).cycle = s.cycle := rfl
@[simp] theorem State.updHost_clockMHz (s : State) (f : HostRegs → HostRegs) : (s.updHost f).clockMHz = s.clockMHz := rfl
@[simp] theorem State.updHost_modid (s : State) (f : HostRegs → HostRegs) : (s.updHost f).modid = s.modid := rfl
@[simp] theorem State.updHost_cxlMask (s : State) (f : HostRegs → HostRegs) : (s.updHost f).cxlMask = s.cxlMask := rfl
@[simp] theorem State.updHost_fibStrap (s : State) (f : HostRegs → HostRegs) : (s.updHost f).fibStrap = s.fibStrap := rfl
@[simp] theorem State.updHost_topo (s : State) (f : HostRegs → HostRegs) : (s.updHost f).topo = s.topo := rfl
@[simp] theorem State.updHost_keys (s : State) (f : HostRegs → HostRegs) : (s.updHost f).keys = s.keys := rfl
@[simp] theorem State.updHost_phase (s : State) (f : HostRegs → HostRegs) : (s.updHost f).phase = s.phase := rfl
@[simp] theorem State.updHost_reason (s : State) (f : HostRegs → HostRegs) : (s.updHost f).reason = s.reason := rfl
@[simp] theorem State.updHost_safe (s : State) (f : HostRegs → HostRegs) : (s.updHost f).safe = s.safe := rfl
@[simp] theorem State.updHost_ready (s : State) (f : HostRegs → HostRegs) : (s.updHost f).ready = s.ready := rfl
@[simp] theorem State.updHost_farCap (s : State) (f : HostRegs → HostRegs) : (s.updHost f).farCap = s.farCap := rfl
@[simp] theorem State.updHost_host (s : State) (f : HostRegs → HostRegs) : (s.updHost f).host = f s.host := rfl
@[simp] theorem State.updHost_msiMask (s : State) (f : HostRegs → HostRegs) : (s.updHost f).msiMask = s.msiMask := rfl
@[simp] theorem State.updHost_msiPend (s : State) (f : HostRegs → HostRegs) : (s.updHost f).msiPend = s.msiPend := rfl
@[simp] theorem State.updHost_msiSent (s : State) (f : HostRegs → HostRegs) : (s.updHost f).msiSent = s.msiSent := rfl
@[simp] theorem State.updHost_replies (s : State) (f : HostRegs → HostRegs) : (s.updHost f).replies = s.replies := rfl
@[simp] theorem State.updHost_loading (s : State) (f : HostRegs → HostRegs) : (s.updHost f).loading = s.loading := rfl
@[simp] theorem State.updHost_ctxs (s : State) (f : HostRegs → HostRegs) : (s.updHost f).ctxs = s.ctxs := rfl
@[simp] theorem State.updHost_kerns (s : State) (f : HostRegs → HostRegs) : (s.updHost f).kerns = s.kerns := rfl
@[simp] theorem State.updHost_queues (s : State) (f : HostRegs → HostRegs) : (s.updHost f).queues = s.queues := rfl
@[simp] theorem State.updHost_serial (s : State) (f : HostRegs → HostRegs) : (s.updHost f).serial = s.serial := rfl
@[simp] theorem State.updHost_turns (s : State) (f : HostRegs → HostRegs) : (s.updHost f).turns = s.turns := rfl
@[simp] theorem State.updHost_grp (s : State) (f : HostRegs → HostRegs) : (s.updHost f).grp = s.grp := rfl
@[simp] theorem State.updHost_others (s : State) (f : HostRegs → HostRegs) : (s.updHost f).others = s.others := rfl
@[simp] theorem State.updHost_strm (s : State) (f : HostRegs → HostRegs) : (s.updHost f).strm = s.strm := rfl
@[simp] theorem State.updHost_iw (s : State) (f : HostRegs → HostRegs) : (s.updHost f).iw = s.iw := rfl
@[simp] theorem State.updHost_ipc (s : State) (f : HostRegs → HostRegs) : (s.updHost f).ipc = s.ipc := rfl
@[simp] theorem State.updHost_agenda (s : State) (f : HostRegs → HostRegs) : (s.updHost f).agenda = s.agenda := rfl
@[simp] theorem State.updHost_fresh (s : State) (f : HostRegs → HostRegs) : (s.updHost f).fresh = s.fresh := rfl
@[simp] theorem State.updHost_cores (s : State) (f : HostRegs → HostRegs) : (s.updHost f).cores = s.cores := rfl
@[simp] theorem State.updHost_dies (s : State) (f : HostRegs → HostRegs) : (s.updHost f).dies = s.dies := rfl
@[simp] theorem State.updHost_ndies (s : State) (f : HostRegs → HostRegs) : (s.updHost f).ndies = s.ndies := rfl
@[simp] theorem State.updHost_mem (s : State) (f : HostRegs → HostRegs) : (s.updHost f).mem = s.mem := rfl
@[simp] theorem State.updHost_spareEcc (s : State) (f : HostRegs → HostRegs) : (s.updHost f).spareEcc = s.spareEcc := rfl
@[simp] theorem State.updHost_badBlocks (s : State) (f : HostRegs → HostRegs) : (s.updHost f).badBlocks = s.badBlocks := rfl
@[simp] theorem State.updHost_freed (s : State) (f : HostRegs → HostRegs) : (s.updHost f).freed = s.freed := rfl
@[simp] theorem State.updHost_lost (s : State) (f : HostRegs → HostRegs) : (s.updHost f).lost = s.lost := rfl
@[simp] theorem State.updHost_rowTimes (s : State) (f : HostRegs → HostRegs) : (s.updHost f).rowTimes = s.rowTimes := rfl
@[simp] theorem State.updHost_ilSeq (s : State) (f : HostRegs → HostRegs) : (s.updHost f).ilSeq = s.ilSeq := rfl
@[simp] theorem State.updHost_mighWait (s : State) (f : HostRegs → HostRegs) : (s.updHost f).mighWait = s.mighWait := rfl
@[simp] theorem State.updHost_migActive (s : State) (f : HostRegs → HostRegs) : (s.updHost f).migActive = s.migActive := rfl
@[simp] theorem State.updHost_migQueued (s : State) (f : HostRegs → HostRegs) : (s.updHost f).migQueued = s.migQueued := rfl
@[simp] theorem State.updHost_strs (s : State) (f : HostRegs → HostRegs) : (s.updHost f).strs = s.strs := rfl
@[simp] theorem State.updHost_links (s : State) (f : HostRegs → HostRegs) : (s.updHost f).links = s.links := rfl
@[simp] theorem State.updHost_dests (s : State) (f : HostRegs → HostRegs) : (s.updHost f).dests = s.dests := rfl
@[simp] theorem State.updHost_nextTag (s : State) (f : HostRegs → HostRegs) : (s.updHost f).nextTag = s.nextTag := rfl
@[simp] theorem State.updHost_tagOwner (s : State) (f : HostRegs → HostRegs) : (s.updHost f).tagOwner = s.tagOwner := rfl
@[simp] theorem State.updHost_outbox (s : State) (f : HostRegs → HostRegs) : (s.updHost f).outbox = s.outbox := rfl
@[simp] theorem State.updHost_remReds (s : State) (f : HostRegs → HostRegs) : (s.updHost f).remReds = s.remReds := rfl
@[simp] theorem State.updHost_corrected (s : State) (f : HostRegs → HostRegs) : (s.updHost f).corrected = s.corrected := rfl
@[simp] theorem State.updHost_colls (s : State) (f : HostRegs → HostRegs) : (s.updHost f).colls = s.colls := rfl
@[simp] theorem State.updHost_slots (s : State) (f : HostRegs → HostRegs) : (s.updHost f).slots = s.slots := rfl
@[simp] theorem State.updHost_devw (s : State) (f : HostRegs → HostRegs) : (s.updHost f).devw = s.devw := rfl
@[simp] theorem State.updHost_devOut (s : State) (f : HostRegs → HostRegs) : (s.updHost f).devOut = s.devOut := rfl
@[simp] theorem State.updHost_remWait (s : State) (f : HostRegs → HostRegs) : (s.updHost f).remWait = s.remWait := rfl
@[simp] theorem State.updHost_attSent (s : State) (f : HostRegs → HostRegs) : (s.updHost f).attSent = s.attSent := rfl
@[simp] theorem State.updHost_gangs (s : State) (f : HostRegs → HostRegs) : (s.updHost f).gangs = s.gangs := rfl
@[simp] theorem State.updHost_proms (s : State) (f : HostRegs → HostRegs) : (s.updHost f).proms = s.proms := rfl

-- tick1 -------------------------------------------------------------------------------------------------------------

@[simp] theorem State.tick1_cycle (s : State)  : (s.tick1).cycle = s.cycle := rfl
@[simp] theorem State.tick1_clockMHz (s : State)  : (s.tick1).clockMHz = s.clockMHz := rfl
@[simp] theorem State.tick1_modid (s : State)  : (s.tick1).modid = s.modid := rfl
@[simp] theorem State.tick1_cxlMask (s : State)  : (s.tick1).cxlMask = s.cxlMask := rfl
@[simp] theorem State.tick1_fibStrap (s : State)  : (s.tick1).fibStrap = s.fibStrap := rfl
@[simp] theorem State.tick1_topo (s : State)  : (s.tick1).topo = s.topo := rfl
@[simp] theorem State.tick1_keys (s : State)  : (s.tick1).keys = s.keys := rfl
@[simp] theorem State.tick1_phase (s : State)  : (s.tick1).phase = s.phase := rfl
@[simp] theorem State.tick1_reason (s : State)  : (s.tick1).reason = s.reason := rfl
@[simp] theorem State.tick1_safe (s : State)  : (s.tick1).safe = s.safe := rfl
@[simp] theorem State.tick1_ready (s : State)  : (s.tick1).ready = s.ready := rfl
@[simp] theorem State.tick1_farCap (s : State)  : (s.tick1).farCap = s.farCap := rfl
@[simp] theorem State.tick1_host (s : State)  : (s.tick1).host = s.host := rfl
@[simp] theorem State.tick1_msiMask (s : State)  : (s.tick1).msiMask = s.msiMask := rfl
@[simp] theorem State.tick1_msiPend (s : State)  : (s.tick1).msiPend = s.msiPend := rfl
@[simp] theorem State.tick1_msiSent (s : State)  : (s.tick1).msiSent = s.msiSent := rfl
@[simp] theorem State.tick1_replies (s : State)  : (s.tick1).replies = s.replies := rfl
@[simp] theorem State.tick1_loading (s : State)  : (s.tick1).loading = s.loading := rfl
@[simp] theorem State.tick1_ctxs (s : State)  : (s.tick1).ctxs = s.ctxs := rfl
@[simp] theorem State.tick1_kerns (s : State)  : (s.tick1).kerns = s.kerns := rfl
@[simp] theorem State.tick1_queues (s : State)  : (s.tick1).queues = s.queues := rfl
@[simp] theorem State.tick1_serial (s : State)  : (s.tick1).serial = s.serial := rfl
@[simp] theorem State.tick1_turns (s : State)  : (s.tick1).turns = s.turns := rfl
@[simp] theorem State.tick1_grp (s : State)  : (s.tick1).grp = s.grp := rfl
@[simp] theorem State.tick1_others (s : State)  : (s.tick1).others = s.others := rfl
@[simp] theorem State.tick1_strm (s : State)  : (s.tick1).strm = s.strm := rfl
@[simp] theorem State.tick1_iw (s : State)  : (s.tick1).iw = s.iw := rfl
@[simp] theorem State.tick1_ipc (s : State)  : (s.tick1).ipc = s.ipc := rfl
@[simp] theorem State.tick1_agenda (s : State)  : (s.tick1).agenda = s.agenda := rfl
@[simp] theorem State.tick1_fresh (s : State)  : (s.tick1).fresh = s.fresh + 1 := rfl
@[simp] theorem State.tick1_cores (s : State)  : (s.tick1).cores = s.cores := rfl
@[simp] theorem State.tick1_dies (s : State)  : (s.tick1).dies = s.dies := rfl
@[simp] theorem State.tick1_ndies (s : State)  : (s.tick1).ndies = s.ndies := rfl
@[simp] theorem State.tick1_mem (s : State)  : (s.tick1).mem = s.mem := rfl
@[simp] theorem State.tick1_spareEcc (s : State)  : (s.tick1).spareEcc = s.spareEcc := rfl
@[simp] theorem State.tick1_badBlocks (s : State)  : (s.tick1).badBlocks = s.badBlocks := rfl
@[simp] theorem State.tick1_freed (s : State)  : (s.tick1).freed = s.freed := rfl
@[simp] theorem State.tick1_lost (s : State)  : (s.tick1).lost = s.lost := rfl
@[simp] theorem State.tick1_rowTimes (s : State)  : (s.tick1).rowTimes = s.rowTimes := rfl
@[simp] theorem State.tick1_ilSeq (s : State)  : (s.tick1).ilSeq = s.ilSeq := rfl
@[simp] theorem State.tick1_mighWait (s : State)  : (s.tick1).mighWait = s.mighWait := rfl
@[simp] theorem State.tick1_migActive (s : State)  : (s.tick1).migActive = s.migActive := rfl
@[simp] theorem State.tick1_migQueued (s : State)  : (s.tick1).migQueued = s.migQueued := rfl
@[simp] theorem State.tick1_strs (s : State)  : (s.tick1).strs = s.strs := rfl
@[simp] theorem State.tick1_links (s : State)  : (s.tick1).links = s.links := rfl
@[simp] theorem State.tick1_dests (s : State)  : (s.tick1).dests = s.dests := rfl
@[simp] theorem State.tick1_nextTag (s : State)  : (s.tick1).nextTag = s.nextTag := rfl
@[simp] theorem State.tick1_tagOwner (s : State)  : (s.tick1).tagOwner = s.tagOwner := rfl
@[simp] theorem State.tick1_outbox (s : State)  : (s.tick1).outbox = s.outbox := rfl
@[simp] theorem State.tick1_remReds (s : State)  : (s.tick1).remReds = s.remReds := rfl
@[simp] theorem State.tick1_corrected (s : State)  : (s.tick1).corrected = s.corrected := rfl
@[simp] theorem State.tick1_colls (s : State)  : (s.tick1).colls = s.colls := rfl
@[simp] theorem State.tick1_slots (s : State)  : (s.tick1).slots = s.slots := rfl
@[simp] theorem State.tick1_devw (s : State)  : (s.tick1).devw = s.devw := rfl
@[simp] theorem State.tick1_devOut (s : State)  : (s.tick1).devOut = s.devOut := rfl
@[simp] theorem State.tick1_remWait (s : State)  : (s.tick1).remWait = s.remWait := rfl
@[simp] theorem State.tick1_attSent (s : State)  : (s.tick1).attSent = s.attSent := rfl
@[simp] theorem State.tick1_gangs (s : State)  : (s.tick1).gangs = s.gangs := rfl
@[simp] theorem State.tick1_proms (s : State)  : (s.tick1).proms = s.proms := rfl

-- post --------------------------------------------------------------------------------------------------------------

@[simp] theorem State.post_cycle (s : State) (as : List Act) : (s.post as).cycle = s.cycle := rfl
@[simp] theorem State.post_clockMHz (s : State) (as : List Act) : (s.post as).clockMHz = s.clockMHz := rfl
@[simp] theorem State.post_modid (s : State) (as : List Act) : (s.post as).modid = s.modid := rfl
@[simp] theorem State.post_cxlMask (s : State) (as : List Act) : (s.post as).cxlMask = s.cxlMask := rfl
@[simp] theorem State.post_fibStrap (s : State) (as : List Act) : (s.post as).fibStrap = s.fibStrap := rfl
@[simp] theorem State.post_topo (s : State) (as : List Act) : (s.post as).topo = s.topo := rfl
@[simp] theorem State.post_keys (s : State) (as : List Act) : (s.post as).keys = s.keys := rfl
@[simp] theorem State.post_phase (s : State) (as : List Act) : (s.post as).phase = s.phase := rfl
@[simp] theorem State.post_reason (s : State) (as : List Act) : (s.post as).reason = s.reason := rfl
@[simp] theorem State.post_safe (s : State) (as : List Act) : (s.post as).safe = s.safe := rfl
@[simp] theorem State.post_ready (s : State) (as : List Act) : (s.post as).ready = s.ready := rfl
@[simp] theorem State.post_farCap (s : State) (as : List Act) : (s.post as).farCap = s.farCap := rfl
@[simp] theorem State.post_host (s : State) (as : List Act) : (s.post as).host = s.host := rfl
@[simp] theorem State.post_msiMask (s : State) (as : List Act) : (s.post as).msiMask = s.msiMask := rfl
@[simp] theorem State.post_msiPend (s : State) (as : List Act) : (s.post as).msiPend = s.msiPend := rfl
@[simp] theorem State.post_msiSent (s : State) (as : List Act) : (s.post as).msiSent = s.msiSent := rfl
@[simp] theorem State.post_replies (s : State) (as : List Act) : (s.post as).replies = s.replies := rfl
@[simp] theorem State.post_loading (s : State) (as : List Act) : (s.post as).loading = s.loading := rfl
@[simp] theorem State.post_ctxs (s : State) (as : List Act) : (s.post as).ctxs = s.ctxs := rfl
@[simp] theorem State.post_kerns (s : State) (as : List Act) : (s.post as).kerns = s.kerns := rfl
@[simp] theorem State.post_queues (s : State) (as : List Act) : (s.post as).queues = s.queues := rfl
@[simp] theorem State.post_serial (s : State) (as : List Act) : (s.post as).serial = s.serial := rfl
@[simp] theorem State.post_turns (s : State) (as : List Act) : (s.post as).turns = s.turns := rfl
@[simp] theorem State.post_grp (s : State) (as : List Act) : (s.post as).grp = s.grp := rfl
@[simp] theorem State.post_others (s : State) (as : List Act) : (s.post as).others = s.others := rfl
@[simp] theorem State.post_strm (s : State) (as : List Act) : (s.post as).strm = s.strm := rfl
@[simp] theorem State.post_iw (s : State) (as : List Act) : (s.post as).iw = s.iw := rfl
@[simp] theorem State.post_ipc (s : State) (as : List Act) : (s.post as).ipc = s.ipc := rfl
@[simp] theorem State.post_agenda (s : State) (as : List Act) : (s.post as).agenda = s.agenda ++ as := rfl
@[simp] theorem State.post_fresh (s : State) (as : List Act) : (s.post as).fresh = s.fresh := rfl
@[simp] theorem State.post_cores (s : State) (as : List Act) : (s.post as).cores = s.cores := rfl
@[simp] theorem State.post_dies (s : State) (as : List Act) : (s.post as).dies = s.dies := rfl
@[simp] theorem State.post_ndies (s : State) (as : List Act) : (s.post as).ndies = s.ndies := rfl
@[simp] theorem State.post_mem (s : State) (as : List Act) : (s.post as).mem = s.mem := rfl
@[simp] theorem State.post_spareEcc (s : State) (as : List Act) : (s.post as).spareEcc = s.spareEcc := rfl
@[simp] theorem State.post_badBlocks (s : State) (as : List Act) : (s.post as).badBlocks = s.badBlocks := rfl
@[simp] theorem State.post_freed (s : State) (as : List Act) : (s.post as).freed = s.freed := rfl
@[simp] theorem State.post_lost (s : State) (as : List Act) : (s.post as).lost = s.lost := rfl
@[simp] theorem State.post_rowTimes (s : State) (as : List Act) : (s.post as).rowTimes = s.rowTimes := rfl
@[simp] theorem State.post_ilSeq (s : State) (as : List Act) : (s.post as).ilSeq = s.ilSeq := rfl
@[simp] theorem State.post_mighWait (s : State) (as : List Act) : (s.post as).mighWait = s.mighWait := rfl
@[simp] theorem State.post_migActive (s : State) (as : List Act) : (s.post as).migActive = s.migActive := rfl
@[simp] theorem State.post_migQueued (s : State) (as : List Act) : (s.post as).migQueued = s.migQueued := rfl
@[simp] theorem State.post_strs (s : State) (as : List Act) : (s.post as).strs = s.strs := rfl
@[simp] theorem State.post_links (s : State) (as : List Act) : (s.post as).links = s.links := rfl
@[simp] theorem State.post_dests (s : State) (as : List Act) : (s.post as).dests = s.dests := rfl
@[simp] theorem State.post_nextTag (s : State) (as : List Act) : (s.post as).nextTag = s.nextTag := rfl
@[simp] theorem State.post_tagOwner (s : State) (as : List Act) : (s.post as).tagOwner = s.tagOwner := rfl
@[simp] theorem State.post_outbox (s : State) (as : List Act) : (s.post as).outbox = s.outbox := rfl
@[simp] theorem State.post_remReds (s : State) (as : List Act) : (s.post as).remReds = s.remReds := rfl
@[simp] theorem State.post_corrected (s : State) (as : List Act) : (s.post as).corrected = s.corrected := rfl
@[simp] theorem State.post_colls (s : State) (as : List Act) : (s.post as).colls = s.colls := rfl
@[simp] theorem State.post_slots (s : State) (as : List Act) : (s.post as).slots = s.slots := rfl
@[simp] theorem State.post_devw (s : State) (as : List Act) : (s.post as).devw = s.devw := rfl
@[simp] theorem State.post_devOut (s : State) (as : List Act) : (s.post as).devOut = s.devOut := rfl
@[simp] theorem State.post_remWait (s : State) (as : List Act) : (s.post as).remWait = s.remWait := rfl
@[simp] theorem State.post_attSent (s : State) (as : List Act) : (s.post as).attSent = s.attSent := rfl
@[simp] theorem State.post_gangs (s : State) (as : List Act) : (s.post as).gangs = s.gangs := rfl
@[simp] theorem State.post_proms (s : State) (as : List Act) : (s.post as).proms = s.proms := rfl

-- postE -------------------------------------------------------------------------------------------------------------

@[simp] theorem State.postE_cycle (s : State) (e : Event) : (s.postE e).cycle = s.cycle := rfl
@[simp] theorem State.postE_clockMHz (s : State) (e : Event) : (s.postE e).clockMHz = s.clockMHz := rfl
@[simp] theorem State.postE_modid (s : State) (e : Event) : (s.postE e).modid = s.modid := rfl
@[simp] theorem State.postE_cxlMask (s : State) (e : Event) : (s.postE e).cxlMask = s.cxlMask := rfl
@[simp] theorem State.postE_fibStrap (s : State) (e : Event) : (s.postE e).fibStrap = s.fibStrap := rfl
@[simp] theorem State.postE_topo (s : State) (e : Event) : (s.postE e).topo = s.topo := rfl
@[simp] theorem State.postE_keys (s : State) (e : Event) : (s.postE e).keys = s.keys := rfl
@[simp] theorem State.postE_phase (s : State) (e : Event) : (s.postE e).phase = s.phase := rfl
@[simp] theorem State.postE_reason (s : State) (e : Event) : (s.postE e).reason = s.reason := rfl
@[simp] theorem State.postE_safe (s : State) (e : Event) : (s.postE e).safe = s.safe := rfl
@[simp] theorem State.postE_ready (s : State) (e : Event) : (s.postE e).ready = s.ready := rfl
@[simp] theorem State.postE_farCap (s : State) (e : Event) : (s.postE e).farCap = s.farCap := rfl
@[simp] theorem State.postE_host (s : State) (e : Event) : (s.postE e).host = s.host := rfl
@[simp] theorem State.postE_msiMask (s : State) (e : Event) : (s.postE e).msiMask = s.msiMask := rfl
@[simp] theorem State.postE_msiPend (s : State) (e : Event) : (s.postE e).msiPend = s.msiPend := rfl
@[simp] theorem State.postE_msiSent (s : State) (e : Event) : (s.postE e).msiSent = s.msiSent := rfl
@[simp] theorem State.postE_replies (s : State) (e : Event) : (s.postE e).replies = s.replies := rfl
@[simp] theorem State.postE_loading (s : State) (e : Event) : (s.postE e).loading = s.loading := rfl
@[simp] theorem State.postE_ctxs (s : State) (e : Event) : (s.postE e).ctxs = s.ctxs := rfl
@[simp] theorem State.postE_kerns (s : State) (e : Event) : (s.postE e).kerns = s.kerns := rfl
@[simp] theorem State.postE_queues (s : State) (e : Event) : (s.postE e).queues = s.queues := rfl
@[simp] theorem State.postE_serial (s : State) (e : Event) : (s.postE e).serial = s.serial := rfl
@[simp] theorem State.postE_turns (s : State) (e : Event) : (s.postE e).turns = s.turns := rfl
@[simp] theorem State.postE_grp (s : State) (e : Event) : (s.postE e).grp = s.grp := rfl
@[simp] theorem State.postE_others (s : State) (e : Event) : (s.postE e).others = s.others := rfl
@[simp] theorem State.postE_strm (s : State) (e : Event) : (s.postE e).strm = s.strm := rfl
@[simp] theorem State.postE_iw (s : State) (e : Event) : (s.postE e).iw = s.iw := rfl
@[simp] theorem State.postE_ipc (s : State) (e : Event) : (s.postE e).ipc = s.ipc := rfl
@[simp] theorem State.postE_agenda (s : State) (e : Event) : (s.postE e).agenda = s.agenda ++ [.event e] := rfl
@[simp] theorem State.postE_fresh (s : State) (e : Event) : (s.postE e).fresh = s.fresh := rfl
@[simp] theorem State.postE_cores (s : State) (e : Event) : (s.postE e).cores = s.cores := rfl
@[simp] theorem State.postE_dies (s : State) (e : Event) : (s.postE e).dies = s.dies := rfl
@[simp] theorem State.postE_ndies (s : State) (e : Event) : (s.postE e).ndies = s.ndies := rfl
@[simp] theorem State.postE_mem (s : State) (e : Event) : (s.postE e).mem = s.mem := rfl
@[simp] theorem State.postE_spareEcc (s : State) (e : Event) : (s.postE e).spareEcc = s.spareEcc := rfl
@[simp] theorem State.postE_badBlocks (s : State) (e : Event) : (s.postE e).badBlocks = s.badBlocks := rfl
@[simp] theorem State.postE_freed (s : State) (e : Event) : (s.postE e).freed = s.freed := rfl
@[simp] theorem State.postE_lost (s : State) (e : Event) : (s.postE e).lost = s.lost := rfl
@[simp] theorem State.postE_rowTimes (s : State) (e : Event) : (s.postE e).rowTimes = s.rowTimes := rfl
@[simp] theorem State.postE_ilSeq (s : State) (e : Event) : (s.postE e).ilSeq = s.ilSeq := rfl
@[simp] theorem State.postE_mighWait (s : State) (e : Event) : (s.postE e).mighWait = s.mighWait := rfl
@[simp] theorem State.postE_migActive (s : State) (e : Event) : (s.postE e).migActive = s.migActive := rfl
@[simp] theorem State.postE_migQueued (s : State) (e : Event) : (s.postE e).migQueued = s.migQueued := rfl
@[simp] theorem State.postE_strs (s : State) (e : Event) : (s.postE e).strs = s.strs := rfl
@[simp] theorem State.postE_links (s : State) (e : Event) : (s.postE e).links = s.links := rfl
@[simp] theorem State.postE_dests (s : State) (e : Event) : (s.postE e).dests = s.dests := rfl
@[simp] theorem State.postE_nextTag (s : State) (e : Event) : (s.postE e).nextTag = s.nextTag := rfl
@[simp] theorem State.postE_tagOwner (s : State) (e : Event) : (s.postE e).tagOwner = s.tagOwner := rfl
@[simp] theorem State.postE_outbox (s : State) (e : Event) : (s.postE e).outbox = s.outbox := rfl
@[simp] theorem State.postE_remReds (s : State) (e : Event) : (s.postE e).remReds = s.remReds := rfl
@[simp] theorem State.postE_corrected (s : State) (e : Event) : (s.postE e).corrected = s.corrected := rfl
@[simp] theorem State.postE_colls (s : State) (e : Event) : (s.postE e).colls = s.colls := rfl
@[simp] theorem State.postE_slots (s : State) (e : Event) : (s.postE e).slots = s.slots := rfl
@[simp] theorem State.postE_devw (s : State) (e : Event) : (s.postE e).devw = s.devw := rfl
@[simp] theorem State.postE_devOut (s : State) (e : Event) : (s.postE e).devOut = s.devOut := rfl
@[simp] theorem State.postE_remWait (s : State) (e : Event) : (s.postE e).remWait = s.remWait := rfl
@[simp] theorem State.postE_attSent (s : State) (e : Event) : (s.postE e).attSent = s.attSent := rfl
@[simp] theorem State.postE_gangs (s : State) (e : Event) : (s.postE e).gangs = s.gangs := rfl
@[simp] theorem State.postE_proms (s : State) (e : Event) : (s.postE e).proms = s.proms := rfl

-- updStream ---------------------------------------------------------------------------------------------------------

@[simp] theorem State.updStream_cycle (s : State) (st : Nat) (f : StreamSt → StreamSt) : (s.updStream st f).cycle = s.cycle := rfl
@[simp] theorem State.updStream_clockMHz (s : State) (st : Nat) (f : StreamSt → StreamSt) : (s.updStream st f).clockMHz = s.clockMHz := rfl
@[simp] theorem State.updStream_modid (s : State) (st : Nat) (f : StreamSt → StreamSt) : (s.updStream st f).modid = s.modid := rfl
@[simp] theorem State.updStream_cxlMask (s : State) (st : Nat) (f : StreamSt → StreamSt) : (s.updStream st f).cxlMask = s.cxlMask := rfl
@[simp] theorem State.updStream_fibStrap (s : State) (st : Nat) (f : StreamSt → StreamSt) : (s.updStream st f).fibStrap = s.fibStrap := rfl
@[simp] theorem State.updStream_topo (s : State) (st : Nat) (f : StreamSt → StreamSt) : (s.updStream st f).topo = s.topo := rfl
@[simp] theorem State.updStream_keys (s : State) (st : Nat) (f : StreamSt → StreamSt) : (s.updStream st f).keys = s.keys := rfl
@[simp] theorem State.updStream_phase (s : State) (st : Nat) (f : StreamSt → StreamSt) : (s.updStream st f).phase = s.phase := rfl
@[simp] theorem State.updStream_reason (s : State) (st : Nat) (f : StreamSt → StreamSt) : (s.updStream st f).reason = s.reason := rfl
@[simp] theorem State.updStream_safe (s : State) (st : Nat) (f : StreamSt → StreamSt) : (s.updStream st f).safe = s.safe := rfl
@[simp] theorem State.updStream_ready (s : State) (st : Nat) (f : StreamSt → StreamSt) : (s.updStream st f).ready = s.ready := rfl
@[simp] theorem State.updStream_farCap (s : State) (st : Nat) (f : StreamSt → StreamSt) : (s.updStream st f).farCap = s.farCap := rfl
@[simp] theorem State.updStream_host (s : State) (st : Nat) (f : StreamSt → StreamSt) : (s.updStream st f).host = s.host := rfl
@[simp] theorem State.updStream_msiMask (s : State) (st : Nat) (f : StreamSt → StreamSt) : (s.updStream st f).msiMask = s.msiMask := rfl
@[simp] theorem State.updStream_msiPend (s : State) (st : Nat) (f : StreamSt → StreamSt) : (s.updStream st f).msiPend = s.msiPend := rfl
@[simp] theorem State.updStream_msiSent (s : State) (st : Nat) (f : StreamSt → StreamSt) : (s.updStream st f).msiSent = s.msiSent := rfl
@[simp] theorem State.updStream_replies (s : State) (st : Nat) (f : StreamSt → StreamSt) : (s.updStream st f).replies = s.replies := rfl
@[simp] theorem State.updStream_loading (s : State) (st : Nat) (f : StreamSt → StreamSt) : (s.updStream st f).loading = s.loading := rfl
@[simp] theorem State.updStream_ctxs (s : State) (st : Nat) (f : StreamSt → StreamSt) : (s.updStream st f).ctxs = s.ctxs := rfl
@[simp] theorem State.updStream_kerns (s : State) (st : Nat) (f : StreamSt → StreamSt) : (s.updStream st f).kerns = s.kerns := rfl
@[simp] theorem State.updStream_queues (s : State) (st : Nat) (f : StreamSt → StreamSt) : (s.updStream st f).queues = s.queues := rfl
@[simp] theorem State.updStream_serial (s : State) (st : Nat) (f : StreamSt → StreamSt) : (s.updStream st f).serial = s.serial := rfl
@[simp] theorem State.updStream_turns (s : State) (st : Nat) (f : StreamSt → StreamSt) : (s.updStream st f).turns = s.turns := rfl
@[simp] theorem State.updStream_grp (s : State) (st : Nat) (f : StreamSt → StreamSt) : (s.updStream st f).grp = s.grp.updStream st f := rfl
@[simp] theorem State.updStream_others (s : State) (st : Nat) (f : StreamSt → StreamSt) : (s.updStream st f).others = s.others := rfl
@[simp] theorem State.updStream_strm (s : State) (st : Nat) (f : StreamSt → StreamSt) : (s.updStream st f).strm = s.strm := rfl
@[simp] theorem State.updStream_iw (s : State) (st : Nat) (f : StreamSt → StreamSt) : (s.updStream st f).iw = s.iw := rfl
@[simp] theorem State.updStream_ipc (s : State) (st : Nat) (f : StreamSt → StreamSt) : (s.updStream st f).ipc = s.ipc := rfl
@[simp] theorem State.updStream_agenda (s : State) (st : Nat) (f : StreamSt → StreamSt) : (s.updStream st f).agenda = s.agenda := rfl
@[simp] theorem State.updStream_fresh (s : State) (st : Nat) (f : StreamSt → StreamSt) : (s.updStream st f).fresh = s.fresh := rfl
@[simp] theorem State.updStream_cores (s : State) (st : Nat) (f : StreamSt → StreamSt) : (s.updStream st f).cores = s.cores := rfl
@[simp] theorem State.updStream_dies (s : State) (st : Nat) (f : StreamSt → StreamSt) : (s.updStream st f).dies = s.dies := rfl
@[simp] theorem State.updStream_ndies (s : State) (st : Nat) (f : StreamSt → StreamSt) : (s.updStream st f).ndies = s.ndies := rfl
@[simp] theorem State.updStream_mem (s : State) (st : Nat) (f : StreamSt → StreamSt) : (s.updStream st f).mem = s.mem := rfl
@[simp] theorem State.updStream_spareEcc (s : State) (st : Nat) (f : StreamSt → StreamSt) : (s.updStream st f).spareEcc = s.spareEcc := rfl
@[simp] theorem State.updStream_badBlocks (s : State) (st : Nat) (f : StreamSt → StreamSt) : (s.updStream st f).badBlocks = s.badBlocks := rfl
@[simp] theorem State.updStream_freed (s : State) (st : Nat) (f : StreamSt → StreamSt) : (s.updStream st f).freed = s.freed := rfl
@[simp] theorem State.updStream_lost (s : State) (st : Nat) (f : StreamSt → StreamSt) : (s.updStream st f).lost = s.lost := rfl
@[simp] theorem State.updStream_rowTimes (s : State) (st : Nat) (f : StreamSt → StreamSt) : (s.updStream st f).rowTimes = s.rowTimes := rfl
@[simp] theorem State.updStream_ilSeq (s : State) (st : Nat) (f : StreamSt → StreamSt) : (s.updStream st f).ilSeq = s.ilSeq := rfl
@[simp] theorem State.updStream_mighWait (s : State) (st : Nat) (f : StreamSt → StreamSt) : (s.updStream st f).mighWait = s.mighWait := rfl
@[simp] theorem State.updStream_migActive (s : State) (st : Nat) (f : StreamSt → StreamSt) : (s.updStream st f).migActive = s.migActive := rfl
@[simp] theorem State.updStream_migQueued (s : State) (st : Nat) (f : StreamSt → StreamSt) : (s.updStream st f).migQueued = s.migQueued := rfl
@[simp] theorem State.updStream_strs (s : State) (st : Nat) (f : StreamSt → StreamSt) : (s.updStream st f).strs = s.strs := rfl
@[simp] theorem State.updStream_links (s : State) (st : Nat) (f : StreamSt → StreamSt) : (s.updStream st f).links = s.links := rfl
@[simp] theorem State.updStream_dests (s : State) (st : Nat) (f : StreamSt → StreamSt) : (s.updStream st f).dests = s.dests := rfl
@[simp] theorem State.updStream_nextTag (s : State) (st : Nat) (f : StreamSt → StreamSt) : (s.updStream st f).nextTag = s.nextTag := rfl
@[simp] theorem State.updStream_tagOwner (s : State) (st : Nat) (f : StreamSt → StreamSt) : (s.updStream st f).tagOwner = s.tagOwner := rfl
@[simp] theorem State.updStream_outbox (s : State) (st : Nat) (f : StreamSt → StreamSt) : (s.updStream st f).outbox = s.outbox := rfl
@[simp] theorem State.updStream_remReds (s : State) (st : Nat) (f : StreamSt → StreamSt) : (s.updStream st f).remReds = s.remReds := rfl
@[simp] theorem State.updStream_corrected (s : State) (st : Nat) (f : StreamSt → StreamSt) : (s.updStream st f).corrected = s.corrected := rfl
@[simp] theorem State.updStream_colls (s : State) (st : Nat) (f : StreamSt → StreamSt) : (s.updStream st f).colls = s.colls := rfl
@[simp] theorem State.updStream_slots (s : State) (st : Nat) (f : StreamSt → StreamSt) : (s.updStream st f).slots = s.slots := rfl
@[simp] theorem State.updStream_devw (s : State) (st : Nat) (f : StreamSt → StreamSt) : (s.updStream st f).devw = s.devw := rfl
@[simp] theorem State.updStream_devOut (s : State) (st : Nat) (f : StreamSt → StreamSt) : (s.updStream st f).devOut = s.devOut := rfl
@[simp] theorem State.updStream_remWait (s : State) (st : Nat) (f : StreamSt → StreamSt) : (s.updStream st f).remWait = s.remWait := rfl
@[simp] theorem State.updStream_attSent (s : State) (st : Nat) (f : StreamSt → StreamSt) : (s.updStream st f).attSent = s.attSent := rfl
@[simp] theorem State.updStream_gangs (s : State) (st : Nat) (f : StreamSt → StreamSt) : (s.updStream st f).gangs = s.gangs := rfl
@[simp] theorem State.updStream_proms (s : State) (st : Nat) (f : StreamSt → StreamSt) : (s.updStream st f).proms = s.proms := rfl

-- setPc -------------------------------------------------------------------------------------------------------------

@[simp] theorem State.setPc_cycle (s : State) (st : Nat) (pc : W64) : (s.setPc st pc).cycle = s.cycle := rfl
@[simp] theorem State.setPc_clockMHz (s : State) (st : Nat) (pc : W64) : (s.setPc st pc).clockMHz = s.clockMHz := rfl
@[simp] theorem State.setPc_modid (s : State) (st : Nat) (pc : W64) : (s.setPc st pc).modid = s.modid := rfl
@[simp] theorem State.setPc_cxlMask (s : State) (st : Nat) (pc : W64) : (s.setPc st pc).cxlMask = s.cxlMask := rfl
@[simp] theorem State.setPc_fibStrap (s : State) (st : Nat) (pc : W64) : (s.setPc st pc).fibStrap = s.fibStrap := rfl
@[simp] theorem State.setPc_topo (s : State) (st : Nat) (pc : W64) : (s.setPc st pc).topo = s.topo := rfl
@[simp] theorem State.setPc_keys (s : State) (st : Nat) (pc : W64) : (s.setPc st pc).keys = s.keys := rfl
@[simp] theorem State.setPc_phase (s : State) (st : Nat) (pc : W64) : (s.setPc st pc).phase = s.phase := rfl
@[simp] theorem State.setPc_reason (s : State) (st : Nat) (pc : W64) : (s.setPc st pc).reason = s.reason := rfl
@[simp] theorem State.setPc_safe (s : State) (st : Nat) (pc : W64) : (s.setPc st pc).safe = s.safe := rfl
@[simp] theorem State.setPc_ready (s : State) (st : Nat) (pc : W64) : (s.setPc st pc).ready = s.ready := rfl
@[simp] theorem State.setPc_farCap (s : State) (st : Nat) (pc : W64) : (s.setPc st pc).farCap = s.farCap := rfl
@[simp] theorem State.setPc_host (s : State) (st : Nat) (pc : W64) : (s.setPc st pc).host = s.host := rfl
@[simp] theorem State.setPc_msiMask (s : State) (st : Nat) (pc : W64) : (s.setPc st pc).msiMask = s.msiMask := rfl
@[simp] theorem State.setPc_msiPend (s : State) (st : Nat) (pc : W64) : (s.setPc st pc).msiPend = s.msiPend := rfl
@[simp] theorem State.setPc_msiSent (s : State) (st : Nat) (pc : W64) : (s.setPc st pc).msiSent = s.msiSent := rfl
@[simp] theorem State.setPc_replies (s : State) (st : Nat) (pc : W64) : (s.setPc st pc).replies = s.replies := rfl
@[simp] theorem State.setPc_loading (s : State) (st : Nat) (pc : W64) : (s.setPc st pc).loading = s.loading := rfl
@[simp] theorem State.setPc_ctxs (s : State) (st : Nat) (pc : W64) : (s.setPc st pc).ctxs = s.ctxs := rfl
@[simp] theorem State.setPc_kerns (s : State) (st : Nat) (pc : W64) : (s.setPc st pc).kerns = s.kerns := rfl
@[simp] theorem State.setPc_queues (s : State) (st : Nat) (pc : W64) : (s.setPc st pc).queues = s.queues := rfl
@[simp] theorem State.setPc_serial (s : State) (st : Nat) (pc : W64) : (s.setPc st pc).serial = s.serial := rfl
@[simp] theorem State.setPc_turns (s : State) (st : Nat) (pc : W64) : (s.setPc st pc).turns = s.turns := rfl
@[simp] theorem State.setPc_grp (s : State) (st : Nat) (pc : W64) : (s.setPc st pc).grp = s.grp.updStream st (fun t => { t with pc := pc, run := .ready }) := rfl
@[simp] theorem State.setPc_others (s : State) (st : Nat) (pc : W64) : (s.setPc st pc).others = s.others := rfl
@[simp] theorem State.setPc_strm (s : State) (st : Nat) (pc : W64) : (s.setPc st pc).strm = s.strm := rfl
@[simp] theorem State.setPc_iw (s : State) (st : Nat) (pc : W64) : (s.setPc st pc).iw = s.iw := rfl
@[simp] theorem State.setPc_ipc (s : State) (st : Nat) (pc : W64) : (s.setPc st pc).ipc = s.ipc := rfl
@[simp] theorem State.setPc_agenda (s : State) (st : Nat) (pc : W64) : (s.setPc st pc).agenda = s.agenda := rfl
@[simp] theorem State.setPc_fresh (s : State) (st : Nat) (pc : W64) : (s.setPc st pc).fresh = s.fresh := rfl
@[simp] theorem State.setPc_cores (s : State) (st : Nat) (pc : W64) : (s.setPc st pc).cores = s.cores := rfl
@[simp] theorem State.setPc_dies (s : State) (st : Nat) (pc : W64) : (s.setPc st pc).dies = s.dies := rfl
@[simp] theorem State.setPc_ndies (s : State) (st : Nat) (pc : W64) : (s.setPc st pc).ndies = s.ndies := rfl
@[simp] theorem State.setPc_mem (s : State) (st : Nat) (pc : W64) : (s.setPc st pc).mem = s.mem := rfl
@[simp] theorem State.setPc_spareEcc (s : State) (st : Nat) (pc : W64) : (s.setPc st pc).spareEcc = s.spareEcc := rfl
@[simp] theorem State.setPc_badBlocks (s : State) (st : Nat) (pc : W64) : (s.setPc st pc).badBlocks = s.badBlocks := rfl
@[simp] theorem State.setPc_freed (s : State) (st : Nat) (pc : W64) : (s.setPc st pc).freed = s.freed := rfl
@[simp] theorem State.setPc_lost (s : State) (st : Nat) (pc : W64) : (s.setPc st pc).lost = s.lost := rfl
@[simp] theorem State.setPc_rowTimes (s : State) (st : Nat) (pc : W64) : (s.setPc st pc).rowTimes = s.rowTimes := rfl
@[simp] theorem State.setPc_ilSeq (s : State) (st : Nat) (pc : W64) : (s.setPc st pc).ilSeq = s.ilSeq := rfl
@[simp] theorem State.setPc_mighWait (s : State) (st : Nat) (pc : W64) : (s.setPc st pc).mighWait = s.mighWait := rfl
@[simp] theorem State.setPc_migActive (s : State) (st : Nat) (pc : W64) : (s.setPc st pc).migActive = s.migActive := rfl
@[simp] theorem State.setPc_migQueued (s : State) (st : Nat) (pc : W64) : (s.setPc st pc).migQueued = s.migQueued := rfl
@[simp] theorem State.setPc_strs (s : State) (st : Nat) (pc : W64) : (s.setPc st pc).strs = s.strs := rfl
@[simp] theorem State.setPc_links (s : State) (st : Nat) (pc : W64) : (s.setPc st pc).links = s.links := rfl
@[simp] theorem State.setPc_dests (s : State) (st : Nat) (pc : W64) : (s.setPc st pc).dests = s.dests := rfl
@[simp] theorem State.setPc_nextTag (s : State) (st : Nat) (pc : W64) : (s.setPc st pc).nextTag = s.nextTag := rfl
@[simp] theorem State.setPc_tagOwner (s : State) (st : Nat) (pc : W64) : (s.setPc st pc).tagOwner = s.tagOwner := rfl
@[simp] theorem State.setPc_outbox (s : State) (st : Nat) (pc : W64) : (s.setPc st pc).outbox = s.outbox := rfl
@[simp] theorem State.setPc_remReds (s : State) (st : Nat) (pc : W64) : (s.setPc st pc).remReds = s.remReds := rfl
@[simp] theorem State.setPc_corrected (s : State) (st : Nat) (pc : W64) : (s.setPc st pc).corrected = s.corrected := rfl
@[simp] theorem State.setPc_colls (s : State) (st : Nat) (pc : W64) : (s.setPc st pc).colls = s.colls := rfl
@[simp] theorem State.setPc_slots (s : State) (st : Nat) (pc : W64) : (s.setPc st pc).slots = s.slots := rfl
@[simp] theorem State.setPc_devw (s : State) (st : Nat) (pc : W64) : (s.setPc st pc).devw = s.devw := rfl
@[simp] theorem State.setPc_devOut (s : State) (st : Nat) (pc : W64) : (s.setPc st pc).devOut = s.devOut := rfl
@[simp] theorem State.setPc_remWait (s : State) (st : Nat) (pc : W64) : (s.setPc st pc).remWait = s.remWait := rfl
@[simp] theorem State.setPc_attSent (s : State) (st : Nat) (pc : W64) : (s.setPc st pc).attSent = s.attSent := rfl
@[simp] theorem State.setPc_gangs (s : State) (st : Nat) (pc : W64) : (s.setPc st pc).gangs = s.gangs := rfl
@[simp] theorem State.setPc_proms (s : State) (st : Nat) (pc : W64) : (s.setPc st pc).proms = s.proms := rfl

-- advance -----------------------------------------------------------------------------------------------------------

@[simp] theorem State.advance_cycle (s : State) (st : Nat) : (s.advance st).cycle = s.cycle := rfl
@[simp] theorem State.advance_clockMHz (s : State) (st : Nat) : (s.advance st).clockMHz = s.clockMHz := rfl
@[simp] theorem State.advance_modid (s : State) (st : Nat) : (s.advance st).modid = s.modid := rfl
@[simp] theorem State.advance_cxlMask (s : State) (st : Nat) : (s.advance st).cxlMask = s.cxlMask := rfl
@[simp] theorem State.advance_fibStrap (s : State) (st : Nat) : (s.advance st).fibStrap = s.fibStrap := rfl
@[simp] theorem State.advance_topo (s : State) (st : Nat) : (s.advance st).topo = s.topo := rfl
@[simp] theorem State.advance_keys (s : State) (st : Nat) : (s.advance st).keys = s.keys := rfl
@[simp] theorem State.advance_phase (s : State) (st : Nat) : (s.advance st).phase = s.phase := rfl
@[simp] theorem State.advance_reason (s : State) (st : Nat) : (s.advance st).reason = s.reason := rfl
@[simp] theorem State.advance_safe (s : State) (st : Nat) : (s.advance st).safe = s.safe := rfl
@[simp] theorem State.advance_ready (s : State) (st : Nat) : (s.advance st).ready = s.ready := rfl
@[simp] theorem State.advance_farCap (s : State) (st : Nat) : (s.advance st).farCap = s.farCap := rfl
@[simp] theorem State.advance_host (s : State) (st : Nat) : (s.advance st).host = s.host := rfl
@[simp] theorem State.advance_msiMask (s : State) (st : Nat) : (s.advance st).msiMask = s.msiMask := rfl
@[simp] theorem State.advance_msiPend (s : State) (st : Nat) : (s.advance st).msiPend = s.msiPend := rfl
@[simp] theorem State.advance_msiSent (s : State) (st : Nat) : (s.advance st).msiSent = s.msiSent := rfl
@[simp] theorem State.advance_replies (s : State) (st : Nat) : (s.advance st).replies = s.replies := rfl
@[simp] theorem State.advance_loading (s : State) (st : Nat) : (s.advance st).loading = s.loading := rfl
@[simp] theorem State.advance_ctxs (s : State) (st : Nat) : (s.advance st).ctxs = s.ctxs := rfl
@[simp] theorem State.advance_kerns (s : State) (st : Nat) : (s.advance st).kerns = s.kerns := rfl
@[simp] theorem State.advance_queues (s : State) (st : Nat) : (s.advance st).queues = s.queues := rfl
@[simp] theorem State.advance_serial (s : State) (st : Nat) : (s.advance st).serial = s.serial := rfl
@[simp] theorem State.advance_turns (s : State) (st : Nat) : (s.advance st).turns = s.turns := rfl
@[simp] theorem State.advance_grp (s : State) (st : Nat) : (s.advance st).grp = s.grp.updStream st (fun t => { t with pc := s.pc st + 4, run := .ready }) := rfl
@[simp] theorem State.advance_others (s : State) (st : Nat) : (s.advance st).others = s.others := rfl
@[simp] theorem State.advance_strm (s : State) (st : Nat) : (s.advance st).strm = s.strm := rfl
@[simp] theorem State.advance_iw (s : State) (st : Nat) : (s.advance st).iw = s.iw := rfl
@[simp] theorem State.advance_ipc (s : State) (st : Nat) : (s.advance st).ipc = s.ipc := rfl
@[simp] theorem State.advance_agenda (s : State) (st : Nat) : (s.advance st).agenda = s.agenda := rfl
@[simp] theorem State.advance_fresh (s : State) (st : Nat) : (s.advance st).fresh = s.fresh := rfl
@[simp] theorem State.advance_cores (s : State) (st : Nat) : (s.advance st).cores = s.cores := rfl
@[simp] theorem State.advance_dies (s : State) (st : Nat) : (s.advance st).dies = s.dies := rfl
@[simp] theorem State.advance_ndies (s : State) (st : Nat) : (s.advance st).ndies = s.ndies := rfl
@[simp] theorem State.advance_mem (s : State) (st : Nat) : (s.advance st).mem = s.mem := rfl
@[simp] theorem State.advance_spareEcc (s : State) (st : Nat) : (s.advance st).spareEcc = s.spareEcc := rfl
@[simp] theorem State.advance_badBlocks (s : State) (st : Nat) : (s.advance st).badBlocks = s.badBlocks := rfl
@[simp] theorem State.advance_freed (s : State) (st : Nat) : (s.advance st).freed = s.freed := rfl
@[simp] theorem State.advance_lost (s : State) (st : Nat) : (s.advance st).lost = s.lost := rfl
@[simp] theorem State.advance_rowTimes (s : State) (st : Nat) : (s.advance st).rowTimes = s.rowTimes := rfl
@[simp] theorem State.advance_ilSeq (s : State) (st : Nat) : (s.advance st).ilSeq = s.ilSeq := rfl
@[simp] theorem State.advance_mighWait (s : State) (st : Nat) : (s.advance st).mighWait = s.mighWait := rfl
@[simp] theorem State.advance_migActive (s : State) (st : Nat) : (s.advance st).migActive = s.migActive := rfl
@[simp] theorem State.advance_migQueued (s : State) (st : Nat) : (s.advance st).migQueued = s.migQueued := rfl
@[simp] theorem State.advance_strs (s : State) (st : Nat) : (s.advance st).strs = s.strs := rfl
@[simp] theorem State.advance_links (s : State) (st : Nat) : (s.advance st).links = s.links := rfl
@[simp] theorem State.advance_dests (s : State) (st : Nat) : (s.advance st).dests = s.dests := rfl
@[simp] theorem State.advance_nextTag (s : State) (st : Nat) : (s.advance st).nextTag = s.nextTag := rfl
@[simp] theorem State.advance_tagOwner (s : State) (st : Nat) : (s.advance st).tagOwner = s.tagOwner := rfl
@[simp] theorem State.advance_outbox (s : State) (st : Nat) : (s.advance st).outbox = s.outbox := rfl
@[simp] theorem State.advance_remReds (s : State) (st : Nat) : (s.advance st).remReds = s.remReds := rfl
@[simp] theorem State.advance_corrected (s : State) (st : Nat) : (s.advance st).corrected = s.corrected := rfl
@[simp] theorem State.advance_colls (s : State) (st : Nat) : (s.advance st).colls = s.colls := rfl
@[simp] theorem State.advance_slots (s : State) (st : Nat) : (s.advance st).slots = s.slots := rfl
@[simp] theorem State.advance_devw (s : State) (st : Nat) : (s.advance st).devw = s.devw := rfl
@[simp] theorem State.advance_devOut (s : State) (st : Nat) : (s.advance st).devOut = s.devOut := rfl
@[simp] theorem State.advance_remWait (s : State) (st : Nat) : (s.advance st).remWait = s.remWait := rfl
@[simp] theorem State.advance_attSent (s : State) (st : Nat) : (s.advance st).attSent = s.attSent := rfl
@[simp] theorem State.advance_gangs (s : State) (st : Nat) : (s.advance st).gangs = s.gangs := rfl
@[simp] theorem State.advance_proms (s : State) (st : Nat) : (s.advance st).proms = s.proms := rfl

-- block -------------------------------------------------------------------------------------------------------------

@[simp] theorem State.block_cycle (s : State) (st : Nat) : (s.block st).cycle = s.cycle := rfl
@[simp] theorem State.block_clockMHz (s : State) (st : Nat) : (s.block st).clockMHz = s.clockMHz := rfl
@[simp] theorem State.block_modid (s : State) (st : Nat) : (s.block st).modid = s.modid := rfl
@[simp] theorem State.block_cxlMask (s : State) (st : Nat) : (s.block st).cxlMask = s.cxlMask := rfl
@[simp] theorem State.block_fibStrap (s : State) (st : Nat) : (s.block st).fibStrap = s.fibStrap := rfl
@[simp] theorem State.block_topo (s : State) (st : Nat) : (s.block st).topo = s.topo := rfl
@[simp] theorem State.block_keys (s : State) (st : Nat) : (s.block st).keys = s.keys := rfl
@[simp] theorem State.block_phase (s : State) (st : Nat) : (s.block st).phase = s.phase := rfl
@[simp] theorem State.block_reason (s : State) (st : Nat) : (s.block st).reason = s.reason := rfl
@[simp] theorem State.block_safe (s : State) (st : Nat) : (s.block st).safe = s.safe := rfl
@[simp] theorem State.block_ready (s : State) (st : Nat) : (s.block st).ready = s.ready := rfl
@[simp] theorem State.block_farCap (s : State) (st : Nat) : (s.block st).farCap = s.farCap := rfl
@[simp] theorem State.block_host (s : State) (st : Nat) : (s.block st).host = s.host := rfl
@[simp] theorem State.block_msiMask (s : State) (st : Nat) : (s.block st).msiMask = s.msiMask := rfl
@[simp] theorem State.block_msiPend (s : State) (st : Nat) : (s.block st).msiPend = s.msiPend := rfl
@[simp] theorem State.block_msiSent (s : State) (st : Nat) : (s.block st).msiSent = s.msiSent := rfl
@[simp] theorem State.block_replies (s : State) (st : Nat) : (s.block st).replies = s.replies := rfl
@[simp] theorem State.block_loading (s : State) (st : Nat) : (s.block st).loading = s.loading := rfl
@[simp] theorem State.block_ctxs (s : State) (st : Nat) : (s.block st).ctxs = s.ctxs := rfl
@[simp] theorem State.block_kerns (s : State) (st : Nat) : (s.block st).kerns = s.kerns := rfl
@[simp] theorem State.block_queues (s : State) (st : Nat) : (s.block st).queues = s.queues := rfl
@[simp] theorem State.block_serial (s : State) (st : Nat) : (s.block st).serial = s.serial := rfl
@[simp] theorem State.block_turns (s : State) (st : Nat) : (s.block st).turns = s.turns := rfl
@[simp] theorem State.block_grp (s : State) (st : Nat) : (s.block st).grp = s.grp.updStream st (fun t => { t with run := .blocked }) := rfl
@[simp] theorem State.block_others (s : State) (st : Nat) : (s.block st).others = s.others := rfl
@[simp] theorem State.block_strm (s : State) (st : Nat) : (s.block st).strm = s.strm := rfl
@[simp] theorem State.block_iw (s : State) (st : Nat) : (s.block st).iw = s.iw := rfl
@[simp] theorem State.block_ipc (s : State) (st : Nat) : (s.block st).ipc = s.ipc := rfl
@[simp] theorem State.block_agenda (s : State) (st : Nat) : (s.block st).agenda = s.agenda := rfl
@[simp] theorem State.block_fresh (s : State) (st : Nat) : (s.block st).fresh = s.fresh := rfl
@[simp] theorem State.block_cores (s : State) (st : Nat) : (s.block st).cores = s.cores := rfl
@[simp] theorem State.block_dies (s : State) (st : Nat) : (s.block st).dies = s.dies := rfl
@[simp] theorem State.block_ndies (s : State) (st : Nat) : (s.block st).ndies = s.ndies := rfl
@[simp] theorem State.block_mem (s : State) (st : Nat) : (s.block st).mem = s.mem := rfl
@[simp] theorem State.block_spareEcc (s : State) (st : Nat) : (s.block st).spareEcc = s.spareEcc := rfl
@[simp] theorem State.block_badBlocks (s : State) (st : Nat) : (s.block st).badBlocks = s.badBlocks := rfl
@[simp] theorem State.block_freed (s : State) (st : Nat) : (s.block st).freed = s.freed := rfl
@[simp] theorem State.block_lost (s : State) (st : Nat) : (s.block st).lost = s.lost := rfl
@[simp] theorem State.block_rowTimes (s : State) (st : Nat) : (s.block st).rowTimes = s.rowTimes := rfl
@[simp] theorem State.block_ilSeq (s : State) (st : Nat) : (s.block st).ilSeq = s.ilSeq := rfl
@[simp] theorem State.block_mighWait (s : State) (st : Nat) : (s.block st).mighWait = s.mighWait := rfl
@[simp] theorem State.block_migActive (s : State) (st : Nat) : (s.block st).migActive = s.migActive := rfl
@[simp] theorem State.block_migQueued (s : State) (st : Nat) : (s.block st).migQueued = s.migQueued := rfl
@[simp] theorem State.block_strs (s : State) (st : Nat) : (s.block st).strs = s.strs := rfl
@[simp] theorem State.block_links (s : State) (st : Nat) : (s.block st).links = s.links := rfl
@[simp] theorem State.block_dests (s : State) (st : Nat) : (s.block st).dests = s.dests := rfl
@[simp] theorem State.block_nextTag (s : State) (st : Nat) : (s.block st).nextTag = s.nextTag := rfl
@[simp] theorem State.block_tagOwner (s : State) (st : Nat) : (s.block st).tagOwner = s.tagOwner := rfl
@[simp] theorem State.block_outbox (s : State) (st : Nat) : (s.block st).outbox = s.outbox := rfl
@[simp] theorem State.block_remReds (s : State) (st : Nat) : (s.block st).remReds = s.remReds := rfl
@[simp] theorem State.block_corrected (s : State) (st : Nat) : (s.block st).corrected = s.corrected := rfl
@[simp] theorem State.block_colls (s : State) (st : Nat) : (s.block st).colls = s.colls := rfl
@[simp] theorem State.block_slots (s : State) (st : Nat) : (s.block st).slots = s.slots := rfl
@[simp] theorem State.block_devw (s : State) (st : Nat) : (s.block st).devw = s.devw := rfl
@[simp] theorem State.block_devOut (s : State) (st : Nat) : (s.block st).devOut = s.devOut := rfl
@[simp] theorem State.block_remWait (s : State) (st : Nat) : (s.block st).remWait = s.remWait := rfl
@[simp] theorem State.block_attSent (s : State) (st : Nat) : (s.block st).attSent = s.attSent := rfl
@[simp] theorem State.block_gangs (s : State) (st : Nat) : (s.block st).gangs = s.gangs := rfl
@[simp] theorem State.block_proms (s : State) (st : Nat) : (s.block st).proms = s.proms := rfl

-- setScr ------------------------------------------------------------------------------------------------------------

@[simp] theorem State.setScr_cycle (s : State) (off n v : Nat) : (s.setScr off n v).cycle = s.cycle := rfl
@[simp] theorem State.setScr_clockMHz (s : State) (off n v : Nat) : (s.setScr off n v).clockMHz = s.clockMHz := rfl
@[simp] theorem State.setScr_modid (s : State) (off n v : Nat) : (s.setScr off n v).modid = s.modid := rfl
@[simp] theorem State.setScr_cxlMask (s : State) (off n v : Nat) : (s.setScr off n v).cxlMask = s.cxlMask := rfl
@[simp] theorem State.setScr_fibStrap (s : State) (off n v : Nat) : (s.setScr off n v).fibStrap = s.fibStrap := rfl
@[simp] theorem State.setScr_topo (s : State) (off n v : Nat) : (s.setScr off n v).topo = s.topo := rfl
@[simp] theorem State.setScr_keys (s : State) (off n v : Nat) : (s.setScr off n v).keys = s.keys := rfl
@[simp] theorem State.setScr_phase (s : State) (off n v : Nat) : (s.setScr off n v).phase = s.phase := rfl
@[simp] theorem State.setScr_reason (s : State) (off n v : Nat) : (s.setScr off n v).reason = s.reason := rfl
@[simp] theorem State.setScr_safe (s : State) (off n v : Nat) : (s.setScr off n v).safe = s.safe := rfl
@[simp] theorem State.setScr_ready (s : State) (off n v : Nat) : (s.setScr off n v).ready = s.ready := rfl
@[simp] theorem State.setScr_farCap (s : State) (off n v : Nat) : (s.setScr off n v).farCap = s.farCap := rfl
@[simp] theorem State.setScr_host (s : State) (off n v : Nat) : (s.setScr off n v).host = s.host := rfl
@[simp] theorem State.setScr_msiMask (s : State) (off n v : Nat) : (s.setScr off n v).msiMask = s.msiMask := rfl
@[simp] theorem State.setScr_msiPend (s : State) (off n v : Nat) : (s.setScr off n v).msiPend = s.msiPend := rfl
@[simp] theorem State.setScr_msiSent (s : State) (off n v : Nat) : (s.setScr off n v).msiSent = s.msiSent := rfl
@[simp] theorem State.setScr_replies (s : State) (off n v : Nat) : (s.setScr off n v).replies = s.replies := rfl
@[simp] theorem State.setScr_loading (s : State) (off n v : Nat) : (s.setScr off n v).loading = s.loading := rfl
@[simp] theorem State.setScr_ctxs (s : State) (off n v : Nat) : (s.setScr off n v).ctxs = s.ctxs := rfl
@[simp] theorem State.setScr_kerns (s : State) (off n v : Nat) : (s.setScr off n v).kerns = s.kerns := rfl
@[simp] theorem State.setScr_queues (s : State) (off n v : Nat) : (s.setScr off n v).queues = s.queues := rfl
@[simp] theorem State.setScr_serial (s : State) (off n v : Nat) : (s.setScr off n v).serial = s.serial := rfl
@[simp] theorem State.setScr_turns (s : State) (off n v : Nat) : (s.setScr off n v).turns = s.turns := rfl
@[simp] theorem State.setScr_grp (s : State) (off n v : Nat) : (s.setScr off n v).grp = s.grp.setScr off n v := rfl
@[simp] theorem State.setScr_others (s : State) (off n v : Nat) : (s.setScr off n v).others = s.others := rfl
@[simp] theorem State.setScr_strm (s : State) (off n v : Nat) : (s.setScr off n v).strm = s.strm := rfl
@[simp] theorem State.setScr_iw (s : State) (off n v : Nat) : (s.setScr off n v).iw = s.iw := rfl
@[simp] theorem State.setScr_ipc (s : State) (off n v : Nat) : (s.setScr off n v).ipc = s.ipc := rfl
@[simp] theorem State.setScr_agenda (s : State) (off n v : Nat) : (s.setScr off n v).agenda = s.agenda := rfl
@[simp] theorem State.setScr_fresh (s : State) (off n v : Nat) : (s.setScr off n v).fresh = s.fresh := rfl
@[simp] theorem State.setScr_cores (s : State) (off n v : Nat) : (s.setScr off n v).cores = s.cores := rfl
@[simp] theorem State.setScr_dies (s : State) (off n v : Nat) : (s.setScr off n v).dies = s.dies := rfl
@[simp] theorem State.setScr_ndies (s : State) (off n v : Nat) : (s.setScr off n v).ndies = s.ndies := rfl
@[simp] theorem State.setScr_mem (s : State) (off n v : Nat) : (s.setScr off n v).mem = s.mem := rfl
@[simp] theorem State.setScr_spareEcc (s : State) (off n v : Nat) : (s.setScr off n v).spareEcc = s.spareEcc := rfl
@[simp] theorem State.setScr_badBlocks (s : State) (off n v : Nat) : (s.setScr off n v).badBlocks = s.badBlocks := rfl
@[simp] theorem State.setScr_freed (s : State) (off n v : Nat) : (s.setScr off n v).freed = s.freed := rfl
@[simp] theorem State.setScr_lost (s : State) (off n v : Nat) : (s.setScr off n v).lost = s.lost := rfl
@[simp] theorem State.setScr_rowTimes (s : State) (off n v : Nat) : (s.setScr off n v).rowTimes = s.rowTimes := rfl
@[simp] theorem State.setScr_ilSeq (s : State) (off n v : Nat) : (s.setScr off n v).ilSeq = s.ilSeq := rfl
@[simp] theorem State.setScr_mighWait (s : State) (off n v : Nat) : (s.setScr off n v).mighWait = s.mighWait := rfl
@[simp] theorem State.setScr_migActive (s : State) (off n v : Nat) : (s.setScr off n v).migActive = s.migActive := rfl
@[simp] theorem State.setScr_migQueued (s : State) (off n v : Nat) : (s.setScr off n v).migQueued = s.migQueued := rfl
@[simp] theorem State.setScr_strs (s : State) (off n v : Nat) : (s.setScr off n v).strs = s.strs := rfl
@[simp] theorem State.setScr_links (s : State) (off n v : Nat) : (s.setScr off n v).links = s.links := rfl
@[simp] theorem State.setScr_dests (s : State) (off n v : Nat) : (s.setScr off n v).dests = s.dests := rfl
@[simp] theorem State.setScr_nextTag (s : State) (off n v : Nat) : (s.setScr off n v).nextTag = s.nextTag := rfl
@[simp] theorem State.setScr_tagOwner (s : State) (off n v : Nat) : (s.setScr off n v).tagOwner = s.tagOwner := rfl
@[simp] theorem State.setScr_outbox (s : State) (off n v : Nat) : (s.setScr off n v).outbox = s.outbox := rfl
@[simp] theorem State.setScr_remReds (s : State) (off n v : Nat) : (s.setScr off n v).remReds = s.remReds := rfl
@[simp] theorem State.setScr_corrected (s : State) (off n v : Nat) : (s.setScr off n v).corrected = s.corrected := rfl
@[simp] theorem State.setScr_colls (s : State) (off n v : Nat) : (s.setScr off n v).colls = s.colls := rfl
@[simp] theorem State.setScr_slots (s : State) (off n v : Nat) : (s.setScr off n v).slots = s.slots := rfl
@[simp] theorem State.setScr_devw (s : State) (off n v : Nat) : (s.setScr off n v).devw = s.devw := rfl
@[simp] theorem State.setScr_devOut (s : State) (off n v : Nat) : (s.setScr off n v).devOut = s.devOut := rfl
@[simp] theorem State.setScr_remWait (s : State) (off n v : Nat) : (s.setScr off n v).remWait = s.remWait := rfl
@[simp] theorem State.setScr_attSent (s : State) (off n v : Nat) : (s.setScr off n v).attSent = s.attSent := rfl
@[simp] theorem State.setScr_gangs (s : State) (off n v : Nat) : (s.setScr off n v).gangs = s.gangs := rfl
@[simp] theorem State.setScr_proms (s : State) (off n v : Nat) : (s.setScr off n v).proms = s.proms := rfl

-- setX --------------------------------------------------------------------------------------------------------------

@[simp] theorem State.setX_cycle (s : State) (r : BitVec 5) (v : W64) : (s.setX r v).cycle = s.cycle := by unfold State.setX; split <;> rfl
@[simp] theorem State.setX_clockMHz (s : State) (r : BitVec 5) (v : W64) : (s.setX r v).clockMHz = s.clockMHz := by unfold State.setX; split <;> rfl
@[simp] theorem State.setX_modid (s : State) (r : BitVec 5) (v : W64) : (s.setX r v).modid = s.modid := by unfold State.setX; split <;> rfl
@[simp] theorem State.setX_cxlMask (s : State) (r : BitVec 5) (v : W64) : (s.setX r v).cxlMask = s.cxlMask := by unfold State.setX; split <;> rfl
@[simp] theorem State.setX_fibStrap (s : State) (r : BitVec 5) (v : W64) : (s.setX r v).fibStrap = s.fibStrap := by unfold State.setX; split <;> rfl
@[simp] theorem State.setX_topo (s : State) (r : BitVec 5) (v : W64) : (s.setX r v).topo = s.topo := by unfold State.setX; split <;> rfl
@[simp] theorem State.setX_keys (s : State) (r : BitVec 5) (v : W64) : (s.setX r v).keys = s.keys := by unfold State.setX; split <;> rfl
@[simp] theorem State.setX_phase (s : State) (r : BitVec 5) (v : W64) : (s.setX r v).phase = s.phase := by unfold State.setX; split <;> rfl
@[simp] theorem State.setX_reason (s : State) (r : BitVec 5) (v : W64) : (s.setX r v).reason = s.reason := by unfold State.setX; split <;> rfl
@[simp] theorem State.setX_safe (s : State) (r : BitVec 5) (v : W64) : (s.setX r v).safe = s.safe := by unfold State.setX; split <;> rfl
@[simp] theorem State.setX_ready (s : State) (r : BitVec 5) (v : W64) : (s.setX r v).ready = s.ready := by unfold State.setX; split <;> rfl
@[simp] theorem State.setX_farCap (s : State) (r : BitVec 5) (v : W64) : (s.setX r v).farCap = s.farCap := by unfold State.setX; split <;> rfl
@[simp] theorem State.setX_host (s : State) (r : BitVec 5) (v : W64) : (s.setX r v).host = s.host := by unfold State.setX; split <;> rfl
@[simp] theorem State.setX_msiMask (s : State) (r : BitVec 5) (v : W64) : (s.setX r v).msiMask = s.msiMask := by unfold State.setX; split <;> rfl
@[simp] theorem State.setX_msiPend (s : State) (r : BitVec 5) (v : W64) : (s.setX r v).msiPend = s.msiPend := by unfold State.setX; split <;> rfl
@[simp] theorem State.setX_msiSent (s : State) (r : BitVec 5) (v : W64) : (s.setX r v).msiSent = s.msiSent := by unfold State.setX; split <;> rfl
@[simp] theorem State.setX_replies (s : State) (r : BitVec 5) (v : W64) : (s.setX r v).replies = s.replies := by unfold State.setX; split <;> rfl
@[simp] theorem State.setX_loading (s : State) (r : BitVec 5) (v : W64) : (s.setX r v).loading = s.loading := by unfold State.setX; split <;> rfl
@[simp] theorem State.setX_ctxs (s : State) (r : BitVec 5) (v : W64) : (s.setX r v).ctxs = s.ctxs := by unfold State.setX; split <;> rfl
@[simp] theorem State.setX_kerns (s : State) (r : BitVec 5) (v : W64) : (s.setX r v).kerns = s.kerns := by unfold State.setX; split <;> rfl
@[simp] theorem State.setX_queues (s : State) (r : BitVec 5) (v : W64) : (s.setX r v).queues = s.queues := by unfold State.setX; split <;> rfl
@[simp] theorem State.setX_serial (s : State) (r : BitVec 5) (v : W64) : (s.setX r v).serial = s.serial := by unfold State.setX; split <;> rfl
@[simp] theorem State.setX_turns (s : State) (r : BitVec 5) (v : W64) : (s.setX r v).turns = s.turns := by unfold State.setX; split <;> rfl
@[simp] theorem State.setX_others (s : State) (r : BitVec 5) (v : W64) : (s.setX r v).others = s.others := by unfold State.setX; split <;> rfl
@[simp] theorem State.setX_strm (s : State) (r : BitVec 5) (v : W64) : (s.setX r v).strm = s.strm := by unfold State.setX; split <;> rfl
@[simp] theorem State.setX_iw (s : State) (r : BitVec 5) (v : W64) : (s.setX r v).iw = s.iw := by unfold State.setX; split <;> rfl
@[simp] theorem State.setX_ipc (s : State) (r : BitVec 5) (v : W64) : (s.setX r v).ipc = s.ipc := by unfold State.setX; split <;> rfl
@[simp] theorem State.setX_agenda (s : State) (r : BitVec 5) (v : W64) : (s.setX r v).agenda = s.agenda := by unfold State.setX; split <;> rfl
@[simp] theorem State.setX_fresh (s : State) (r : BitVec 5) (v : W64) : (s.setX r v).fresh = s.fresh := by unfold State.setX; split <;> rfl
@[simp] theorem State.setX_cores (s : State) (r : BitVec 5) (v : W64) : (s.setX r v).cores = s.cores := by unfold State.setX; split <;> rfl
@[simp] theorem State.setX_dies (s : State) (r : BitVec 5) (v : W64) : (s.setX r v).dies = s.dies := by unfold State.setX; split <;> rfl
@[simp] theorem State.setX_ndies (s : State) (r : BitVec 5) (v : W64) : (s.setX r v).ndies = s.ndies := by unfold State.setX; split <;> rfl
@[simp] theorem State.setX_mem (s : State) (r : BitVec 5) (v : W64) : (s.setX r v).mem = s.mem := by unfold State.setX; split <;> rfl
@[simp] theorem State.setX_spareEcc (s : State) (r : BitVec 5) (v : W64) : (s.setX r v).spareEcc = s.spareEcc := by unfold State.setX; split <;> rfl
@[simp] theorem State.setX_badBlocks (s : State) (r : BitVec 5) (v : W64) : (s.setX r v).badBlocks = s.badBlocks := by unfold State.setX; split <;> rfl
@[simp] theorem State.setX_freed (s : State) (r : BitVec 5) (v : W64) : (s.setX r v).freed = s.freed := by unfold State.setX; split <;> rfl
@[simp] theorem State.setX_lost (s : State) (r : BitVec 5) (v : W64) : (s.setX r v).lost = s.lost := by unfold State.setX; split <;> rfl
@[simp] theorem State.setX_rowTimes (s : State) (r : BitVec 5) (v : W64) : (s.setX r v).rowTimes = s.rowTimes := by unfold State.setX; split <;> rfl
@[simp] theorem State.setX_ilSeq (s : State) (r : BitVec 5) (v : W64) : (s.setX r v).ilSeq = s.ilSeq := by unfold State.setX; split <;> rfl
@[simp] theorem State.setX_mighWait (s : State) (r : BitVec 5) (v : W64) : (s.setX r v).mighWait = s.mighWait := by unfold State.setX; split <;> rfl
@[simp] theorem State.setX_migActive (s : State) (r : BitVec 5) (v : W64) : (s.setX r v).migActive = s.migActive := by unfold State.setX; split <;> rfl
@[simp] theorem State.setX_migQueued (s : State) (r : BitVec 5) (v : W64) : (s.setX r v).migQueued = s.migQueued := by unfold State.setX; split <;> rfl
@[simp] theorem State.setX_strs (s : State) (r : BitVec 5) (v : W64) : (s.setX r v).strs = s.strs := by unfold State.setX; split <;> rfl
@[simp] theorem State.setX_links (s : State) (r : BitVec 5) (v : W64) : (s.setX r v).links = s.links := by unfold State.setX; split <;> rfl
@[simp] theorem State.setX_dests (s : State) (r : BitVec 5) (v : W64) : (s.setX r v).dests = s.dests := by unfold State.setX; split <;> rfl
@[simp] theorem State.setX_nextTag (s : State) (r : BitVec 5) (v : W64) : (s.setX r v).nextTag = s.nextTag := by unfold State.setX; split <;> rfl
@[simp] theorem State.setX_tagOwner (s : State) (r : BitVec 5) (v : W64) : (s.setX r v).tagOwner = s.tagOwner := by unfold State.setX; split <;> rfl
@[simp] theorem State.setX_outbox (s : State) (r : BitVec 5) (v : W64) : (s.setX r v).outbox = s.outbox := by unfold State.setX; split <;> rfl
@[simp] theorem State.setX_remReds (s : State) (r : BitVec 5) (v : W64) : (s.setX r v).remReds = s.remReds := by unfold State.setX; split <;> rfl
@[simp] theorem State.setX_corrected (s : State) (r : BitVec 5) (v : W64) : (s.setX r v).corrected = s.corrected := by unfold State.setX; split <;> rfl
@[simp] theorem State.setX_colls (s : State) (r : BitVec 5) (v : W64) : (s.setX r v).colls = s.colls := by unfold State.setX; split <;> rfl
@[simp] theorem State.setX_slots (s : State) (r : BitVec 5) (v : W64) : (s.setX r v).slots = s.slots := by unfold State.setX; split <;> rfl
@[simp] theorem State.setX_devw (s : State) (r : BitVec 5) (v : W64) : (s.setX r v).devw = s.devw := by unfold State.setX; split <;> rfl
@[simp] theorem State.setX_devOut (s : State) (r : BitVec 5) (v : W64) : (s.setX r v).devOut = s.devOut := by unfold State.setX; split <;> rfl
@[simp] theorem State.setX_remWait (s : State) (r : BitVec 5) (v : W64) : (s.setX r v).remWait = s.remWait := by unfold State.setX; split <;> rfl
@[simp] theorem State.setX_attSent (s : State) (r : BitVec 5) (v : W64) : (s.setX r v).attSent = s.attSent := by unfold State.setX; split <;> rfl
@[simp] theorem State.setX_gangs (s : State) (r : BitVec 5) (v : W64) : (s.setX r v).gangs = s.gangs := by unfold State.setX; split <;> rfl
@[simp] theorem State.setX_proms (s : State) (r : BitVec 5) (v : W64) : (s.setX r v).proms = s.proms := by unfold State.setX; split <;> rfl

-- setD --------------------------------------------------------------------------------------------------------------

@[simp] theorem State.setD_cycle (s : State) (d : BitVec 4) (v : BitVec 128) : (s.setD d v).cycle = s.cycle := rfl
@[simp] theorem State.setD_clockMHz (s : State) (d : BitVec 4) (v : BitVec 128) : (s.setD d v).clockMHz = s.clockMHz := rfl
@[simp] theorem State.setD_modid (s : State) (d : BitVec 4) (v : BitVec 128) : (s.setD d v).modid = s.modid := rfl
@[simp] theorem State.setD_cxlMask (s : State) (d : BitVec 4) (v : BitVec 128) : (s.setD d v).cxlMask = s.cxlMask := rfl
@[simp] theorem State.setD_fibStrap (s : State) (d : BitVec 4) (v : BitVec 128) : (s.setD d v).fibStrap = s.fibStrap := rfl
@[simp] theorem State.setD_topo (s : State) (d : BitVec 4) (v : BitVec 128) : (s.setD d v).topo = s.topo := rfl
@[simp] theorem State.setD_keys (s : State) (d : BitVec 4) (v : BitVec 128) : (s.setD d v).keys = s.keys := rfl
@[simp] theorem State.setD_phase (s : State) (d : BitVec 4) (v : BitVec 128) : (s.setD d v).phase = s.phase := rfl
@[simp] theorem State.setD_reason (s : State) (d : BitVec 4) (v : BitVec 128) : (s.setD d v).reason = s.reason := rfl
@[simp] theorem State.setD_safe (s : State) (d : BitVec 4) (v : BitVec 128) : (s.setD d v).safe = s.safe := rfl
@[simp] theorem State.setD_ready (s : State) (d : BitVec 4) (v : BitVec 128) : (s.setD d v).ready = s.ready := rfl
@[simp] theorem State.setD_farCap (s : State) (d : BitVec 4) (v : BitVec 128) : (s.setD d v).farCap = s.farCap := rfl
@[simp] theorem State.setD_host (s : State) (d : BitVec 4) (v : BitVec 128) : (s.setD d v).host = s.host := rfl
@[simp] theorem State.setD_msiMask (s : State) (d : BitVec 4) (v : BitVec 128) : (s.setD d v).msiMask = s.msiMask := rfl
@[simp] theorem State.setD_msiPend (s : State) (d : BitVec 4) (v : BitVec 128) : (s.setD d v).msiPend = s.msiPend := rfl
@[simp] theorem State.setD_msiSent (s : State) (d : BitVec 4) (v : BitVec 128) : (s.setD d v).msiSent = s.msiSent := rfl
@[simp] theorem State.setD_replies (s : State) (d : BitVec 4) (v : BitVec 128) : (s.setD d v).replies = s.replies := rfl
@[simp] theorem State.setD_loading (s : State) (d : BitVec 4) (v : BitVec 128) : (s.setD d v).loading = s.loading := rfl
@[simp] theorem State.setD_ctxs (s : State) (d : BitVec 4) (v : BitVec 128) : (s.setD d v).ctxs = s.ctxs := rfl
@[simp] theorem State.setD_kerns (s : State) (d : BitVec 4) (v : BitVec 128) : (s.setD d v).kerns = s.kerns := rfl
@[simp] theorem State.setD_queues (s : State) (d : BitVec 4) (v : BitVec 128) : (s.setD d v).queues = s.queues := rfl
@[simp] theorem State.setD_serial (s : State) (d : BitVec 4) (v : BitVec 128) : (s.setD d v).serial = s.serial := rfl
@[simp] theorem State.setD_turns (s : State) (d : BitVec 4) (v : BitVec 128) : (s.setD d v).turns = s.turns := rfl
@[simp] theorem State.setD_grp (s : State) (d : BitVec 4) (v : BitVec 128) : (s.setD d v).grp = { s.grp with dregs := updAt s.grp.dregs d.toNat (fun _ => v) } := rfl
@[simp] theorem State.setD_others (s : State) (d : BitVec 4) (v : BitVec 128) : (s.setD d v).others = s.others := rfl
@[simp] theorem State.setD_strm (s : State) (d : BitVec 4) (v : BitVec 128) : (s.setD d v).strm = s.strm := rfl
@[simp] theorem State.setD_iw (s : State) (d : BitVec 4) (v : BitVec 128) : (s.setD d v).iw = s.iw := rfl
@[simp] theorem State.setD_ipc (s : State) (d : BitVec 4) (v : BitVec 128) : (s.setD d v).ipc = s.ipc := rfl
@[simp] theorem State.setD_agenda (s : State) (d : BitVec 4) (v : BitVec 128) : (s.setD d v).agenda = s.agenda := rfl
@[simp] theorem State.setD_fresh (s : State) (d : BitVec 4) (v : BitVec 128) : (s.setD d v).fresh = s.fresh := rfl
@[simp] theorem State.setD_cores (s : State) (d : BitVec 4) (v : BitVec 128) : (s.setD d v).cores = s.cores := rfl
@[simp] theorem State.setD_dies (s : State) (d : BitVec 4) (v : BitVec 128) : (s.setD d v).dies = s.dies := rfl
@[simp] theorem State.setD_ndies (s : State) (d : BitVec 4) (v : BitVec 128) : (s.setD d v).ndies = s.ndies := rfl
@[simp] theorem State.setD_mem (s : State) (d : BitVec 4) (v : BitVec 128) : (s.setD d v).mem = s.mem := rfl
@[simp] theorem State.setD_spareEcc (s : State) (d : BitVec 4) (v : BitVec 128) : (s.setD d v).spareEcc = s.spareEcc := rfl
@[simp] theorem State.setD_badBlocks (s : State) (d : BitVec 4) (v : BitVec 128) : (s.setD d v).badBlocks = s.badBlocks := rfl
@[simp] theorem State.setD_freed (s : State) (d : BitVec 4) (v : BitVec 128) : (s.setD d v).freed = s.freed := rfl
@[simp] theorem State.setD_lost (s : State) (d : BitVec 4) (v : BitVec 128) : (s.setD d v).lost = s.lost := rfl
@[simp] theorem State.setD_rowTimes (s : State) (d : BitVec 4) (v : BitVec 128) : (s.setD d v).rowTimes = s.rowTimes := rfl
@[simp] theorem State.setD_ilSeq (s : State) (d : BitVec 4) (v : BitVec 128) : (s.setD d v).ilSeq = s.ilSeq := rfl
@[simp] theorem State.setD_mighWait (s : State) (d : BitVec 4) (v : BitVec 128) : (s.setD d v).mighWait = s.mighWait := rfl
@[simp] theorem State.setD_migActive (s : State) (d : BitVec 4) (v : BitVec 128) : (s.setD d v).migActive = s.migActive := rfl
@[simp] theorem State.setD_migQueued (s : State) (d : BitVec 4) (v : BitVec 128) : (s.setD d v).migQueued = s.migQueued := rfl
@[simp] theorem State.setD_strs (s : State) (d : BitVec 4) (v : BitVec 128) : (s.setD d v).strs = s.strs := rfl
@[simp] theorem State.setD_links (s : State) (d : BitVec 4) (v : BitVec 128) : (s.setD d v).links = s.links := rfl
@[simp] theorem State.setD_dests (s : State) (d : BitVec 4) (v : BitVec 128) : (s.setD d v).dests = s.dests := rfl
@[simp] theorem State.setD_nextTag (s : State) (d : BitVec 4) (v : BitVec 128) : (s.setD d v).nextTag = s.nextTag := rfl
@[simp] theorem State.setD_tagOwner (s : State) (d : BitVec 4) (v : BitVec 128) : (s.setD d v).tagOwner = s.tagOwner := rfl
@[simp] theorem State.setD_outbox (s : State) (d : BitVec 4) (v : BitVec 128) : (s.setD d v).outbox = s.outbox := rfl
@[simp] theorem State.setD_remReds (s : State) (d : BitVec 4) (v : BitVec 128) : (s.setD d v).remReds = s.remReds := rfl
@[simp] theorem State.setD_corrected (s : State) (d : BitVec 4) (v : BitVec 128) : (s.setD d v).corrected = s.corrected := rfl
@[simp] theorem State.setD_colls (s : State) (d : BitVec 4) (v : BitVec 128) : (s.setD d v).colls = s.colls := rfl
@[simp] theorem State.setD_slots (s : State) (d : BitVec 4) (v : BitVec 128) : (s.setD d v).slots = s.slots := rfl
@[simp] theorem State.setD_devw (s : State) (d : BitVec 4) (v : BitVec 128) : (s.setD d v).devw = s.devw := rfl
@[simp] theorem State.setD_devOut (s : State) (d : BitVec 4) (v : BitVec 128) : (s.setD d v).devOut = s.devOut := rfl
@[simp] theorem State.setD_remWait (s : State) (d : BitVec 4) (v : BitVec 128) : (s.setD d v).remWait = s.remWait := rfl
@[simp] theorem State.setD_attSent (s : State) (d : BitVec 4) (v : BitVec 128) : (s.setD d v).attSent = s.attSent := rfl
@[simp] theorem State.setD_gangs (s : State) (d : BitVec 4) (v : BitVec 128) : (s.setD d v).gangs = s.gangs := rfl
@[simp] theorem State.setD_proms (s : State) (d : BitVec 4) (v : BitVec 128) : (s.setD d v).proms = s.proms := rfl

-- updFifo -----------------------------------------------------------------------------------------------------------

@[simp] theorem State.updFifo_cycle (s : State) (f : Nat) (k : Fifo → Fifo) : (s.updFifo f k).cycle = s.cycle := rfl
@[simp] theorem State.updFifo_clockMHz (s : State) (f : Nat) (k : Fifo → Fifo) : (s.updFifo f k).clockMHz = s.clockMHz := rfl
@[simp] theorem State.updFifo_modid (s : State) (f : Nat) (k : Fifo → Fifo) : (s.updFifo f k).modid = s.modid := rfl
@[simp] theorem State.updFifo_cxlMask (s : State) (f : Nat) (k : Fifo → Fifo) : (s.updFifo f k).cxlMask = s.cxlMask := rfl
@[simp] theorem State.updFifo_fibStrap (s : State) (f : Nat) (k : Fifo → Fifo) : (s.updFifo f k).fibStrap = s.fibStrap := rfl
@[simp] theorem State.updFifo_topo (s : State) (f : Nat) (k : Fifo → Fifo) : (s.updFifo f k).topo = s.topo := rfl
@[simp] theorem State.updFifo_keys (s : State) (f : Nat) (k : Fifo → Fifo) : (s.updFifo f k).keys = s.keys := rfl
@[simp] theorem State.updFifo_phase (s : State) (f : Nat) (k : Fifo → Fifo) : (s.updFifo f k).phase = s.phase := rfl
@[simp] theorem State.updFifo_reason (s : State) (f : Nat) (k : Fifo → Fifo) : (s.updFifo f k).reason = s.reason := rfl
@[simp] theorem State.updFifo_safe (s : State) (f : Nat) (k : Fifo → Fifo) : (s.updFifo f k).safe = s.safe := rfl
@[simp] theorem State.updFifo_ready (s : State) (f : Nat) (k : Fifo → Fifo) : (s.updFifo f k).ready = s.ready := rfl
@[simp] theorem State.updFifo_farCap (s : State) (f : Nat) (k : Fifo → Fifo) : (s.updFifo f k).farCap = s.farCap := rfl
@[simp] theorem State.updFifo_host (s : State) (f : Nat) (k : Fifo → Fifo) : (s.updFifo f k).host = s.host := rfl
@[simp] theorem State.updFifo_msiMask (s : State) (f : Nat) (k : Fifo → Fifo) : (s.updFifo f k).msiMask = s.msiMask := rfl
@[simp] theorem State.updFifo_msiPend (s : State) (f : Nat) (k : Fifo → Fifo) : (s.updFifo f k).msiPend = s.msiPend := rfl
@[simp] theorem State.updFifo_msiSent (s : State) (f : Nat) (k : Fifo → Fifo) : (s.updFifo f k).msiSent = s.msiSent := rfl
@[simp] theorem State.updFifo_replies (s : State) (f : Nat) (k : Fifo → Fifo) : (s.updFifo f k).replies = s.replies := rfl
@[simp] theorem State.updFifo_loading (s : State) (f : Nat) (k : Fifo → Fifo) : (s.updFifo f k).loading = s.loading := rfl
@[simp] theorem State.updFifo_ctxs (s : State) (f : Nat) (k : Fifo → Fifo) : (s.updFifo f k).ctxs = s.ctxs := rfl
@[simp] theorem State.updFifo_kerns (s : State) (f : Nat) (k : Fifo → Fifo) : (s.updFifo f k).kerns = s.kerns := rfl
@[simp] theorem State.updFifo_queues (s : State) (f : Nat) (k : Fifo → Fifo) : (s.updFifo f k).queues = s.queues := rfl
@[simp] theorem State.updFifo_serial (s : State) (f : Nat) (k : Fifo → Fifo) : (s.updFifo f k).serial = s.serial := rfl
@[simp] theorem State.updFifo_turns (s : State) (f : Nat) (k : Fifo → Fifo) : (s.updFifo f k).turns = s.turns := rfl
@[simp] theorem State.updFifo_grp (s : State) (f : Nat) (k : Fifo → Fifo) : (s.updFifo f k).grp = { s.grp with fifos := updAt s.grp.fifos f k } := rfl
@[simp] theorem State.updFifo_others (s : State) (f : Nat) (k : Fifo → Fifo) : (s.updFifo f k).others = s.others := rfl
@[simp] theorem State.updFifo_strm (s : State) (f : Nat) (k : Fifo → Fifo) : (s.updFifo f k).strm = s.strm := rfl
@[simp] theorem State.updFifo_iw (s : State) (f : Nat) (k : Fifo → Fifo) : (s.updFifo f k).iw = s.iw := rfl
@[simp] theorem State.updFifo_ipc (s : State) (f : Nat) (k : Fifo → Fifo) : (s.updFifo f k).ipc = s.ipc := rfl
@[simp] theorem State.updFifo_agenda (s : State) (f : Nat) (k : Fifo → Fifo) : (s.updFifo f k).agenda = s.agenda := rfl
@[simp] theorem State.updFifo_fresh (s : State) (f : Nat) (k : Fifo → Fifo) : (s.updFifo f k).fresh = s.fresh := rfl
@[simp] theorem State.updFifo_cores (s : State) (f : Nat) (k : Fifo → Fifo) : (s.updFifo f k).cores = s.cores := rfl
@[simp] theorem State.updFifo_dies (s : State) (f : Nat) (k : Fifo → Fifo) : (s.updFifo f k).dies = s.dies := rfl
@[simp] theorem State.updFifo_ndies (s : State) (f : Nat) (k : Fifo → Fifo) : (s.updFifo f k).ndies = s.ndies := rfl
@[simp] theorem State.updFifo_mem (s : State) (f : Nat) (k : Fifo → Fifo) : (s.updFifo f k).mem = s.mem := rfl
@[simp] theorem State.updFifo_spareEcc (s : State) (f : Nat) (k : Fifo → Fifo) : (s.updFifo f k).spareEcc = s.spareEcc := rfl
@[simp] theorem State.updFifo_badBlocks (s : State) (f : Nat) (k : Fifo → Fifo) : (s.updFifo f k).badBlocks = s.badBlocks := rfl
@[simp] theorem State.updFifo_freed (s : State) (f : Nat) (k : Fifo → Fifo) : (s.updFifo f k).freed = s.freed := rfl
@[simp] theorem State.updFifo_lost (s : State) (f : Nat) (k : Fifo → Fifo) : (s.updFifo f k).lost = s.lost := rfl
@[simp] theorem State.updFifo_rowTimes (s : State) (f : Nat) (k : Fifo → Fifo) : (s.updFifo f k).rowTimes = s.rowTimes := rfl
@[simp] theorem State.updFifo_ilSeq (s : State) (f : Nat) (k : Fifo → Fifo) : (s.updFifo f k).ilSeq = s.ilSeq := rfl
@[simp] theorem State.updFifo_mighWait (s : State) (f : Nat) (k : Fifo → Fifo) : (s.updFifo f k).mighWait = s.mighWait := rfl
@[simp] theorem State.updFifo_migActive (s : State) (f : Nat) (k : Fifo → Fifo) : (s.updFifo f k).migActive = s.migActive := rfl
@[simp] theorem State.updFifo_migQueued (s : State) (f : Nat) (k : Fifo → Fifo) : (s.updFifo f k).migQueued = s.migQueued := rfl
@[simp] theorem State.updFifo_strs (s : State) (f : Nat) (k : Fifo → Fifo) : (s.updFifo f k).strs = s.strs := rfl
@[simp] theorem State.updFifo_links (s : State) (f : Nat) (k : Fifo → Fifo) : (s.updFifo f k).links = s.links := rfl
@[simp] theorem State.updFifo_dests (s : State) (f : Nat) (k : Fifo → Fifo) : (s.updFifo f k).dests = s.dests := rfl
@[simp] theorem State.updFifo_nextTag (s : State) (f : Nat) (k : Fifo → Fifo) : (s.updFifo f k).nextTag = s.nextTag := rfl
@[simp] theorem State.updFifo_tagOwner (s : State) (f : Nat) (k : Fifo → Fifo) : (s.updFifo f k).tagOwner = s.tagOwner := rfl
@[simp] theorem State.updFifo_outbox (s : State) (f : Nat) (k : Fifo → Fifo) : (s.updFifo f k).outbox = s.outbox := rfl
@[simp] theorem State.updFifo_remReds (s : State) (f : Nat) (k : Fifo → Fifo) : (s.updFifo f k).remReds = s.remReds := rfl
@[simp] theorem State.updFifo_corrected (s : State) (f : Nat) (k : Fifo → Fifo) : (s.updFifo f k).corrected = s.corrected := rfl
@[simp] theorem State.updFifo_colls (s : State) (f : Nat) (k : Fifo → Fifo) : (s.updFifo f k).colls = s.colls := rfl
@[simp] theorem State.updFifo_slots (s : State) (f : Nat) (k : Fifo → Fifo) : (s.updFifo f k).slots = s.slots := rfl
@[simp] theorem State.updFifo_devw (s : State) (f : Nat) (k : Fifo → Fifo) : (s.updFifo f k).devw = s.devw := rfl
@[simp] theorem State.updFifo_devOut (s : State) (f : Nat) (k : Fifo → Fifo) : (s.updFifo f k).devOut = s.devOut := rfl
@[simp] theorem State.updFifo_remWait (s : State) (f : Nat) (k : Fifo → Fifo) : (s.updFifo f k).remWait = s.remWait := rfl
@[simp] theorem State.updFifo_attSent (s : State) (f : Nat) (k : Fifo → Fifo) : (s.updFifo f k).attSent = s.attSent := rfl
@[simp] theorem State.updFifo_gangs (s : State) (f : Nat) (k : Fifo → Fifo) : (s.updFifo f k).gangs = s.gangs := rfl
@[simp] theorem State.updFifo_proms (s : State) (f : Nat) (k : Fifo → Fifo) : (s.updFifo f k).proms = s.proms := rfl

-- updBar ------------------------------------------------------------------------------------------------------------

@[simp] theorem State.updBar_cycle (s : State) (b : Nat) (f : BEntry → BEntry) : (s.updBar b f).cycle = s.cycle := rfl
@[simp] theorem State.updBar_clockMHz (s : State) (b : Nat) (f : BEntry → BEntry) : (s.updBar b f).clockMHz = s.clockMHz := rfl
@[simp] theorem State.updBar_modid (s : State) (b : Nat) (f : BEntry → BEntry) : (s.updBar b f).modid = s.modid := rfl
@[simp] theorem State.updBar_cxlMask (s : State) (b : Nat) (f : BEntry → BEntry) : (s.updBar b f).cxlMask = s.cxlMask := rfl
@[simp] theorem State.updBar_fibStrap (s : State) (b : Nat) (f : BEntry → BEntry) : (s.updBar b f).fibStrap = s.fibStrap := rfl
@[simp] theorem State.updBar_topo (s : State) (b : Nat) (f : BEntry → BEntry) : (s.updBar b f).topo = s.topo := rfl
@[simp] theorem State.updBar_keys (s : State) (b : Nat) (f : BEntry → BEntry) : (s.updBar b f).keys = s.keys := rfl
@[simp] theorem State.updBar_phase (s : State) (b : Nat) (f : BEntry → BEntry) : (s.updBar b f).phase = s.phase := rfl
@[simp] theorem State.updBar_reason (s : State) (b : Nat) (f : BEntry → BEntry) : (s.updBar b f).reason = s.reason := rfl
@[simp] theorem State.updBar_safe (s : State) (b : Nat) (f : BEntry → BEntry) : (s.updBar b f).safe = s.safe := rfl
@[simp] theorem State.updBar_ready (s : State) (b : Nat) (f : BEntry → BEntry) : (s.updBar b f).ready = s.ready := rfl
@[simp] theorem State.updBar_farCap (s : State) (b : Nat) (f : BEntry → BEntry) : (s.updBar b f).farCap = s.farCap := rfl
@[simp] theorem State.updBar_host (s : State) (b : Nat) (f : BEntry → BEntry) : (s.updBar b f).host = s.host := rfl
@[simp] theorem State.updBar_msiMask (s : State) (b : Nat) (f : BEntry → BEntry) : (s.updBar b f).msiMask = s.msiMask := rfl
@[simp] theorem State.updBar_msiPend (s : State) (b : Nat) (f : BEntry → BEntry) : (s.updBar b f).msiPend = s.msiPend := rfl
@[simp] theorem State.updBar_msiSent (s : State) (b : Nat) (f : BEntry → BEntry) : (s.updBar b f).msiSent = s.msiSent := rfl
@[simp] theorem State.updBar_replies (s : State) (b : Nat) (f : BEntry → BEntry) : (s.updBar b f).replies = s.replies := rfl
@[simp] theorem State.updBar_loading (s : State) (b : Nat) (f : BEntry → BEntry) : (s.updBar b f).loading = s.loading := rfl
@[simp] theorem State.updBar_ctxs (s : State) (b : Nat) (f : BEntry → BEntry) : (s.updBar b f).ctxs = s.ctxs := rfl
@[simp] theorem State.updBar_kerns (s : State) (b : Nat) (f : BEntry → BEntry) : (s.updBar b f).kerns = s.kerns := rfl
@[simp] theorem State.updBar_queues (s : State) (b : Nat) (f : BEntry → BEntry) : (s.updBar b f).queues = s.queues := rfl
@[simp] theorem State.updBar_serial (s : State) (b : Nat) (f : BEntry → BEntry) : (s.updBar b f).serial = s.serial := rfl
@[simp] theorem State.updBar_turns (s : State) (b : Nat) (f : BEntry → BEntry) : (s.updBar b f).turns = s.turns := rfl
@[simp] theorem State.updBar_grp (s : State) (b : Nat) (f : BEntry → BEntry) : (s.updBar b f).grp = { s.grp with bmap := updAt s.grp.bmap b f } := rfl
@[simp] theorem State.updBar_others (s : State) (b : Nat) (f : BEntry → BEntry) : (s.updBar b f).others = s.others := rfl
@[simp] theorem State.updBar_strm (s : State) (b : Nat) (f : BEntry → BEntry) : (s.updBar b f).strm = s.strm := rfl
@[simp] theorem State.updBar_iw (s : State) (b : Nat) (f : BEntry → BEntry) : (s.updBar b f).iw = s.iw := rfl
@[simp] theorem State.updBar_ipc (s : State) (b : Nat) (f : BEntry → BEntry) : (s.updBar b f).ipc = s.ipc := rfl
@[simp] theorem State.updBar_agenda (s : State) (b : Nat) (f : BEntry → BEntry) : (s.updBar b f).agenda = s.agenda := rfl
@[simp] theorem State.updBar_fresh (s : State) (b : Nat) (f : BEntry → BEntry) : (s.updBar b f).fresh = s.fresh := rfl
@[simp] theorem State.updBar_cores (s : State) (b : Nat) (f : BEntry → BEntry) : (s.updBar b f).cores = s.cores := rfl
@[simp] theorem State.updBar_dies (s : State) (b : Nat) (f : BEntry → BEntry) : (s.updBar b f).dies = s.dies := rfl
@[simp] theorem State.updBar_ndies (s : State) (b : Nat) (f : BEntry → BEntry) : (s.updBar b f).ndies = s.ndies := rfl
@[simp] theorem State.updBar_mem (s : State) (b : Nat) (f : BEntry → BEntry) : (s.updBar b f).mem = s.mem := rfl
@[simp] theorem State.updBar_spareEcc (s : State) (b : Nat) (f : BEntry → BEntry) : (s.updBar b f).spareEcc = s.spareEcc := rfl
@[simp] theorem State.updBar_badBlocks (s : State) (b : Nat) (f : BEntry → BEntry) : (s.updBar b f).badBlocks = s.badBlocks := rfl
@[simp] theorem State.updBar_freed (s : State) (b : Nat) (f : BEntry → BEntry) : (s.updBar b f).freed = s.freed := rfl
@[simp] theorem State.updBar_lost (s : State) (b : Nat) (f : BEntry → BEntry) : (s.updBar b f).lost = s.lost := rfl
@[simp] theorem State.updBar_rowTimes (s : State) (b : Nat) (f : BEntry → BEntry) : (s.updBar b f).rowTimes = s.rowTimes := rfl
@[simp] theorem State.updBar_ilSeq (s : State) (b : Nat) (f : BEntry → BEntry) : (s.updBar b f).ilSeq = s.ilSeq := rfl
@[simp] theorem State.updBar_mighWait (s : State) (b : Nat) (f : BEntry → BEntry) : (s.updBar b f).mighWait = s.mighWait := rfl
@[simp] theorem State.updBar_migActive (s : State) (b : Nat) (f : BEntry → BEntry) : (s.updBar b f).migActive = s.migActive := rfl
@[simp] theorem State.updBar_migQueued (s : State) (b : Nat) (f : BEntry → BEntry) : (s.updBar b f).migQueued = s.migQueued := rfl
@[simp] theorem State.updBar_strs (s : State) (b : Nat) (f : BEntry → BEntry) : (s.updBar b f).strs = s.strs := rfl
@[simp] theorem State.updBar_links (s : State) (b : Nat) (f : BEntry → BEntry) : (s.updBar b f).links = s.links := rfl
@[simp] theorem State.updBar_dests (s : State) (b : Nat) (f : BEntry → BEntry) : (s.updBar b f).dests = s.dests := rfl
@[simp] theorem State.updBar_nextTag (s : State) (b : Nat) (f : BEntry → BEntry) : (s.updBar b f).nextTag = s.nextTag := rfl
@[simp] theorem State.updBar_tagOwner (s : State) (b : Nat) (f : BEntry → BEntry) : (s.updBar b f).tagOwner = s.tagOwner := rfl
@[simp] theorem State.updBar_outbox (s : State) (b : Nat) (f : BEntry → BEntry) : (s.updBar b f).outbox = s.outbox := rfl
@[simp] theorem State.updBar_remReds (s : State) (b : Nat) (f : BEntry → BEntry) : (s.updBar b f).remReds = s.remReds := rfl
@[simp] theorem State.updBar_corrected (s : State) (b : Nat) (f : BEntry → BEntry) : (s.updBar b f).corrected = s.corrected := rfl
@[simp] theorem State.updBar_colls (s : State) (b : Nat) (f : BEntry → BEntry) : (s.updBar b f).colls = s.colls := rfl
@[simp] theorem State.updBar_slots (s : State) (b : Nat) (f : BEntry → BEntry) : (s.updBar b f).slots = s.slots := rfl
@[simp] theorem State.updBar_devw (s : State) (b : Nat) (f : BEntry → BEntry) : (s.updBar b f).devw = s.devw := rfl
@[simp] theorem State.updBar_devOut (s : State) (b : Nat) (f : BEntry → BEntry) : (s.updBar b f).devOut = s.devOut := rfl
@[simp] theorem State.updBar_remWait (s : State) (b : Nat) (f : BEntry → BEntry) : (s.updBar b f).remWait = s.remWait := rfl
@[simp] theorem State.updBar_attSent (s : State) (b : Nat) (f : BEntry → BEntry) : (s.updBar b f).attSent = s.attSent := rfl
@[simp] theorem State.updBar_gangs (s : State) (b : Nat) (f : BEntry → BEntry) : (s.updBar b f).gangs = s.gangs := rfl
@[simp] theorem State.updBar_proms (s : State) (b : Nat) (f : BEntry → BEntry) : (s.updBar b f).proms = s.proms := rfl

-- setAmap -----------------------------------------------------------------------------------------------------------

@[simp] theorem State.setAmap_cycle (s : State) (b : Nat) (e : Option AEntry) : (s.setAmap b e).cycle = s.cycle := rfl
@[simp] theorem State.setAmap_clockMHz (s : State) (b : Nat) (e : Option AEntry) : (s.setAmap b e).clockMHz = s.clockMHz := rfl
@[simp] theorem State.setAmap_modid (s : State) (b : Nat) (e : Option AEntry) : (s.setAmap b e).modid = s.modid := rfl
@[simp] theorem State.setAmap_cxlMask (s : State) (b : Nat) (e : Option AEntry) : (s.setAmap b e).cxlMask = s.cxlMask := rfl
@[simp] theorem State.setAmap_fibStrap (s : State) (b : Nat) (e : Option AEntry) : (s.setAmap b e).fibStrap = s.fibStrap := rfl
@[simp] theorem State.setAmap_topo (s : State) (b : Nat) (e : Option AEntry) : (s.setAmap b e).topo = s.topo := rfl
@[simp] theorem State.setAmap_keys (s : State) (b : Nat) (e : Option AEntry) : (s.setAmap b e).keys = s.keys := rfl
@[simp] theorem State.setAmap_phase (s : State) (b : Nat) (e : Option AEntry) : (s.setAmap b e).phase = s.phase := rfl
@[simp] theorem State.setAmap_reason (s : State) (b : Nat) (e : Option AEntry) : (s.setAmap b e).reason = s.reason := rfl
@[simp] theorem State.setAmap_safe (s : State) (b : Nat) (e : Option AEntry) : (s.setAmap b e).safe = s.safe := rfl
@[simp] theorem State.setAmap_ready (s : State) (b : Nat) (e : Option AEntry) : (s.setAmap b e).ready = s.ready := rfl
@[simp] theorem State.setAmap_farCap (s : State) (b : Nat) (e : Option AEntry) : (s.setAmap b e).farCap = s.farCap := rfl
@[simp] theorem State.setAmap_host (s : State) (b : Nat) (e : Option AEntry) : (s.setAmap b e).host = s.host := rfl
@[simp] theorem State.setAmap_msiMask (s : State) (b : Nat) (e : Option AEntry) : (s.setAmap b e).msiMask = s.msiMask := rfl
@[simp] theorem State.setAmap_msiPend (s : State) (b : Nat) (e : Option AEntry) : (s.setAmap b e).msiPend = s.msiPend := rfl
@[simp] theorem State.setAmap_msiSent (s : State) (b : Nat) (e : Option AEntry) : (s.setAmap b e).msiSent = s.msiSent := rfl
@[simp] theorem State.setAmap_replies (s : State) (b : Nat) (e : Option AEntry) : (s.setAmap b e).replies = s.replies := rfl
@[simp] theorem State.setAmap_loading (s : State) (b : Nat) (e : Option AEntry) : (s.setAmap b e).loading = s.loading := rfl
@[simp] theorem State.setAmap_ctxs (s : State) (b : Nat) (e : Option AEntry) : (s.setAmap b e).ctxs = s.ctxs := rfl
@[simp] theorem State.setAmap_kerns (s : State) (b : Nat) (e : Option AEntry) : (s.setAmap b e).kerns = s.kerns := rfl
@[simp] theorem State.setAmap_queues (s : State) (b : Nat) (e : Option AEntry) : (s.setAmap b e).queues = s.queues := rfl
@[simp] theorem State.setAmap_serial (s : State) (b : Nat) (e : Option AEntry) : (s.setAmap b e).serial = s.serial := rfl
@[simp] theorem State.setAmap_turns (s : State) (b : Nat) (e : Option AEntry) : (s.setAmap b e).turns = s.turns := rfl
@[simp] theorem State.setAmap_grp (s : State) (b : Nat) (e : Option AEntry) : (s.setAmap b e).grp = { s.grp with amap := updAt s.grp.amap b (fun _ => e) } := rfl
@[simp] theorem State.setAmap_others (s : State) (b : Nat) (e : Option AEntry) : (s.setAmap b e).others = s.others := rfl
@[simp] theorem State.setAmap_strm (s : State) (b : Nat) (e : Option AEntry) : (s.setAmap b e).strm = s.strm := rfl
@[simp] theorem State.setAmap_iw (s : State) (b : Nat) (e : Option AEntry) : (s.setAmap b e).iw = s.iw := rfl
@[simp] theorem State.setAmap_ipc (s : State) (b : Nat) (e : Option AEntry) : (s.setAmap b e).ipc = s.ipc := rfl
@[simp] theorem State.setAmap_agenda (s : State) (b : Nat) (e : Option AEntry) : (s.setAmap b e).agenda = s.agenda := rfl
@[simp] theorem State.setAmap_fresh (s : State) (b : Nat) (e : Option AEntry) : (s.setAmap b e).fresh = s.fresh := rfl
@[simp] theorem State.setAmap_cores (s : State) (b : Nat) (e : Option AEntry) : (s.setAmap b e).cores = s.cores := rfl
@[simp] theorem State.setAmap_dies (s : State) (b : Nat) (e : Option AEntry) : (s.setAmap b e).dies = s.dies := rfl
@[simp] theorem State.setAmap_ndies (s : State) (b : Nat) (e : Option AEntry) : (s.setAmap b e).ndies = s.ndies := rfl
@[simp] theorem State.setAmap_mem (s : State) (b : Nat) (e : Option AEntry) : (s.setAmap b e).mem = s.mem := rfl
@[simp] theorem State.setAmap_spareEcc (s : State) (b : Nat) (e : Option AEntry) : (s.setAmap b e).spareEcc = s.spareEcc := rfl
@[simp] theorem State.setAmap_badBlocks (s : State) (b : Nat) (e : Option AEntry) : (s.setAmap b e).badBlocks = s.badBlocks := rfl
@[simp] theorem State.setAmap_freed (s : State) (b : Nat) (e : Option AEntry) : (s.setAmap b e).freed = s.freed := rfl
@[simp] theorem State.setAmap_lost (s : State) (b : Nat) (e : Option AEntry) : (s.setAmap b e).lost = s.lost := rfl
@[simp] theorem State.setAmap_rowTimes (s : State) (b : Nat) (e : Option AEntry) : (s.setAmap b e).rowTimes = s.rowTimes := rfl
@[simp] theorem State.setAmap_ilSeq (s : State) (b : Nat) (e : Option AEntry) : (s.setAmap b e).ilSeq = s.ilSeq := rfl
@[simp] theorem State.setAmap_mighWait (s : State) (b : Nat) (e : Option AEntry) : (s.setAmap b e).mighWait = s.mighWait := rfl
@[simp] theorem State.setAmap_migActive (s : State) (b : Nat) (e : Option AEntry) : (s.setAmap b e).migActive = s.migActive := rfl
@[simp] theorem State.setAmap_migQueued (s : State) (b : Nat) (e : Option AEntry) : (s.setAmap b e).migQueued = s.migQueued := rfl
@[simp] theorem State.setAmap_strs (s : State) (b : Nat) (e : Option AEntry) : (s.setAmap b e).strs = s.strs := rfl
@[simp] theorem State.setAmap_links (s : State) (b : Nat) (e : Option AEntry) : (s.setAmap b e).links = s.links := rfl
@[simp] theorem State.setAmap_dests (s : State) (b : Nat) (e : Option AEntry) : (s.setAmap b e).dests = s.dests := rfl
@[simp] theorem State.setAmap_nextTag (s : State) (b : Nat) (e : Option AEntry) : (s.setAmap b e).nextTag = s.nextTag := rfl
@[simp] theorem State.setAmap_tagOwner (s : State) (b : Nat) (e : Option AEntry) : (s.setAmap b e).tagOwner = s.tagOwner := rfl
@[simp] theorem State.setAmap_outbox (s : State) (b : Nat) (e : Option AEntry) : (s.setAmap b e).outbox = s.outbox := rfl
@[simp] theorem State.setAmap_remReds (s : State) (b : Nat) (e : Option AEntry) : (s.setAmap b e).remReds = s.remReds := rfl
@[simp] theorem State.setAmap_corrected (s : State) (b : Nat) (e : Option AEntry) : (s.setAmap b e).corrected = s.corrected := rfl
@[simp] theorem State.setAmap_colls (s : State) (b : Nat) (e : Option AEntry) : (s.setAmap b e).colls = s.colls := rfl
@[simp] theorem State.setAmap_slots (s : State) (b : Nat) (e : Option AEntry) : (s.setAmap b e).slots = s.slots := rfl
@[simp] theorem State.setAmap_devw (s : State) (b : Nat) (e : Option AEntry) : (s.setAmap b e).devw = s.devw := rfl
@[simp] theorem State.setAmap_devOut (s : State) (b : Nat) (e : Option AEntry) : (s.setAmap b e).devOut = s.devOut := rfl
@[simp] theorem State.setAmap_remWait (s : State) (b : Nat) (e : Option AEntry) : (s.setAmap b e).remWait = s.remWait := rfl
@[simp] theorem State.setAmap_attSent (s : State) (b : Nat) (e : Option AEntry) : (s.setAmap b e).attSent = s.attSent := rfl
@[simp] theorem State.setAmap_gangs (s : State) (b : Nat) (e : Option AEntry) : (s.setAmap b e).gangs = s.gangs := rfl
@[simp] theorem State.setAmap_proms (s : State) (b : Nat) (e : Option AEntry) : (s.setAmap b e).proms = s.proms := rfl

-- Fields of the group in focus --------------------------------------------------------------------------------

@[simp] theorem Group.updStream_st (g : Group) (st : Nat) (f : StreamSt → StreamSt) : (g.updStream st f).st = g.st := by unfold Group.updStream; split <;> rfl
@[simp] theorem Group.updStream_handle (g : Group) (st : Nat) (f : StreamSt → StreamSt) : (g.updStream st f).handle = g.handle := by unfold Group.updStream; split <;> rfl
@[simp] theorem Group.updStream_core (g : Group) (st : Nat) (f : StreamSt → StreamSt) : (g.updStream st f).core = g.core := by unfold Group.updStream; split <;> rfl
@[simp] theorem Group.updStream_slot (g : Group) (st : Nat) (f : StreamSt → StreamSt) : (g.updStream st f).slot = g.slot := by unfold Group.updStream; split <;> rfl
@[simp] theorem Group.updStream_prio (g : Group) (st : Nat) (f : StreamSt → StreamSt) : (g.updStream st f).prio = g.prio := by unfold Group.updStream; split <;> rfl
@[simp] theorem Group.updStream_age (g : Group) (st : Nat) (f : StreamSt → StreamSt) : (g.updStream st f).age = g.age := by unfold Group.updStream; split <;> rfl
@[simp] theorem Group.updStream_queue (g : Group) (st : Nat) (f : StreamSt → StreamSt) : (g.updStream st f).queue = g.queue := by unfold Group.updStream; split <;> rfl
@[simp] theorem Group.updStream_pkt (g : Group) (st : Nat) (f : StreamSt → StreamSt) : (g.updStream st f).pkt = g.pkt := by unfold Group.updStream; split <;> rfl
@[simp] theorem Group.updStream_pos (g : Group) (st : Nat) (f : StreamSt → StreamSt) : (g.updStream st f).pos = g.pos := by unfold Group.updStream; split <;> rfl
@[simp] theorem Group.updStream_half (g : Group) (st : Nat) (f : StreamSt → StreamSt) : (g.updStream st f).half = g.half := by unfold Group.updStream; split <;> rfl
@[simp] theorem Group.updStream_partner (g : Group) (st : Nat) (f : StreamSt → StreamSt) : (g.updStream st f).partner = g.partner := by unfold Group.updStream; split <;> rfl
@[simp] theorem Group.updStream_pairHold (g : Group) (st : Nat) (f : StreamSt → StreamSt) : (g.updStream st f).pairHold = g.pairHold := by unfold Group.updStream; split <;> rfl
@[simp] theorem Group.updStream_scrb (g : Group) (st : Nat) (f : StreamSt → StreamSt) : (g.updStream st f).scrb = g.scrb := by unfold Group.updStream; split <;> rfl
@[simp] theorem Group.updStream_fifob (g : Group) (st : Nat) (f : StreamSt → StreamSt) : (g.updStream st f).fifob = g.fifob := by unfold Group.updStream; split <;> rfl
@[simp] theorem Group.updStream_accb (g : Group) (st : Nat) (f : StreamSt → StreamSt) : (g.updStream st f).accb = g.accb := by unfold Group.updStream; split <;> rfl
@[simp] theorem Group.updStream_barn (g : Group) (st : Nat) (f : StreamSt → StreamSt) : (g.updStream st f).barn = g.barn := by unfold Group.updStream; split <;> rfl
@[simp] theorem Group.updStream_talk (g : Group) (st : Nat) (f : StreamSt → StreamSt) : (g.updStream st f).talk = g.talk := by unfold Group.updStream; split <;> rfl
@[simp] theorem Group.updStream_listen (g : Group) (st : Nat) (f : StreamSt → StreamSt) : (g.updStream st f).listen = g.listen := by unfold Group.updStream; split <;> rfl
@[simp] theorem Group.updStream_loops (g : Group) (st : Nat) (f : StreamSt → StreamSt) : (g.updStream st f).loops = g.loops := by unfold Group.updStream; split <;> rfl
@[simp] theorem Group.updStream_patches (g : Group) (st : Nat) (f : StreamSt → StreamSt) : (g.updStream st f).patches = g.patches := by unfold Group.updStream; split <;> rfl
@[simp] theorem Group.updStream_codeBase (g : Group) (st : Nat) (f : StreamSt → StreamSt) : (g.updStream st f).codeBase = g.codeBase := by unfold Group.updStream; split <;> rfl
@[simp] theorem Group.updStream_paramptr (g : Group) (st : Nat) (f : StreamSt → StreamSt) : (g.updStream st f).paramptr = g.paramptr := by unfold Group.updStream; split <;> rfl
@[simp] theorem Group.updStream_sidx (g : Group) (st : Nat) (f : StreamSt → StreamSt) : (g.updStream st f).sidx = g.sidx := by unfold Group.updStream; split <;> rfl
@[simp] theorem Group.updStream_gregs (g : Group) (st : Nat) (f : StreamSt → StreamSt) : (g.updStream st f).gregs = g.gregs := by unfold Group.updStream; split <;> rfl
@[simp] theorem Group.updStream_vregs (g : Group) (st : Nat) (f : StreamSt → StreamSt) : (g.updStream st f).vregs = g.vregs := by unfold Group.updStream; split <;> rfl
@[simp] theorem Group.updStream_kregs (g : Group) (st : Nat) (f : StreamSt → StreamSt) : (g.updStream st f).kregs = g.kregs := by unfold Group.updStream; split <;> rfl
@[simp] theorem Group.updStream_mstack (g : Group) (st : Nat) (f : StreamSt → StreamSt) : (g.updStream st f).mstack = g.mstack := by unfold Group.updStream; split <;> rfl
@[simp] theorem Group.updStream_dregs (g : Group) (st : Nat) (f : StreamSt → StreamSt) : (g.updStream st f).dregs = g.dregs := by unfold Group.updStream; split <;> rfl
@[simp] theorem Group.updStream_ocs (g : Group) (st : Nat) (f : StreamSt → StreamSt) : (g.updStream st f).ocs = g.ocs := by unfold Group.updStream; split <;> rfl
@[simp] theorem Group.updStream_staged (g : Group) (st : Nat) (f : StreamSt → StreamSt) : (g.updStream st f).staged = g.staged := by unfold Group.updStream; split <;> rfl
@[simp] theorem Group.updStream_hregs (g : Group) (st : Nat) (f : StreamSt → StreamSt) : (g.updStream st f).hregs = g.hregs := by unfold Group.updStream; split <;> rfl
@[simp] theorem Group.updStream_aregs (g : Group) (st : Nat) (f : StreamSt → StreamSt) : (g.updStream st f).aregs = g.aregs := by unfold Group.updStream; split <;> rfl
@[simp] theorem Group.updStream_prgv (g : Group) (st : Nat) (f : StreamSt → StreamSt) : (g.updStream st f).prgv = g.prgv := by unfold Group.updStream; split <;> rfl
@[simp] theorem Group.updStream_prgm (g : Group) (st : Nat) (f : StreamSt → StreamSt) : (g.updStream st f).prgm = g.prgm := by unfold Group.updStream; split <;> rfl
@[simp] theorem Group.updStream_prgc (g : Group) (st : Nat) (f : StreamSt → StreamSt) : (g.updStream st f).prgc = g.prgc := by unfold Group.updStream; split <;> rfl
@[simp] theorem Group.updStream_fmtcur (g : Group) (st : Nat) (f : StreamSt → StreamSt) : (g.updStream st f).fmtcur = g.fmtcur := by unfold Group.updStream; split <;> rfl
@[simp] theorem Group.updStream_toks (g : Group) (st : Nat) (f : StreamSt → StreamSt) : (g.updStream st f).toks = g.toks := by unfold Group.updStream; split <;> rfl
@[simp] theorem Group.updStream_resv (g : Group) (st : Nat) (f : StreamSt → StreamSt) : (g.updStream st f).resv = g.resv := by unfold Group.updStream; split <;> rfl
@[simp] theorem Group.updStream_fmtq (g : Group) (st : Nat) (f : StreamSt → StreamSt) : (g.updStream st f).fmtq = g.fmtq := by unfold Group.updStream; split <;> rfl
@[simp] theorem Group.updStream_hmode (g : Group) (st : Nat) (f : StreamSt → StreamSt) : (g.updStream st f).hmode = g.hmode := by unfold Group.updStream; split <;> rfl
@[simp] theorem Group.updStream_ien (g : Group) (st : Nat) (f : StreamSt → StreamSt) : (g.updStream st f).ien = g.ien := by unfold Group.updStream; split <;> rfl
@[simp] theorem Group.updStream_ipend (g : Group) (st : Nat) (f : StreamSt → StreamSt) : (g.updStream st f).ipend = g.ipend := by unfold Group.updStream; split <;> rfl
@[simp] theorem Group.updStream_ipval (g : Group) (st : Nat) (f : StreamSt → StreamSt) : (g.updStream st f).ipval = g.ipval := by unfold Group.updStream; split <;> rfl
@[simp] theorem Group.updStream_preq (g : Group) (st : Nat) (f : StreamSt → StreamSt) : (g.updStream st f).preq = g.preq := by unfold Group.updStream; split <;> rfl
@[simp] theorem Group.updStream_predl (g : Group) (st : Nat) (f : StreamSt → StreamSt) : (g.updStream st f).predl = g.predl := by unfold Group.updStream; split <;> rfl
@[simp] theorem Group.updStream_preqFor (g : Group) (st : Nat) (f : StreamSt → StreamSt) : (g.updStream st f).preqFor = g.preqFor := by unfold Group.updStream; split <;> rfl
@[simp] theorem Group.updStream_preqSusp (g : Group) (st : Nat) (f : StreamSt → StreamSt) : (g.updStream st f).preqSusp = g.preqSusp := by unfold Group.updStream; split <;> rfl
@[simp] theorem Group.updStream_saving (g : Group) (st : Nat) (f : StreamSt → StreamSt) : (g.updStream st f).saving = g.saving := by unfold Group.updStream; split <;> rfl
@[simp] theorem Group.updStream_pendld (g : Group) (st : Nat) (f : StreamSt → StreamSt) : (g.updStream st f).pendld = g.pendld := by unfold Group.updStream; split <;> rfl
@[simp] theorem Group.updStream_nlatch (g : Group) (st : Nat) (f : StreamSt → StreamSt) : (g.updStream st f).nlatch = g.nlatch := by unfold Group.updStream; split <;> rfl
@[simp] theorem Group.updStream_lpush (g : Group) (st : Nat) (f : StreamSt → StreamSt) : (g.updStream st f).lpush = g.lpush := by unfold Group.updStream; split <;> rfl
@[simp] theorem Group.updStream_tvec (g : Group) (st : Nat) (f : StreamSt → StreamSt) : (g.updStream st f).tvec = g.tvec := by unfold Group.updStream; split <;> rfl
@[simp] theorem Group.updStream_tframe (g : Group) (st : Nat) (f : StreamSt → StreamSt) : (g.updStream st f).tframe = g.tframe := by unfold Group.updStream; split <;> rfl
@[simp] theorem Group.updStream_framePa (g : Group) (st : Nat) (f : StreamSt → StreamSt) : (g.updStream st f).framePa = g.framePa := by unfold Group.updStream; split <;> rfl
@[simp] theorem Group.updStream_imgSize (g : Group) (st : Nat) (f : StreamSt → StreamSt) : (g.updStream st f).imgSize = g.imgSize := by unfold Group.updStream; split <;> rfl
@[simp] theorem Group.updStream_tcause (g : Group) (st : Nat) (f : StreamSt → StreamSt) : (g.updStream st f).tcause = g.tcause := by unfold Group.updStream; split <;> rfl
@[simp] theorem Group.updStream_sstat (g : Group) (st : Nat) (f : StreamSt → StreamSt) : (g.updStream st f).sstat = g.sstat := by unfold Group.updStream; split <;> rfl
@[simp] theorem Group.updStream_epcs (g : Group) (st : Nat) (f : StreamSt → StreamSt) : (g.updStream st f).epcs = g.epcs := by unfold Group.updStream; split <;> rfl
@[simp] theorem Group.updStream_epcv (g : Group) (st : Nat) (f : StreamSt → StreamSt) : (g.updStream st f).epcv = g.epcv := by unfold Group.updStream; split <;> rfl
@[simp] theorem Group.updStream_epcm (g : Group) (st : Nat) (f : StreamSt → StreamSt) : (g.updStream st f).epcm = g.epcm := by unfold Group.updStream; split <;> rfl
@[simp] theorem Group.updStream_epcc (g : Group) (st : Nat) (f : StreamSt → StreamSt) : (g.updStream st f).epcc = g.epcc := by unfold Group.updStream; split <;> rfl
@[simp] theorem Group.updStream_hsv (g : Group) (st : Nat) (f : StreamSt → StreamSt) : (g.updStream st f).hsv = g.hsv := by unfold Group.updStream; split <;> rfl
@[simp] theorem Group.updStream_lmap (g : Group) (st : Nat) (f : StreamSt → StreamSt) : (g.updStream st f).lmap = g.lmap := by unfold Group.updStream; split <;> rfl
@[simp] theorem Group.updStream_scratch (g : Group) (st : Nat) (f : StreamSt → StreamSt) : (g.updStream st f).scratch = g.scratch := by unfold Group.updStream; split <;> rfl
@[simp] theorem Group.updStream_full (g : Group) (st : Nat) (f : StreamSt → StreamSt) : (g.updStream st f).full = g.full := by unfold Group.updStream; split <;> rfl
@[simp] theorem Group.updStream_badScr (g : Group) (st : Nat) (f : StreamSt → StreamSt) : (g.updStream st f).badScr = g.badScr := by unfold Group.updStream; split <;> rfl
@[simp] theorem Group.updStream_fifos (g : Group) (st : Nat) (f : StreamSt → StreamSt) : (g.updStream st f).fifos = g.fifos := by unfold Group.updStream; split <;> rfl
@[simp] theorem Group.updStream_amap (g : Group) (st : Nat) (f : StreamSt → StreamSt) : (g.updStream st f).amap = g.amap := by unfold Group.updStream; split <;> rfl
@[simp] theorem Group.updStream_bmap (g : Group) (st : Nat) (f : StreamSt → StreamSt) : (g.updStream st f).bmap = g.bmap := by unfold Group.updStream; split <;> rfl
@[simp] theorem Group.updStream_vcyc (g : Group) (st : Nat) (f : StreamSt → StreamSt) : (g.updStream st f).vcyc = g.vcyc := by unfold Group.updStream; split <;> rfl
@[simp] theorem Group.updStream_flight (g : Group) (st : Nat) (f : StreamSt → StreamSt) : (g.updStream st f).flight = g.flight := by unfold Group.updStream; split <;> rfl
@[simp] theorem Group.updStream_vld (g : Group) (st : Nat) (f : StreamSt → StreamSt) : (g.updStream st f).vld = g.vld := by unfold Group.updStream; split <;> rfl
@[simp] theorem Group.updStream_vreplay (g : Group) (st : Nat) (f : StreamSt → StreamSt) : (g.updStream st f).vreplay = g.vreplay := by unfold Group.updStream; split <;> rfl
@[simp] theorem Group.updStream_vpend (g : Group) (st : Nat) (f : StreamSt → StreamSt) : (g.updStream st f).vpend = g.vpend := by unfold Group.updStream; split <;> rfl
@[simp] theorem Group.updStream_vtrap (g : Group) (st : Nat) (f : StreamSt → StreamSt) : (g.updStream st f).vtrap = g.vtrap := by unfold Group.updStream; split <;> rfl
@[simp] theorem Group.updStream_pendTraps (g : Group) (st : Nat) (f : StreamSt → StreamSt) : (g.updStream st f).pendTraps = g.pendTraps := by unfold Group.updStream; split <;> rfl
@[simp] theorem Group.updStream_vsrc (g : Group) (st : Nat) (f : StreamSt → StreamSt) : (g.updStream st f).vsrc = g.vsrc := by unfold Group.updStream; split <;> rfl
@[simp] theorem Group.updStream_vcmd (g : Group) (st : Nat) (f : StreamSt → StreamSt) : (g.updStream st f).vcmd = g.vcmd := by unfold Group.updStream; split <;> rfl
@[simp] theorem Group.updStream_memb (g : Group) (st : Nat) (f : StreamSt → StreamSt) : (g.updStream st f).memb = g.memb := by unfold Group.updStream; split <;> rfl
@[simp] theorem Group.updStream_seq (g : Group) (st : Nat) (f : StreamSt → StreamSt) : (g.updStream st f).seq = g.seq := by unfold Group.updStream; split <;> rfl
@[simp] theorem Group.updStream_stwr (g : Group) (st : Nat) (f : StreamSt → StreamSt) : (g.updStream st f).stwr = g.stwr := by unfold Group.updStream; split <;> rfl
@[simp] theorem Group.updStream_mreq (g : Group) (st : Nat) (f : StreamSt → StreamSt) : (g.updStream st f).mreq = g.mreq := by unfold Group.updStream; split <;> rfl
@[simp] theorem Group.updStream_mcmd (g : Group) (st : Nat) (f : StreamSt → StreamSt) : (g.updStream st f).mcmd = g.mcmd := by unfold Group.updStream; split <;> rfl
@[simp] theorem Group.updStream_msync (g : Group) (st : Nat) (f : StreamSt → StreamSt) : (g.updStream st f).msync = g.msync := by unfold Group.updStream; split <;> rfl
@[simp] theorem Group.updStream_lastAbnd (g : Group) (st : Nat) (f : StreamSt → StreamSt) : (g.updStream st f).lastAbnd = g.lastAbnd := by unfold Group.updStream; split <;> rfl
@[simp] theorem Group.updStream_again (g : Group) (st : Nat) (f : StreamSt → StreamSt) : (g.updStream st f).again = g.again := by unfold Group.updStream; split <;> rfl
@[simp] theorem Group.updStream_owed (g : Group) (st : Nat) (f : StreamSt → StreamSt) : (g.updStream st f).owed = g.owed := by unfold Group.updStream; split <;> rfl
@[simp] theorem Group.updStream_ccmd (g : Group) (st : Nat) (f : StreamSt → StreamSt) : (g.updStream st f).ccmd = g.ccmd := by unfold Group.updStream; split <;> rfl
@[simp] theorem Group.updStream_cput (g : Group) (st : Nat) (f : StreamSt → StreamSt) : (g.updStream st f).cput = g.cput := by unfold Group.updStream; split <;> rfl
@[simp] theorem Group.updStream_redFaults (g : Group) (st : Nat) (f : StreamSt → StreamSt) : (g.updStream st f).redFaults = g.redFaults := by unfold Group.updStream; split <;> rfl
@[simp] theorem Group.updStream_asyncs (g : Group) (st : Nat) (f : StreamSt → StreamSt) : (g.updStream st f).asyncs = g.asyncs := by unfold Group.updStream; split <;> rfl
@[simp] theorem Group.updStream_plog (g : Group) (st : Nat) (f : StreamSt → StreamSt) : (g.updStream st f).plog = g.plog := by unfold Group.updStream; split <;> rfl
@[simp] theorem Group.updStream_snap (g : Group) (st : Nat) (f : StreamSt → StreamSt) : (g.updStream st f).snap = g.snap := by unfold Group.updStream; split <;> rfl
@[simp] theorem Group.updStream_eager (g : Group) (st : Nat) (f : StreamSt → StreamSt) : (g.updStream st f).eager = g.eager := by unfold Group.updStream; split <;> rfl
@[simp] theorem Group.updStream_retired (g : Group) (st : Nat) (f : StreamSt → StreamSt) : (g.updStream st f).retired = g.retired := by unfold Group.updStream; split <;> rfl
@[simp] theorem Group.updStream_rwait (g : Group) (st : Nat) (f : StreamSt → StreamSt) : (g.updStream st f).rwait = g.rwait := by unfold Group.updStream; split <;> rfl
@[simp] theorem Group.updStream_swait (g : Group) (st : Nat) (f : StreamSt → StreamSt) : (g.updStream st f).swait = g.swait := by unfold Group.updStream; split <;> rfl
@[simp] theorem Group.updStream_bwait (g : Group) (st : Nat) (f : StreamSt → StreamSt) : (g.updStream st f).bwait = g.bwait := by unfold Group.updStream; split <;> rfl
@[simp] theorem Group.updStream_cbwait (g : Group) (st : Nat) (f : StreamSt → StreamSt) : (g.updStream st f).cbwait = g.cbwait := by unfold Group.updStream; split <;> rfl
@[simp] theorem Group.updStream_barSaved (g : Group) (st : Nat) (f : StreamSt → StreamSt) : (g.updStream st f).barSaved = g.barSaved := by unfold Group.updStream; split <;> rfl
@[simp] theorem Group.updStream_accSaved (g : Group) (st : Nat) (f : StreamSt → StreamSt) : (g.updStream st f).accSaved = g.accSaved := by unfold Group.updStream; split <;> rfl
@[simp] theorem Group.updStream_status (g : Group) (st : Nat) (f : StreamSt → StreamSt) : (g.updStream st f).status = g.status := by unfold Group.updStream; split <;> rfl
@[simp] theorem Group.updStream_info (g : Group) (st : Nat) (f : StreamSt → StreamSt) : (g.updStream st f).info = g.info := by unfold Group.updStream; split <;> rfl
@[simp] theorem Group.updStream_faultRec (g : Group) (st : Nat) (f : StreamSt → StreamSt) : (g.updStream st f).faultRec = g.faultRec := by unfold Group.updStream; split <;> rfl
@[simp] theorem Group.updStream_toksat (g : Group) (st : Nat) (f : StreamSt → StreamSt) : (g.updStream st f).toksat = g.toksat := by unfold Group.updStream; split <;> rfl
@[simp] theorem Group.updStream_faultsupp (g : Group) (st : Nat) (f : StreamSt → StreamSt) : (g.updStream st f).faultsupp = g.faultsupp := by unfold Group.updStream; split <;> rfl
@[simp] theorem Group.updStream_fmtres (g : Group) (st : Nat) (f : StreamSt → StreamSt) : (g.updStream st f).fmtres = g.fmtres := by unfold Group.updStream; split <;> rfl
@[simp] theorem Group.updStream_hint (g : Group) (st : Nat) (f : StreamSt → StreamSt) : (g.updStream st f).hint = g.hint := by unfold Group.updStream; split <;> rfl
@[simp] theorem State.setX_grp_st (s : State) (r : BitVec 5) (v : W64) : (s.setX r v).grp.st = s.grp.st := by unfold State.setX; split <;> rfl
@[simp] theorem State.setX_grp_handle (s : State) (r : BitVec 5) (v : W64) : (s.setX r v).grp.handle = s.grp.handle := by unfold State.setX; split <;> rfl
@[simp] theorem State.setX_grp_core (s : State) (r : BitVec 5) (v : W64) : (s.setX r v).grp.core = s.grp.core := by unfold State.setX; split <;> rfl
@[simp] theorem State.setX_grp_slot (s : State) (r : BitVec 5) (v : W64) : (s.setX r v).grp.slot = s.grp.slot := by unfold State.setX; split <;> rfl
@[simp] theorem State.setX_grp_prio (s : State) (r : BitVec 5) (v : W64) : (s.setX r v).grp.prio = s.grp.prio := by unfold State.setX; split <;> rfl
@[simp] theorem State.setX_grp_age (s : State) (r : BitVec 5) (v : W64) : (s.setX r v).grp.age = s.grp.age := by unfold State.setX; split <;> rfl
@[simp] theorem State.setX_grp_queue (s : State) (r : BitVec 5) (v : W64) : (s.setX r v).grp.queue = s.grp.queue := by unfold State.setX; split <;> rfl
@[simp] theorem State.setX_grp_pkt (s : State) (r : BitVec 5) (v : W64) : (s.setX r v).grp.pkt = s.grp.pkt := by unfold State.setX; split <;> rfl
@[simp] theorem State.setX_grp_pos (s : State) (r : BitVec 5) (v : W64) : (s.setX r v).grp.pos = s.grp.pos := by unfold State.setX; split <;> rfl
@[simp] theorem State.setX_grp_half (s : State) (r : BitVec 5) (v : W64) : (s.setX r v).grp.half = s.grp.half := by unfold State.setX; split <;> rfl
@[simp] theorem State.setX_grp_partner (s : State) (r : BitVec 5) (v : W64) : (s.setX r v).grp.partner = s.grp.partner := by unfold State.setX; split <;> rfl
@[simp] theorem State.setX_grp_pairHold (s : State) (r : BitVec 5) (v : W64) : (s.setX r v).grp.pairHold = s.grp.pairHold := by unfold State.setX; split <;> rfl
@[simp] theorem State.setX_grp_scrb (s : State) (r : BitVec 5) (v : W64) : (s.setX r v).grp.scrb = s.grp.scrb := by unfold State.setX; split <;> rfl
@[simp] theorem State.setX_grp_fifob (s : State) (r : BitVec 5) (v : W64) : (s.setX r v).grp.fifob = s.grp.fifob := by unfold State.setX; split <;> rfl
@[simp] theorem State.setX_grp_accb (s : State) (r : BitVec 5) (v : W64) : (s.setX r v).grp.accb = s.grp.accb := by unfold State.setX; split <;> rfl
@[simp] theorem State.setX_grp_barn (s : State) (r : BitVec 5) (v : W64) : (s.setX r v).grp.barn = s.grp.barn := by unfold State.setX; split <;> rfl
@[simp] theorem State.setX_grp_talk (s : State) (r : BitVec 5) (v : W64) : (s.setX r v).grp.talk = s.grp.talk := by unfold State.setX; split <;> rfl
@[simp] theorem State.setX_grp_listen (s : State) (r : BitVec 5) (v : W64) : (s.setX r v).grp.listen = s.grp.listen := by unfold State.setX; split <;> rfl
@[simp] theorem State.setX_grp_loops (s : State) (r : BitVec 5) (v : W64) : (s.setX r v).grp.loops = s.grp.loops := by unfold State.setX; split <;> rfl
@[simp] theorem State.setX_grp_patches (s : State) (r : BitVec 5) (v : W64) : (s.setX r v).grp.patches = s.grp.patches := by unfold State.setX; split <;> rfl
@[simp] theorem State.setX_grp_codeBase (s : State) (r : BitVec 5) (v : W64) : (s.setX r v).grp.codeBase = s.grp.codeBase := by unfold State.setX; split <;> rfl
@[simp] theorem State.setX_grp_paramptr (s : State) (r : BitVec 5) (v : W64) : (s.setX r v).grp.paramptr = s.grp.paramptr := by unfold State.setX; split <;> rfl
@[simp] theorem State.setX_grp_sidx (s : State) (r : BitVec 5) (v : W64) : (s.setX r v).grp.sidx = s.grp.sidx := by unfold State.setX; split <;> rfl
@[simp] theorem State.setX_grp_ss (s : State) (r : BitVec 5) (v : W64) : (s.setX r v).grp.ss = s.grp.ss := by unfold State.setX; split <;> rfl
@[simp] theorem State.setX_grp_vs (s : State) (r : BitVec 5) (v : W64) : (s.setX r v).grp.vs = s.grp.vs := by unfold State.setX; split <;> rfl
@[simp] theorem State.setX_grp_ms (s : State) (r : BitVec 5) (v : W64) : (s.setX r v).grp.ms = s.grp.ms := by unfold State.setX; split <;> rfl
@[simp] theorem State.setX_grp_cs (s : State) (r : BitVec 5) (v : W64) : (s.setX r v).grp.cs = s.grp.cs := by unfold State.setX; split <;> rfl
@[simp] theorem State.setX_grp_vregs (s : State) (r : BitVec 5) (v : W64) : (s.setX r v).grp.vregs = s.grp.vregs := by unfold State.setX; split <;> rfl
@[simp] theorem State.setX_grp_kregs (s : State) (r : BitVec 5) (v : W64) : (s.setX r v).grp.kregs = s.grp.kregs := by unfold State.setX; split <;> rfl
@[simp] theorem State.setX_grp_mstack (s : State) (r : BitVec 5) (v : W64) : (s.setX r v).grp.mstack = s.grp.mstack := by unfold State.setX; split <;> rfl
@[simp] theorem State.setX_grp_dregs (s : State) (r : BitVec 5) (v : W64) : (s.setX r v).grp.dregs = s.grp.dregs := by unfold State.setX; split <;> rfl
@[simp] theorem State.setX_grp_ocs (s : State) (r : BitVec 5) (v : W64) : (s.setX r v).grp.ocs = s.grp.ocs := by unfold State.setX; split <;> rfl
@[simp] theorem State.setX_grp_staged (s : State) (r : BitVec 5) (v : W64) : (s.setX r v).grp.staged = s.grp.staged := by unfold State.setX; split <;> rfl
@[simp] theorem State.setX_grp_hregs (s : State) (r : BitVec 5) (v : W64) : (s.setX r v).grp.hregs = s.grp.hregs := by unfold State.setX; split <;> rfl
@[simp] theorem State.setX_grp_aregs (s : State) (r : BitVec 5) (v : W64) : (s.setX r v).grp.aregs = s.grp.aregs := by unfold State.setX; split <;> rfl
@[simp] theorem State.setX_grp_prgv (s : State) (r : BitVec 5) (v : W64) : (s.setX r v).grp.prgv = s.grp.prgv := by unfold State.setX; split <;> rfl
@[simp] theorem State.setX_grp_prgm (s : State) (r : BitVec 5) (v : W64) : (s.setX r v).grp.prgm = s.grp.prgm := by unfold State.setX; split <;> rfl
@[simp] theorem State.setX_grp_prgc (s : State) (r : BitVec 5) (v : W64) : (s.setX r v).grp.prgc = s.grp.prgc := by unfold State.setX; split <;> rfl
@[simp] theorem State.setX_grp_fmtcur (s : State) (r : BitVec 5) (v : W64) : (s.setX r v).grp.fmtcur = s.grp.fmtcur := by unfold State.setX; split <;> rfl
@[simp] theorem State.setX_grp_toks (s : State) (r : BitVec 5) (v : W64) : (s.setX r v).grp.toks = s.grp.toks := by unfold State.setX; split <;> rfl
@[simp] theorem State.setX_grp_resv (s : State) (r : BitVec 5) (v : W64) : (s.setX r v).grp.resv = s.grp.resv := by unfold State.setX; split <;> rfl
@[simp] theorem State.setX_grp_fmtq (s : State) (r : BitVec 5) (v : W64) : (s.setX r v).grp.fmtq = s.grp.fmtq := by unfold State.setX; split <;> rfl
@[simp] theorem State.setX_grp_hmode (s : State) (r : BitVec 5) (v : W64) : (s.setX r v).grp.hmode = s.grp.hmode := by unfold State.setX; split <;> rfl
@[simp] theorem State.setX_grp_ien (s : State) (r : BitVec 5) (v : W64) : (s.setX r v).grp.ien = s.grp.ien := by unfold State.setX; split <;> rfl
@[simp] theorem State.setX_grp_ipend (s : State) (r : BitVec 5) (v : W64) : (s.setX r v).grp.ipend = s.grp.ipend := by unfold State.setX; split <;> rfl
@[simp] theorem State.setX_grp_ipval (s : State) (r : BitVec 5) (v : W64) : (s.setX r v).grp.ipval = s.grp.ipval := by unfold State.setX; split <;> rfl
@[simp] theorem State.setX_grp_preq (s : State) (r : BitVec 5) (v : W64) : (s.setX r v).grp.preq = s.grp.preq := by unfold State.setX; split <;> rfl
@[simp] theorem State.setX_grp_predl (s : State) (r : BitVec 5) (v : W64) : (s.setX r v).grp.predl = s.grp.predl := by unfold State.setX; split <;> rfl
@[simp] theorem State.setX_grp_preqFor (s : State) (r : BitVec 5) (v : W64) : (s.setX r v).grp.preqFor = s.grp.preqFor := by unfold State.setX; split <;> rfl
@[simp] theorem State.setX_grp_preqSusp (s : State) (r : BitVec 5) (v : W64) : (s.setX r v).grp.preqSusp = s.grp.preqSusp := by unfold State.setX; split <;> rfl
@[simp] theorem State.setX_grp_saving (s : State) (r : BitVec 5) (v : W64) : (s.setX r v).grp.saving = s.grp.saving := by unfold State.setX; split <;> rfl
@[simp] theorem State.setX_grp_pendld (s : State) (r : BitVec 5) (v : W64) : (s.setX r v).grp.pendld = s.grp.pendld := by unfold State.setX; split <;> rfl
@[simp] theorem State.setX_grp_nlatch (s : State) (r : BitVec 5) (v : W64) : (s.setX r v).grp.nlatch = s.grp.nlatch := by unfold State.setX; split <;> rfl
@[simp] theorem State.setX_grp_lpush (s : State) (r : BitVec 5) (v : W64) : (s.setX r v).grp.lpush = s.grp.lpush := by unfold State.setX; split <;> rfl
@[simp] theorem State.setX_grp_tvec (s : State) (r : BitVec 5) (v : W64) : (s.setX r v).grp.tvec = s.grp.tvec := by unfold State.setX; split <;> rfl
@[simp] theorem State.setX_grp_tframe (s : State) (r : BitVec 5) (v : W64) : (s.setX r v).grp.tframe = s.grp.tframe := by unfold State.setX; split <;> rfl
@[simp] theorem State.setX_grp_framePa (s : State) (r : BitVec 5) (v : W64) : (s.setX r v).grp.framePa = s.grp.framePa := by unfold State.setX; split <;> rfl
@[simp] theorem State.setX_grp_imgSize (s : State) (r : BitVec 5) (v : W64) : (s.setX r v).grp.imgSize = s.grp.imgSize := by unfold State.setX; split <;> rfl
@[simp] theorem State.setX_grp_tcause (s : State) (r : BitVec 5) (v : W64) : (s.setX r v).grp.tcause = s.grp.tcause := by unfold State.setX; split <;> rfl
@[simp] theorem State.setX_grp_sstat (s : State) (r : BitVec 5) (v : W64) : (s.setX r v).grp.sstat = s.grp.sstat := by unfold State.setX; split <;> rfl
@[simp] theorem State.setX_grp_epcs (s : State) (r : BitVec 5) (v : W64) : (s.setX r v).grp.epcs = s.grp.epcs := by unfold State.setX; split <;> rfl
@[simp] theorem State.setX_grp_epcv (s : State) (r : BitVec 5) (v : W64) : (s.setX r v).grp.epcv = s.grp.epcv := by unfold State.setX; split <;> rfl
@[simp] theorem State.setX_grp_epcm (s : State) (r : BitVec 5) (v : W64) : (s.setX r v).grp.epcm = s.grp.epcm := by unfold State.setX; split <;> rfl
@[simp] theorem State.setX_grp_epcc (s : State) (r : BitVec 5) (v : W64) : (s.setX r v).grp.epcc = s.grp.epcc := by unfold State.setX; split <;> rfl
@[simp] theorem State.setX_grp_hsv (s : State) (r : BitVec 5) (v : W64) : (s.setX r v).grp.hsv = s.grp.hsv := by unfold State.setX; split <;> rfl
@[simp] theorem State.setX_grp_lmap (s : State) (r : BitVec 5) (v : W64) : (s.setX r v).grp.lmap = s.grp.lmap := by unfold State.setX; split <;> rfl
@[simp] theorem State.setX_grp_scratch (s : State) (r : BitVec 5) (v : W64) : (s.setX r v).grp.scratch = s.grp.scratch := by unfold State.setX; split <;> rfl
@[simp] theorem State.setX_grp_full (s : State) (r : BitVec 5) (v : W64) : (s.setX r v).grp.full = s.grp.full := by unfold State.setX; split <;> rfl
@[simp] theorem State.setX_grp_badScr (s : State) (r : BitVec 5) (v : W64) : (s.setX r v).grp.badScr = s.grp.badScr := by unfold State.setX; split <;> rfl
@[simp] theorem State.setX_grp_fifos (s : State) (r : BitVec 5) (v : W64) : (s.setX r v).grp.fifos = s.grp.fifos := by unfold State.setX; split <;> rfl
@[simp] theorem State.setX_grp_amap (s : State) (r : BitVec 5) (v : W64) : (s.setX r v).grp.amap = s.grp.amap := by unfold State.setX; split <;> rfl
@[simp] theorem State.setX_grp_bmap (s : State) (r : BitVec 5) (v : W64) : (s.setX r v).grp.bmap = s.grp.bmap := by unfold State.setX; split <;> rfl
@[simp] theorem State.setX_grp_vcyc (s : State) (r : BitVec 5) (v : W64) : (s.setX r v).grp.vcyc = s.grp.vcyc := by unfold State.setX; split <;> rfl
@[simp] theorem State.setX_grp_flight (s : State) (r : BitVec 5) (v : W64) : (s.setX r v).grp.flight = s.grp.flight := by unfold State.setX; split <;> rfl
@[simp] theorem State.setX_grp_vld (s : State) (r : BitVec 5) (v : W64) : (s.setX r v).grp.vld = s.grp.vld := by unfold State.setX; split <;> rfl
@[simp] theorem State.setX_grp_vreplay (s : State) (r : BitVec 5) (v : W64) : (s.setX r v).grp.vreplay = s.grp.vreplay := by unfold State.setX; split <;> rfl
@[simp] theorem State.setX_grp_vpend (s : State) (r : BitVec 5) (v : W64) : (s.setX r v).grp.vpend = s.grp.vpend := by unfold State.setX; split <;> rfl
@[simp] theorem State.setX_grp_vtrap (s : State) (r : BitVec 5) (v : W64) : (s.setX r v).grp.vtrap = s.grp.vtrap := by unfold State.setX; split <;> rfl
@[simp] theorem State.setX_grp_pendTraps (s : State) (r : BitVec 5) (v : W64) : (s.setX r v).grp.pendTraps = s.grp.pendTraps := by unfold State.setX; split <;> rfl
@[simp] theorem State.setX_grp_vsrc (s : State) (r : BitVec 5) (v : W64) : (s.setX r v).grp.vsrc = s.grp.vsrc := by unfold State.setX; split <;> rfl
@[simp] theorem State.setX_grp_vcmd (s : State) (r : BitVec 5) (v : W64) : (s.setX r v).grp.vcmd = s.grp.vcmd := by unfold State.setX; split <;> rfl
@[simp] theorem State.setX_grp_memb (s : State) (r : BitVec 5) (v : W64) : (s.setX r v).grp.memb = s.grp.memb := by unfold State.setX; split <;> rfl
@[simp] theorem State.setX_grp_seq (s : State) (r : BitVec 5) (v : W64) : (s.setX r v).grp.seq = s.grp.seq := by unfold State.setX; split <;> rfl
@[simp] theorem State.setX_grp_stwr (s : State) (r : BitVec 5) (v : W64) : (s.setX r v).grp.stwr = s.grp.stwr := by unfold State.setX; split <;> rfl
@[simp] theorem State.setX_grp_mreq (s : State) (r : BitVec 5) (v : W64) : (s.setX r v).grp.mreq = s.grp.mreq := by unfold State.setX; split <;> rfl
@[simp] theorem State.setX_grp_mcmd (s : State) (r : BitVec 5) (v : W64) : (s.setX r v).grp.mcmd = s.grp.mcmd := by unfold State.setX; split <;> rfl
@[simp] theorem State.setX_grp_msync (s : State) (r : BitVec 5) (v : W64) : (s.setX r v).grp.msync = s.grp.msync := by unfold State.setX; split <;> rfl
@[simp] theorem State.setX_grp_lastAbnd (s : State) (r : BitVec 5) (v : W64) : (s.setX r v).grp.lastAbnd = s.grp.lastAbnd := by unfold State.setX; split <;> rfl
@[simp] theorem State.setX_grp_again (s : State) (r : BitVec 5) (v : W64) : (s.setX r v).grp.again = s.grp.again := by unfold State.setX; split <;> rfl
@[simp] theorem State.setX_grp_owed (s : State) (r : BitVec 5) (v : W64) : (s.setX r v).grp.owed = s.grp.owed := by unfold State.setX; split <;> rfl
@[simp] theorem State.setX_grp_ccmd (s : State) (r : BitVec 5) (v : W64) : (s.setX r v).grp.ccmd = s.grp.ccmd := by unfold State.setX; split <;> rfl
@[simp] theorem State.setX_grp_cput (s : State) (r : BitVec 5) (v : W64) : (s.setX r v).grp.cput = s.grp.cput := by unfold State.setX; split <;> rfl
@[simp] theorem State.setX_grp_redFaults (s : State) (r : BitVec 5) (v : W64) : (s.setX r v).grp.redFaults = s.grp.redFaults := by unfold State.setX; split <;> rfl
@[simp] theorem State.setX_grp_asyncs (s : State) (r : BitVec 5) (v : W64) : (s.setX r v).grp.asyncs = s.grp.asyncs := by unfold State.setX; split <;> rfl
@[simp] theorem State.setX_grp_plog (s : State) (r : BitVec 5) (v : W64) : (s.setX r v).grp.plog = s.grp.plog := by unfold State.setX; split <;> rfl
@[simp] theorem State.setX_grp_snap (s : State) (r : BitVec 5) (v : W64) : (s.setX r v).grp.snap = s.grp.snap := by unfold State.setX; split <;> rfl
@[simp] theorem State.setX_grp_eager (s : State) (r : BitVec 5) (v : W64) : (s.setX r v).grp.eager = s.grp.eager := by unfold State.setX; split <;> rfl
@[simp] theorem State.setX_grp_retired (s : State) (r : BitVec 5) (v : W64) : (s.setX r v).grp.retired = s.grp.retired := by unfold State.setX; split <;> rfl
@[simp] theorem State.setX_grp_rwait (s : State) (r : BitVec 5) (v : W64) : (s.setX r v).grp.rwait = s.grp.rwait := by unfold State.setX; split <;> rfl
@[simp] theorem State.setX_grp_swait (s : State) (r : BitVec 5) (v : W64) : (s.setX r v).grp.swait = s.grp.swait := by unfold State.setX; split <;> rfl
@[simp] theorem State.setX_grp_bwait (s : State) (r : BitVec 5) (v : W64) : (s.setX r v).grp.bwait = s.grp.bwait := by unfold State.setX; split <;> rfl
@[simp] theorem State.setX_grp_cbwait (s : State) (r : BitVec 5) (v : W64) : (s.setX r v).grp.cbwait = s.grp.cbwait := by unfold State.setX; split <;> rfl
@[simp] theorem State.setX_grp_barSaved (s : State) (r : BitVec 5) (v : W64) : (s.setX r v).grp.barSaved = s.grp.barSaved := by unfold State.setX; split <;> rfl
@[simp] theorem State.setX_grp_accSaved (s : State) (r : BitVec 5) (v : W64) : (s.setX r v).grp.accSaved = s.grp.accSaved := by unfold State.setX; split <;> rfl
@[simp] theorem State.setX_grp_status (s : State) (r : BitVec 5) (v : W64) : (s.setX r v).grp.status = s.grp.status := by unfold State.setX; split <;> rfl
@[simp] theorem State.setX_grp_info (s : State) (r : BitVec 5) (v : W64) : (s.setX r v).grp.info = s.grp.info := by unfold State.setX; split <;> rfl
@[simp] theorem State.setX_grp_faultRec (s : State) (r : BitVec 5) (v : W64) : (s.setX r v).grp.faultRec = s.grp.faultRec := by unfold State.setX; split <;> rfl
@[simp] theorem State.setX_grp_toksat (s : State) (r : BitVec 5) (v : W64) : (s.setX r v).grp.toksat = s.grp.toksat := by unfold State.setX; split <;> rfl
@[simp] theorem State.setX_grp_faultsupp (s : State) (r : BitVec 5) (v : W64) : (s.setX r v).grp.faultsupp = s.grp.faultsupp := by unfold State.setX; split <;> rfl
@[simp] theorem State.setX_grp_fmtres (s : State) (r : BitVec 5) (v : W64) : (s.setX r v).grp.fmtres = s.grp.fmtres := by unfold State.setX; split <;> rfl
@[simp] theorem State.setX_grp_hint (s : State) (r : BitVec 5) (v : W64) : (s.setX r v).grp.hint = s.grp.hint := by unfold State.setX; split <;> rfl

-- Registers ------------------------------------------------------------------------------------------------------------

/-- g0 discards writes and reads 0 (R128). -/
@[simp] theorem State.setX_zero (s : State) (v : W64) : s.setX 0 v = s := rfl
@[simp] theorem State.x_zero (s : State) : s.x 0 = 0 := rfl

theorem State.x_setX_self (s : State) (r : BitVec 5) (v : W64) (hl : s.grp.gregs.length = 32) (hr : r ≠ 0) : (s.setX r v).x r = v := by
  have h0 : (r == 0) = false := by simpa using hr
  have hg : (s.setX r v).grp.gregs = updAt s.grp.gregs r.toNat (fun _ => v) := by unfold State.setX; rw [h0]; rfl
  unfold State.x Group.x; rw [h0, hg]
  exact getD_updAt_self _ _ _ _ (by rw [hl]; exact r.isLt)

theorem State.x_setX_other (s : State) (r q : BitVec 5) (v : W64) (h : r ≠ q) : (s.setX r v).x q = s.x q := by
  have hn : r.toNat ≠ q.toNat := fun e => h (BitVec.eq_of_toNat_eq e)
  cases h0 : (r == 0)
  · have hg : (s.setX r v).grp.gregs = updAt s.grp.gregs r.toNat (fun _ => v) := by unfold State.setX; rw [h0]; rfl
    unfold State.x Group.x; rw [hg, getD_updAt_other _ _ _ _ _ hn]
  · unfold State.setX; rw [h0]; rfl

/-- A stream's state after an update of a stream. -/
theorem Group.stream_updStream_self (g : Group) (st : Nat) (f : StreamSt → StreamSt) (h : st < 4) :
    (g.updStream st f).stream st = f (g.stream st) := by
  match st, h with
  | 0, _ => rfl
  | 1, _ => rfl
  | 2, _ => rfl
  | 3, _ => rfl

theorem Group.stream_updStream_other (g : Group) (st j : Nat) (f : StreamSt → StreamSt) (h : st < 4) (hj : j < 4) (hn : st ≠ j) :
    (g.updStream st f).stream j = g.stream j := by
  match st, h, j, hj with
  | 0, _, 0, _ => exact absurd rfl hn
  | 1, _, 1, _ => exact absurd rfl hn
  | 2, _, 2, _ => exact absurd rfl hn
  | 3, _, 3, _ => exact absurd rfl hn
  | 0, _, 1, _ => rfl
  | 0, _, 2, _ => rfl
  | 0, _, 3, _ => rfl
  | 1, _, 0, _ => rfl
  | 1, _, 2, _ => rfl
  | 1, _, 3, _ => rfl
  | 2, _, 0, _ => rfl
  | 2, _, 1, _ => rfl
  | 2, _, 3, _ => rfl
  | 3, _, 0, _ => rfl
  | 3, _, 1, _ => rfl
  | 3, _, 2, _ => rfl

@[simp] theorem State.pc_setPc (s : State) (st : Nat) (pc : W64) (h : st < 4) : (s.setPc st pc).pc st = pc := by
  simp only [State.pc, State.setPc, State.updStream, State.updGrp, Group.stream_updStream_self _ _ _ h]
@[simp] theorem State.pc_advance (s : State) (st : Nat) (h : st < 4) : (s.advance st).pc st = s.pc st + 4 := by
  simp only [State.advance, State.pc_setPc _ _ _ h]
@[simp] theorem State.x_setPc (s : State) (st : Nat) (pc : W64) (r : BitVec 5) : (s.setPc st pc).x r = s.x r := by
  unfold State.x Group.x; rw [State.setPc_grp, Group.updStream_gregs]
@[simp] theorem State.x_advance (s : State) (st : Nat) (r : BitVec 5) : (s.advance st).x r = s.x r := by
  unfold State.advance; exact State.x_setPc ..

end Sys2Proof.Machine
end

