-- ==== Sys2Proof/Tests/Slice0.lean ====
section
/-! SUPPORT. The tests: an ill-formed term for each check of `WellFormed`; words written out from the manual's encodings and worked
examples; one step of small states, with results taken from the manual's tables or by hand; and, for each statement, states that meet its
hypotheses (named `witness_…`). -/

namespace Sys2Proof.Tests

open Sys2Proof Sys2Proof.Machine

set_option Elab.async false

-- Helpers ----------------------------------------------------------------------------------------------------------------

/-- The answer of an access that completes. -/
def isOk {α : Type} (x : Acc α) : Bool := match x with
  | .ok _ _ => true
  | _ => false
/-- An access that waits. -/
def isWait {α : Type} (x : Acc α) : Bool := match x with
  | .wait _ => true
  | _ => false
/-- The fault code of an access that faults, 0 for none. -/
def codeOf {α : Type} (x : Acc α) : Nat := match x with
  | .fault e _ => e.code
  | _ => 0
/-- The state that an access leaves. -/
def left {α : Type} (x : Acc α) : State := match x with
  | .ok _ s => s
  | .fault _ s => s
  | .wait s => s
/-- Whether a meaning answers a next state of which `f` holds. -/
def after (o : Out) (f : State → Bool) : Bool := match o with
  | .next t => f t
  | _ => false

/-- A group of context 0 on core 0 that runs stream `st`, with its code, data and stack in the 64 KiB page at virtual address 0 (physical
`fetchPage`), one scratch bank, one FIFO bank, two loop levels, two barriers, four accumulator banks, both optics and a handler that
the policy of its context sends every fault to. -/
def grpT (st : Stream) : Group :=
  let g : Group := { fetchGroup st with
    scrb := 1, fifob := 1, accb := 4, barn := 2, talk := true, listen := true, lmap := [0, 1],
    loops := [{ kind := 0, pcount := false, count := 2, strides := [0, 0, 0, 0], sels := [0, 0, 0, 0] },
              { kind := 0, pcount := false, count := 0, strides := [0, 0, 0, 0], sels := [0, 0, 0, 0] }],
    fifos := [.empty], tvec := 0x800,
    bmap := [{ kind := .owned, obj := 0, own := 0, reg := false, last := none },
             { kind := .unmapped, obj := 1, own := 1, reg := false, last := none }] }
  -- the other streams run too, so that tokens between them can still come
  [0, 1, 2, 3].foldl (fun g k => g.updStream k (fun t => { t with run := .ready, result := 0xFFFF })) g

/-- The module with that group in focus. -/
def T (st : Stream) : State :=
  let s : State := { State.reset.withFetchWord 32 0x1C000000 with
    grp := grpT st, strm := st, agenda := [], phase := 3, ready := List.replicate 161 1 }
  (s.updCtx 0 (fun c => { c with st := .opened, policy := 0x5555555555555555, htab := 0x3000, hcount := 4 })).updCore 0 (fun c => { c with
    banks := updAt (updAt c.banks 0 (fun b => { b with mode := .scratch, target := .scratch, owner := 1 })) 1
      (fun b => { b with mode := .fifo, target := .fifo, owner := 1 }) })

/-- A module whose functions are ready. -/
def RUN : State := { State.reset with phase := 3, ready := List.replicate 161 1 }
/-- The scalar stream with two registers set. -/
def S2 (x y : W64) : State := ((T .s).setX 1 x).setX 2 y

-- Well-formedness: one ill-formed term for each check -----------------------------------------------------------------------

theorem illFormed_scopeAny : WellFormed (.fence 5) = false := by decide
theorem illFormed_scopeJobCore : WellFormed (.ldfe 1 2 2 0) = false := by decide
theorem illFormed_scopeDevFab : WellFormed (.ldAcqp 1 2 2 3) = false := by decide
theorem illFormed_barScope : WellFormed (.barArr 1 2 4) = false := by decide
theorem illFormed_atomOk : WellFormed (.atom 1 2 0 3 1 4) = false := by decide
theorem illFormed_redOk : WellFormed (.red 1 0 2 6 0) = false := by decide
theorem illFormed_tokListOk : WellFormed (.toksend 0 0 0 1) = false ∧ WellFormed (.tokwait 1 0 0 0) = false := by decide
theorem illFormed_sysReadable : WellFormed (.sysr 1 5) = false := by decide
theorem illFormed_sysWritable : WellFormed (.sysw 1 0x24) = false := by decide
theorem illFormed_lvlOk : WellFormed (.loopBeg 6 0) = false := by decide
theorem illFormed_sel3Ok : WellFormed (.vadd 0 0 1 2 3 0 3) = false := by decide
theorem illFormed_maskDst : WellFormed (.kmov 0 0 0 1) = false := by decide
theorem illFormed_vcmpOk : WellFormed (.vcmp 0 0 1 2 3 0 3 2) = false := by decide
theorem illFormed_cvtOk : WellFormed (.vcvt 0 0 1 2 0 13) = false := by decide
theorem illFormed_evenV : WellFormed (.vld 0 0 1 3 0 0) = false := by decide
theorem illFormed_evenC : WellFormed (.cpyS 0 0 1 2 0 0) = false := by decide
theorem illFormed_rowsOk : WellFormed (.mtile 0 0 1 3 0 1 2) = false := by decide
theorem illFormed_mdFieldOk : WellFormed (.mdset 0 0 1 7 1) = false := by decide
theorem illFormed_joinOk : WellFormed (.mjoin 0 0 0 2 1 0) = false := by decide
theorem illFormed_ocfgOk : WellFormed (.mocfg 0 0 4 0 0) = false := by decide
theorem illFormed_mstatOk : WellFormed (.mstat 0 0 7 0 2) = false := by decide
theorem illFormed_bandOk : WellFormed (.maccZero 0 0 0 1) = false := by decide
theorem illFormed_flagsOk : WellFormed (.cpy 0 0 1 2 3 4) = false := by decide

-- Decoding: words written from the encodings of chapter 3 --------------------------------------------------------------------

/-- The worked words of chapter 3 (R38 to R43): one of each stream, and the reserved row count. -/
theorem decode_worked :
    decode .v 0x12220444#32 = .ok (.vfma 4 2 4 1 2 1 0) ∧ decode .s 0x50323010#32 = .ok (.ldAcq 3 4 3 16) ∧
    decode .m 0x0423D012#32 = .ok (.mtile 0 2 15 1 0 1 2) ∧ decode .m 0x0423F012#32 = .error .reserved ∧
    decode .c 0xFD200000#32 = .ok (.nopXn 2 2) ∧ decode .s 0x20117FF0#32 = .ok (.beq 1 2 0x7FF0) := ⟨rfl, rfl, rfl, rfl, rfl, rfl⟩
/-- Scalar register forms: primary 1 and 2, gD 24:20, gA 19:15, gB 14:10, FN10 9:0. -/
theorem decode_scalar : decode .s 0x02321400#32 = .ok (.add 3 4 5) ∧ decode .s 0x04321403#32 = .ok (.quoI 3 4 5) := ⟨rfl, rfl⟩
theorem decode_scalar_control : decode .s 0x22707FFD#32 = .ok (.bne 7 0 0x7FFD) ∧ decode .s 0x2DF04002#32 = .ok (.jmp 31 0x4002) ∧
    decode .s 0x88A32000#32 = .ok (.loopIdx 10 1) ∧ decode .s 0x7C000000#32 = .ok .rett := ⟨rfl, rfl, rfl, rfl⟩
theorem decode_scalar_memory : decode .s 0x52722008#32 = .ok (.stRel 7 4 2 8) ∧ decode .s 0x54323280#32 = .ok (.ldAcqp 3 4 3 5) ∧
    decode .s 0x56002001#32 = .ok (.fenceRel 2) ∧ decode .s 0x56003000#32 = .ok (.fence 3) ∧ decode .s 0x56004002#32 = .ok (.fenceAcq 4) := ⟨rfl, rfl, rfl, rfl, rfl⟩
theorem decode_barriers : decode .s 0x80620082#32 = .ok (.barArr 6 4 1) ∧ decode .s 0x80721903#32 = .ok (.barWait 7 4 6 2) ∧
    decode .s 0x80020084#32 = .ok (.barArd 4 1) ∧ decode .s 0x80021405#32 = .ok (.barPub 4 5) := ⟨rfl, rfl, rfl, rfl⟩
theorem decode_loops : decode .s 0x88002004#32 = .ok (.loopBeg 1 4) ∧ decode .s 0x88012000#32 = .ok (.loopFirst 1 0) ∧
    decode .s 0x88022000#32 = .ok (.loopLast 1 0) := ⟨rfl, rfl, rfl⟩
theorem decode_matrix : decode .m 0x0A00C010#32 = .ok (.mbcast 4 0 3 0 1) ∧ decode .m 0x0C0FE012#32 = .ok (.mtileT 0 0 63 2 0 1 2) ∧
    decode .m 0x10200000#32 = .ok (.msync 0 2) ∧ decode .m 0x40039200#32 = .ok (.mjoin 0 0 1 3 9 0) ∧
    decode .m 0x20011002#32 = .ok (.mdset 0 0 1 1 2) ∧ decode .m 0x44000000#32 = .ok (.mleave 0 0) := ⟨rfl, rfl, rfl, rfl, rfl, rfl⟩
theorem decode_copy : decode .c 0x0C421400#32 = .ok (.ctld 0 4 2 1 4 0) ∧ decode .c 0x1C067800#32 = .ok (.cwalk 0 0 6 7 8 0) ∧
    decode .c 0x30040500#32 = .ok (.ccoll 0 0 4 5) := ⟨rfl, rfl, rfl⟩
/-- Unassigned primaries and functions, and a set RSV bit, are no instruction (R45, R46). -/
theorem decode_refuses : decode .s 0#32 = .error .primary ∧ decode .v 0#32 = .error .primary ∧ decode .m 0#32 = .error .primary ∧
    decode .c 0#32 = .error .primary ∧ decode .s 0x1C000001#32 = .error .function := ⟨rfl, rfl, rfl, rfl, rfl⟩
theorem encode_inverts : encode (.vfma 4 2 4 1 2 1 0) = some 0x12220444#32 ∧ encode (.bne 7 0 0x7FFD) = some 0x22707FFD#32 ∧
    encode (.mtile 0 2 15 1 0 1 2) = some 0x0423D012#32 ∧ encode (.ctld 0 4 2 1 4 0) = some 0x0C421400#32 ∧ encode .groupDispatch = none := by decide
/-- What the host asks of the decoder and of the fetch. -/
theorem decodeTableWord_add : decodeTableWord 32 0x02321400 = some (.add 3 4 5) := by decide

-- Scalar -----------------------------------------------------------------------------------------------------------------

/-- Tables 8-1 and 8-2, by hand: a wrap, a signed shift, a signed compare, the high half of a signed product. -/
theorem test_add_wraps : after (exec (.add 3 1 2) (S2 0xFFFFFFFFFFFFFFFF 1)) (fun t => t.x 3 == 0 && t.pc 0 == 4) = true := by decide +kernel
theorem test_sub_into_source : after (exec (.sub 1 1 2) (S2 5 7)) (fun t => t.x 1 == 0xFFFFFFFFFFFFFFFE && t.x 2 == 7) = true := by decide +kernel
theorem test_andn : after (exec (.andn 3 1 2) (S2 0xFF 0x0F)) (fun t => t.x 3 == 0xF0) = true := by decide +kernel
theorem test_shrI_sign : after (exec (.shrI 3 1 2) (S2 0x8000000000000000 0x41)) (fun t => t.x 3 == 0xC000000000000000) = true := by decide +kernel
theorem test_shl_six_bits : after (exec (.shl 3 1 2) (S2 1 64)) (fun t => t.x 3 == 1) = true := by decide +kernel
theorem test_cmpltI : after (exec (.cmpltI 3 1 2) (S2 0xFFFFFFFFFFFFFFFF 0)) (fun t => t.x 3 == 1) = true := by decide +kernel
theorem test_cmpltN : after (exec (.cmpltN 3 1 2) (S2 0xFFFFFFFFFFFFFFFF 0)) (fun t => t.x 3 == 0) = true := by decide +kernel
theorem test_mulhiI : after (exec (.mulhiI 3 1 2) (S2 0xFFFFFFFFFFFFFFFF 2)) (fun t => t.x 3 == 0xFFFFFFFFFFFFFFFF) = true := by decide +kernel
theorem test_mulhiN : after (exec (.mulhiN 3 1 2) (S2 0xFFFFFFFFFFFFFFFF 2)) (fun t => t.x 3 == 1) = true := by decide +kernel
theorem test_quoI_truncates : after (exec (.quoI 3 1 2) (S2 0xFFFFFFFFFFFFFFF9 2)) (fun t => t.x 3 == 0xFFFFFFFFFFFFFFFD) = true := by decide +kernel
theorem test_rmdI_sign : after (exec (.rmdI 3 1 2) (S2 0xFFFFFFFFFFFFFFF9 2)) (fun t => t.x 3 == 0xFFFFFFFFFFFFFFFF) = true := by decide +kernel
theorem test_g0_discards : after (exec (.add 0 1 2) (S2 5 7)) (fun t => t.x 0 == 0 && t.grp.gregs.getD 0 9 == 0) = true := by decide +kernel
theorem test_sel : after (exec (.sel 3 1 2 0) (S2 5 7)) (fun t => t.x 3 == 7) = true := by decide +kernel
theorem test_clz_of_zero : after (exec (.clz 3 1) (S2 0 0)) (fun t => t.x 3 == 64) = true := by decide +kernel
theorem test_bswap : after (exec (.bswap 3 1) (S2 0x0102030405060708 0)) (fun t => t.x 3 == 0x0807060504030201) = true := by decide +kernel
theorem test_immCat : after (exec (.immCat 1 0xABCDE) (S2 0x7 0)) (fun t => t.x 1 == 0x7ABCDE) = true := by decide +kernel
theorem test_pcadd : after (exec (.pcadd 3 0xFFFFF) (S2 0 0)) (fun t => t.x 3 == 0xFFFFFFFFFFFFFFFC) = true := by decide +kernel
theorem test_jmpr_link_after_read : after (exec (.jmpr 1 1 2) (S2 0x100 0)) (fun t => t.x 1 == 4 && t.pc 0 == 0x108) = true := by decide +kernel
theorem test_beq_backwards : after (exec (.beq 1 2 0x7FFF) ((S2 5 5).setPc 0 0x40)) (fun t => t.pc 0 == 0x3C) = true := by decide +kernel
theorem test_bltN_not_taken : after (exec (.bltN 1 2 4) (S2 0xFFFFFFFFFFFFFFFF 5)) (fun t => t.pc 0 == 4) = true := by decide +kernel

theorem T_placed (st : Stream) : Placed (T st) := by cases st <;> (unfold Placed; decide +kernel)

/-- A divisor that is zero, one that is not, and the overflowing division. -/
theorem witness_ScalarRegisterForms : Placed (S2 5 0) ∧ (S2 5 0).x 2 = 0 ∧ Placed (S2 5 1) ∧ (S2 5 1).x 2 ≠ 0 ∧
    (S2 (BitVec.ofNat 64 (2 ^ 63)) (BitVec.allOnes 64)).x 1 = BitVec.ofNat 64 (2 ^ 63) ∧
    (S2 (BitVec.ofNat 64 (2 ^ 63)) (BitVec.allOnes 64)).x 2 = BitVec.allOnes 64 := by unfold Placed; decide +kernel
theorem witness_ScalarImmediateForms : Placed (S2 5 0) := by unfold Placed; decide +kernel
theorem witness_RegisterWrites : (T .s).grp.gregs.length = 32 := by decide +kernel
theorem witness_ScalarFrames : scalarDest (.add 3 1 2) = some 3 ∧ after (exec (.add 3 1 2) (S2 5 7)) (fun t => t.x 3 == 12) = true := by decide +kernel
/-- A level open around the pc: targets at its start, at its `end` and beyond. -/
def SL (stop : Nat) : State := (T .s).updStream 0 (fun t => { t with levels := [{ lvl := 0, start := 0, stop := stop, idx := 0 }] })
theorem witness_ScalarBranches : Placed (S2 1 2) ∧ (S2 1 2).grp.ss.levels = [] ∧ (SL 16).grp.hmode = false ∧
    (SL 16).grp.ss.levels = [{ lvl := 0, start := 0, stop := 16, idx := 0 }] ∧
    ((SL 16).branch 0 16).grp.ss.levels = (SL 16).grp.ss.levels ∧ ((SL 16).branch 0 20).grp.ss.levels = [] ∧
    Placed (SL 16) ∧ (SL 16).strm = .s ∧ (SL 16).grp.loops.length = 2 ∧ ((SL 16).grp.loopEnt 0).count = 2 := by unfold Placed; decide +kernel
/-- A branch to `end`: the first of two iterations goes on at the start, the second closes the level. -/
theorem test_branch_to_end : after (exec .loopIterationEnd ((SL 16).branch 0 16)) (fun t => t.pc 0 == 0 && t.grp.ss.levels.map (fun l => l.idx) == [1] &&
    after (exec .loopIterationEnd (t.branch 0 16)) (fun u => u.pc 0 == 16 && u.grp.ss.levels == [])) = true := by decide +kernel
theorem witness_Jumps : Placed (S2 0x102 0) ∧ ((S2 0x102 0).x 1 + 4 * (1 : BitVec 15).signExtend 64).toNat % 4 ≠ 0 ∧
    ((S2 0x104 0).x 1 + 4 * (1 : BitVec 15).signExtend 64).toNat % 4 = 0 := by unfold Placed; decide +kernel

-- Scalar memory ----------------------------------------------------------------------------------------------------------

theorem test_stI16_ldI16 : after (exec (.stI16 2 1 0) (S2 0x40 0xFFF68001)) (fun t =>
    after (exec (.ldI16 3 1 0) t) (fun u => u.x 3 == 0xFFFFFFFFFFFF8001 && u.pc 0 == 8)) = true := by decide +kernel
theorem test_ldN8_zero_extends : after (exec (.stI64 2 1 0) (S2 0x40 0x00000000000080FF)) (fun t =>
    after (exec (.ldN8 3 1 1) t) (fun u => u.x 3 == 0x80)) = true := by decide +kernel
theorem test_ldI32_align : after (exec (.ldI32 3 1 2) (S2 0x40 0)) (fun t => t.grp.hmode && fieldOf t.grp.tcause 47 40 == 5) = true := by decide +kernel
theorem test_stlI32_ldlI32 : after (exec (.stlI32 2 1 4) (S2 0x40 0x80000000)) (fun t =>
    t.grp.scratch == [(0x47, 0x80)] && after (exec (.ldlI32 3 1 4) t) (fun u => u.x 3 == 0xFFFFFFFF80000000)) = true := by decide +kernel
theorem test_atom_add_returns_old : after (exec (.atom 3 1 0 2 0 1) (S2 0x40 7)) (fun t =>
    t.x 3 == 0 && after (exec (.atom 3 1 0 2 0 1) t) (fun u => u.x 3 == 7)) = true := by decide +kernel
theorem test_atom_cas : after (exec (.atom 3 1 3 2 7 2) (S2 0x40 9)) (fun t =>
    t.x 3 == 0 && after (exec (.ldI64 4 1 0) t) (fun u => u.x 4 == 9)) = true := by decide +kernel
theorem test_atomNew : atomNew 4 0 32 0xFFFFFFFF 1 0 = 0xFFFFFFFF ∧ atomNew 4 1 32 0xFFFFFFFF 1 0 = 1 ∧ atomNew 5 2 64 (2 ^ 63) 1 0 = 1 ∧
    atomNew 0 1 32 0xFFFFFFFF 2 0 = 1 ∧ atomNew 7 1 32 5 8 5 = 8 ∧ atomNew 7 1 32 5 8 6 = 5 := by decide +kernel
theorem test_stfe_fills_ldfe_drains : after (exec (.stfe 2 1 0 0) (S2 0x40 7)) (fun t =>
    t.grp.full == [4] && after (exec (.ldfe 3 1 0 0) t) (fun u => u.x 3 == 7 && u.grp.full == [])) = true := by decide +kernel
theorem test_fifo_push_pop : after (exec (.stfe 2 1 0 0) (S2 0x80000000 7)) (fun t =>
    (t.grp.fifo 0).count == 1 && after (exec (.ldfe 3 1 0 0) t) (fun u => u.x 3 == 7 && (u.grp.fifo 0).count == 0)) = true := by decide +kernel
theorem test_ldfe_of_empty_waits : after (exec (.ldfe 3 1 0 0) (S2 0x40 0)) (fun t => t.pc 0 == 0 && t.grp.ss.run == .blocked) = true := by decide +kernel

/-- A state whose L1 holds the line at virtual address 0x1000. -/
def SL1 : State := left (vaWrite (S2 0x1000 0x11223344) 0x1000 8 5)

theorem witness_ScalarLoads : Placed (S2 0x1000 0) ∧ isOk (vaRead (S2 0x1000 0) 0 0x1000 1) = true ∧ isOk (vaRead (S2 0x1000 0) 0 0x1000 2) = true ∧
    isOk (vaRead (S2 0x1000 0) 0 0x1000 4) = true ∧ isOk (vaRead (S2 0x1000 0) 0 0xFFF8 8) = true := by unfold Placed; decide +kernel
theorem witness_ScalarStores : isOk (vaWrite (S2 0x1000 0) 0x1000 1 5) = true ∧ isOk (vaWrite (S2 0x1000 0) 0x1002 2 5) = true ∧
    isOk (vaWrite (S2 0x1000 0) 0x1004 4 5) = true ∧ isOk (vaWrite (S2 0x1000 0) 0xFFF8 8 5) = true := by decide +kernel
theorem witness_AccessFaults : Placed (S2 0x1001 0) ∧ ((S2 0x1001 0).x 1 + (0 : BitVec 12).signExtend 64).toNat % 2 ≠ 0 ∧
    2 ^ 57 ≤ ((S2 0x0200000000000000 0).x 1 + (0 : BitVec 12).signExtend 64).toNat ∧ 4 < (5 : BitVec 3).toNat := by unfold Placed; decide +kernel
theorem witness_LoadAfterStore : hasL1 (T .s) 0 = true ∧ ((T .s).core 0).journal.length < 16384 ∧ isOk (translate (T .s) 0 0 0x1008 .store) = true ∧ isOk (vaWrite (T .s) 0x1008 8 0x1122334455667788) = true ∧
    inRemote (fetchPage + 0x1008) = false ∧
    (match translate (T .s) 0 0 0x1008 .store with | .ok t _ => t.pa == fetchPage + 0x1008 | _ => false) = true := by decide +kernel
theorem witness_StoreFrame : isOk (vaWrite (T .s) 0x1008 4 7) = true := by decide +kernel
/-- A hit in L1, and a miss in both levels of a line whose set has room. -/
theorem witness_StoredBytesOnly : (l1Find SL1 0 ((fetchPage + 0x1000) / 128)).any (fun cl => cl.has 0 8) = true ∧
    isOk (vaWrite SL1 0x1000 8 6) = true ∧ findLine (SL1.core 0).l1 ((fetchPage + 0x2000) / 128) = none ∧
    findLine (SL1.die 0).l2 ((fetchPage + 0x2000) / 128) = none ∧ farRange (fetchPage + 0x2000) = false ∧
    (cacheBanks (SL1.core 0)).any (fun p =>
      !((SL1.core 0).l1.any (fun x => x.line % 1024 == (fetchPage + 0x2000) / 128 % 1024 && x.bank == p))) = true ∧
    isOk (vaWrite SL1 0x2000 8 6) = true ∧ (SL1.ndie 0).queue = [] ∧ (SL1.ndie 0).farWrites.length < 4096 ∧ (SL1.die 0).l2.length < l2Lines := by decide +kernel
/-- A line that only the L2 holds, and one that the L1 holds without the stored bytes. -/
theorem witness_storedBytes_reach : let a := (fetchPage + 0x1000) / 128
    let u := SL1.updCore 0 (fun c => { c with l1 := [] })
    let v := SL1.updCore 0 (fun c => { c with l1 := c.l1.map (fun l => { l with present := 0, dirty := 0xF }) })
    l1Find u 0 a = none ∧ (findLine (u.die 0).l2 a).any (fun x => !x.zero) = true ∧ isOk (vaWrite u 0x1000 8 6) = true ∧
    (l1Find v 0 a).any (fun cl => !cl.has 0 8) = true ∧ isOk (vaWrite v 0x1000 8 6) = true := by decide +kernel
/-- A far page at virtual address 0x10000 whose first line hits, dirty, in the cache of its N-die. -/
def SFar : State :=
  let s := (T .s).updNDie 0 (fun n => { n with ftcSize := 1, ftcBase := 0x20000000 })
  ftcSetMeta (s.updCore 0 (fun c => { c with tlb := [{ fetchEnt with vpn := 1, leaf := BitVec.ofNat 64 (farBase + 0x33) }] })) (0x20000000 / 128) 0 1 1 1 0
theorem witness_storedBytes_far : (match translate SFar 0 0 0x10000 .store with
      | .ok t u =>
        let nd := u.ndie t.home
        let w := ftcWhere nd (t.pa / 128)
        t.pa == farBase && farRange t.pa && nd.queue.isEmpty && ftcOn nd && ftcHit u nd w.1 w.2.1 w.2.2 && ftcDirty u (ftcLine nd w.1 w.2.2) && !lostAt u t.pa
      | _ => false) = true ∧ isOk (vaWrite SFar 0x10000 8 6) = true ∧
    (cacheBanks (SFar.core 0)).any (fun p => !((SFar.core 0).l1.any (fun x => x.line % 1024 == farBase / 128 % 1024 && x.bank == p))) = true := by decide +kernel
theorem witness_ScratchAccesses : isOk (scrCheck (S2 0x1FFF8 0) 0x1FFF8 8) = true ∧ scrBad (S2 0x1FFF8 0) 0x1FFF8 8 = none ∧
    isOk (scrCheck (S2 0 0) 0 4) = true ∧ isOk (scrCheck (S2 0 0) 0x20000 8) = false := by decide +kernel
theorem witness_AcquiresAndReleases : isOk (vaRead (S2 0x1000 0) 0 0x1000 8) = true ∧
    isOk (acqG (left (vaRead (S2 0x1000 0) 0 0x1000 8)) 4) = true ∧ isOk (fabGate (S2 0x1000 0) 4) = true ∧
    isOk (storeCheck (S2 0x1000 0) 0x1000 8) = true ∧ logBlocked (S2 0x1000 0).grp ((fetchPage + 0x1000) / 128) = false ∧
    isOk (relG (S2 0x1000 0) 2) = true ∧ isOk (relG (S2 0x1000 0) 4) = true ∧
    after (exec (.stRel 2 1 2 0) (S2 0x1000 5)) (fun t => t.pc 0 == 4 && t.grp.plog == [(fetchPage + 0x1000) / 128]) = true ∧
    after (exec (.ldAcqp 3 1 3 2) (S2 0x1000 0x0100000000000000)) (fun t => t.pc 0 == 4) = true := by decide +kernel
theorem witness_RedQuiet (sc : Nat) : RedQuiet (T .s) sc := ⟨by simp only [redPending]; rfl, rfl⟩
theorem witness_AtomicsComplete : awaitsHome (S2 0x1000 3) 0 ((fetchPage + 0x1000) / 128) = false ∧ redLine (S2 0x1000 3) ((fetchPage + 0x1000) / 128) = false ∧
    (dieFlush (S2 0x1000 3) 0 ((fetchPage + 0x1000) / 128)).isSome = true ∧ isOk (l2Atomic (S2 0x1000 3) 0 { pa := fetchPage + 0x1000, leaf := 0 } 0x1000 8 (fun v => v)) = true ∧
    after (exec (.red 1 3 2 0 1) (S2 0x1000 3)) (fun t => t.pc 0 == 4 && (t.ndies.any (fun n => n.queue.length == 1))) = true := by decide +kernel
theorem witness_AtomicEffects : (0 : Nat) < 32 ∧ 0xFFFFFFFF < 2 ^ 32 ∧ (0 : Nat) / 8 < (T .s).dies.length ∧ ((T .s).core 0).journal.length < 16384 := by decide +kernel
theorem witness_FullEmptyAccesses :
    after (exec (.stfe 2 1 1 0) (S2 0x40 7)) (fun t => isOk (scrCheck t 0x40 8) && (scrBad t 0x40 8).isNone && t.grp.full.contains 4 &&
      isOk (acqG (t.updGrp (fun g => g.drain 4)) 1)) = true ∧
    isOk (fifoCheck (S2 0x80000000 7) 0 0x80000000) = true ∧ ((S2 0 0).grp.fifo 0).count ≤ 8191 ∧ ((S2 0 0).grp.fifo 0).badTop 1 = false ∧
    ((S2 0 0).grp.fifo 0).head < 16384 ∧ ((S2 0 0).grp.fifo 0).tail < 16384 := by decide +kernel

-- Caches, tokens, ends, launches, signals, traps -----------------------------------------------------------------------------

theorem test_clineZero : after (exec (.stI64 2 1 0) (S2 0x1000 128)) (fun t =>
    after (exec (.clineZero 1 2) t) (fun u => after (exec (.ldI64 3 1 0) u) (fun v => v.x 3 == 0))) = true := by decide +kernel
theorem test_clineWb_of_nothing : after (exec (.clineWb 1 2 0) (S2 0x1000 0)) (fun t => t.pc 0 == 4) = true := by decide +kernel
theorem test_range_too_long : after (exec (.clineWb 1 2 0) (S2 0x1000 0x40000001)) (fun t => fieldOf t.grp.tcause 47 40 == 4) = true := by decide +kernel
theorem test_tlbInv_numbers : after (exec (.tlbInv 3 1) (S2 0x10000 0)) (fun t => t.pc 0 == 4 && t.dies.all (fun d => d.ilog.length == 1)) = true := by decide +kernel
theorem test_bmodeQuery : after (exec (.bmodeQuery 3 1) (S2 2 0)) (fun t => t.x 3 == 7) = true := by decide +kernel
theorem test_bmodeFull : after (exec (.bmodeFull 1 2) (S2 0x20 0x20)) (fun t => t.grp.full == [2, 3]) = true := by decide +kernel
theorem test_toksend : after (exec (.toksend 1 0 0 3) (T .s)) (fun t => t.grp.tok 0 == 3 && t.pc 0 == 4) = true := by decide +kernel
theorem test_tokwait_waits : after (exec (.tokwait 1 0 0 1) (T .s)) (fun t => t.pc 0 == 0) = true := by decide +kernel
theorem test_fmtq : after (exec (.fmtq 1) (S2 5 0)) (fun t => t.grp.fmtq == [5]) = true := by decide +kernel
theorem test_rend_drains : after (exec (.rend 7) (T .s)) (fun t => t.grp.ss.run == .draining && t.grp.ss.pendResult == 7) = true := by decide +kernel
theorem test_trap_enters : after (exec (.trap 0x1234) (T .s)) (fun t =>
    t.grp.hmode && t.grp.tcause == 0xFF0000001234 && t.grp.epcs == 4 && t.pc 0 == 0x800 && t.grp.vs.run == .stopped) = true := by decide +kernel
theorem test_exit_result : after (exec (.exit 3) ((T .s).updStream 0 (fun t => { t with result := 7 }))) (fun t => t.grp.ss.result == 0xFFFF && t.grp.info == 3) = true := by
  decide +kernel
theorem test_trap_in_handler_ends : after (exec (.trap 1) ((T .s).updGrp (fun g => { g with hmode := true, st := .handler }))) (fun t =>
    t.grp.st != .handler && t.grp.status == .trap) = true := by decide +kernel
theorem test_sysr_mode : after (exec (.sysr 3 0x18) (T .s)) (fun t => fieldOf t.grp.tcause 47 40 == 1) = true := by decide +kernel
theorem test_sysw_tvec : after (exec (.sysw 1 0x12) (S2 0x0600000000001003 0)) (fun t => t.grp.tvec == 0x1000) = true := by decide +kernel
theorem test_sigSet_sigAdd : after (exec (.sigSet 3 1 2) (S2 0x2000 5)) (fun t =>
    after (exec (.sigAdd 3 1 2) t) (fun u => u.x 3 == 5 && after (exec (.ldN32 4 1 0) u) (fun v => v.x 4 == 10))) = true := by decide +kernel
theorem test_sigWait_wraps : after (exec (.sigWait 3 1 2) (S2 0x2000 0xFFFFFFFF)) (fun t => t.pc 0 == 4 && t.x 3 == 0) = true := by decide +kernel
theorem test_sigInt_own_group : after (exec (.sigInt 3 1 2) (S2 1 5)) (fun t => t.x 3 == 0 && t.grp.ipend && t.grp.ipval == 5) = true := by decide +kernel
theorem test_launch_no_queue : after (exec (.launch 3 1 2) (S2 0x8000 0x1000)) (fun t => t.x 3 == 0x300000000) = true := by decide +kernel
/-- A queue of 16 slots whose ring stands at virtual address 0x4000 of context 0, open to device launches. -/
def SQ (head tail : Nat) : State := (S2 1 0x1000).updQueue 1 (fun q => { q with st := .ready, ring := 0x4000, devok := true, head := head, tail := tail })
theorem test_launch_tail : after (exec (.launch 3 1 2) (SQ 0 15)) (fun t => t.x 3 == 15 && (t.queue 1).tail == 16) = true := by decide +kernel
theorem test_launch_full : after (exec (.launch 3 1 2) (SQ 0 16)) (fun t => t.x 3 == 0x200000000 && (t.queue 1).tail == 16) = true := by decide +kernel

/-- One line, no line, and a range that is too long. -/
theorem witness_CacheRanges : (S2 0x1000 0).x 2 = 0 ∧ 2 ^ 30 < ((S2 0x1000 0x40000001).x 2).toNat ∧ 0 < ((S2 0x1000 0x40000000).x 2).toNat ∧
    ((S2 0x1000 0x40000000).x 2).toNat ≤ 2 ^ 30 ∧
    (match pieces (S2 0x1000 1) 0x1000 1 .load with
      | .ok [p] s1 => !inRemote p.tr.pa && ((pieceWb1 s1 p).bind (fun s2 => pieceWb2 s2 p)).isSome && ((pieceWbi1 s1 p).bind (fun s2 => pieceWb2 s2 p)).isSome &&
        !((s1.die (dieOf s1.grp.core)).reds.any (fun r => r.handle == s1.grp.handle && p.hasLine (r.pa / 128)))
      | _ => false) = true ∧
    (match pieces (S2 0x1000 1) 0x1000 1 .store with
      | .ok [p] s1 => ((pieceWbi1 s1 p).bind (fun s2 => zeroPiece s2 s2.grp.core p)).isSome
      | _ => false) = true := by decide +kernel
theorem witness_TranslationInstructions : isOk (translate (S2 0x1000 0) 0 0 0x1000 .load) = true ∧ isOk (relG (S2 0x1000 0) 3) = true ∧
    ((S2 0x1000 0).x 1).toNat < 2 ^ 57 ∧ isOk (devLoad (S2 0x1000 0) 0x1000 32) = true ∧ (T .s).dies.length = 12 ∧ (T .s).cores.length = 96 := by
  decide +kernel
/-- A route to module 5, a page of it at virtual address 0x20000, and page tables there for what the TLB does not hold. -/
def TR : State :=
  let m5 := remoteBase + 5 * 2 ^ 45
  let s : State := { S2 0x20000 0x30000 with host := { State.reset.host with routes := updAt State.reset.host.routes 5 (fun _ => 0x100) } }
  ((s.updLink 0 (fun l => { l with st := .up, waves := 18 })).updCtx 0 (fun c => { c with root := m5 })).updCore 0 (fun c => { c with
    tlb := { fetchEnt with vpn := 2, leaf := BitVec.ofNat 64 (m5 + 0x33) } :: c.tlb })
/-- A walk through tables of another module waits, and a migration with it. -/
theorem witness_remoteWalk : routeTo TR 5 = some 0 ∧ walkWaits TR 0 0 0x30000 = true ∧ walkWaits TR 0 0 0x20000 = false ∧
    (migSubmit TR 0 0 0x30000).1 = 5 ∧ (migSubmit TR 0 0 0x20000).1 ≠ 5 := by decide +kernel
theorem witness_BankModes : ((S2 0 0).x 1).toNat < (S2 0 0).grp.fifob ∧ bankStand (S2 0 0) 1 .fifo ≠ .waits ∧
    isOk (scrCheck (S2 0x1FFF0 16) 0x1FFF0 16) = true ∧ (S2 0 0).grp.scrb + (S2 0 0).grp.fifob ≤ ((S2 2 0).x 1).toNat := by decide +kernel
theorem witness_TokenInstructions : (T .s).grp.hmode = false ∧ pushRoom (T .s).grp (sPeers 1 1 1) 63 = true ∧
    orphan (T .s).grp ((sPeers 1 1 1).map (fun y => 3 * y + 3)) 1 = none ∧
    popsReady ((T .s).grp.pushToks [3] 1) ((sPeers 1 0 0).map (fun y => 3 * y + 3)) 1 = true ∧ (T .s).grp.ended 2 = false ∧
    (T .s).grp.fmtq.length < 16 ∧ ((T .s).grp.updStream 2 (fun _ => .off)).ended 2 = true ∧ (T .s).grp.toks.length = 12 ∧
    ((T .s).grp.pushToks [3] 63).tok 3 + 1 > 63 := by decide +kernel
theorem witness_StreamEnds : (T .m).grp.mcmd = none ∧ (T .s).grp.hmode = false ∧ (5 : BitVec 16) ≠ 0xFFFF ∧ (T .m).strm = .m ∧ isOk (tokCheck (T .m) 2 0 7) = true ∧
    (T .c).strm = .c ∧ isOk (tokCheck (T .c) 3 0 7) = true ∧ (T .v).strm = .v ∧ isOk (tokCheck (retireDue (T .v)) 1 0 7) = true ∧
    isOk (vGate (retireDue (T .v)) 0 7 [] false false) = true := by decide +kernel
theorem witness_Launches : ((S2 1 0x1000).x 2).toNat % 128 = 0 ∧ isOk (relG (S2 1 0x1000) 3) = true ∧ isOk (devLoad (S2 1 0x1000) 0x1000 128) = true ∧
    2 ^ 15 ≤ ((S2 0x8000 0).x 1).toNat ∧ ((S2 0x7FFF 0).x 1).toNat < 2 ^ 15 ∧ ((S2 0x7FFF 0).queue 0x7FFF).st = .off ∧
    ((SQ 0 15).queue 1).st = .ready ∧ ((SQ 0 15).queue 1).ctx = (SQ 0 15).grp.ctxid ∧ ((SQ 0 15).queue 1).devok = true ∧
    (((SQ 0 16).queue 1).tail + 65536 - ((SQ 0 16).queue 1).head) % 65536 = 2 ^ ((SQ 0 16).queue 1).log2n ∧
    isOk (devWrite (SQ 0 15) 0 (0x4000 + 128 * 15) 128 7 1) = true ∧ isOk (devTr 0 1 .store (SQ 0 15) (0x4000 + 128 * 15)) = true := by decide +kernel
/-- A group of a tentative gang, and a ring in a page of another module. -/
theorem witness_Launches_tentative : let s : State := { TR with gangs := [{ Gang.heard 9 with st := .tentative }] }
    tentative s s.grp.handle = true ∧ tentative TR TR.grp.handle = false ∧
    (match devTr 0 s.grp.handle .store s 0x20000 with | .ok t _ => inRemote t.pa | _ => false) = true := by decide +kernel
theorem witness_Signals : isOk (sigAddr (S2 0x2000 5) 0x2000 .store) = true ∧ isOk (sigAddr (S2 0x2000 5) 0x2000 .load) = true ∧
    isOk (relG (S2 0x2000 5) 3) = true ∧ (homeAtomic (S2 0x2000 5) 0 (fetchPage + 0x2000) 4 (fun _ => 5)).isSome = true ∧
    (S2 0x2000 5).grp.swait = none ∧ fieldOf ((S2 1 5).x 1) 37 32 = (S2 1 5).modid ∧ ((S2 1 5).groupOf 1).isSome = true ∧
    (S2 1 5).groupOf 2 = none ∧ (T .s).grp.tvec ≠ 0 ∧ (T .s).grp.st = .running := by decide +kernel
/-- A group that asks module 5 to interrupt: its request is sent; with the answer kept, status 1 comes back; no route leads to module 6. -/
theorem witness_Signals_remote : let s : State := (TR.setX 1 0x0000000500000001).setX 2 7
    let pa := remoteBase + 5 * 2 ^ 45
    let r : RemoteWait := { stream := 0, pa := pa, len := 1, pop := 14, tag := 0, got := some [1], status := 0 }
    fieldOf (s.x 1) 37 32 = 5 ∧ s.modid = 0 ∧ rwaitOf s.grp 0 14 pa 1 = none ∧ tentative s s.grp.handle = false ∧ (routeTo s 5).isSome = true ∧
    routeTo s 6 = none ∧ rwaitOf { s.grp with rwait := [r] } 0 14 pa 1 = some r ∧
    after (exec (.sigInt 3 1 2) (s.updGrp (fun g => { g with rwait := [r] }))) (fun t => t.x 3 == 1 && t.pc 0 == 4) = true := by decide +kernel
theorem witness_TrapsEnter : (T .s).grp.pendTraps = [] ∧ (T .s).grp.tvec ≠ 0 ∧ (T .s).grp.hmode = false ∧ (T .s).grp.vld = none ∧ (T .s).grp.partner = 0 ∧
    (T .s).grp.ss.levels = [] ∧ (T .s).grp.vs.run ≠ .draining ∧ (T .s).grp.ms.run ≠ .draining ∧ (T .s).grp.cs.run ≠ .draining ∧
    canTrap ((T .s).advance 0) = true ∧ canTrap (T .s) = true ∧
    fieldOf ((T .s).ctx (T .s).grp.ctxid).policy 11 10 = 1 ∧ cALIGN ≠ cMEMUNC ∧ cALIGN ≠ cGANGAB := by decide +kernel
/-- A group that has just taken a trap returns from it to the instruction after. -/
theorem witness_TrapsReturn : after (exec (.trap 0) (T .s)) (fun t => t.grp.hmode && t.grp.nlatch == 0 && !t.grp.pendld && t.grp.partner == 0 && t.grp.ss.kept != .ended && isOk (frameRead 36 t t.grp.tframe.toNat) &&
    after (exec .rett t) (fun u => !u.grp.hmode && u.pc 0 == 4 && u.grp.st == .running)) = true := by decide +kernel
/-- The frame of a group whose links wait to be delivered can be flushed. -/
theorem witness_TrapsReturn_pendld : (frameFlush ((T .s).updGrp (fun g => { g with hmode := true, pendld := true }))).isSome = true := by decide +kernel
/-- Bits 62:56 of the program registers read as zero. -/
theorem test_sysw_prg : let v : W64 := 0x8100000000000005
    sysRead ((T .s).updGrp (fun g => sysWrite g 0x20 v)) 0x20 = 0x8000000000000005 ∧
    sysRead ((T .s).updGrp (fun g => sysWrite g 0x22 v)) 0x22 = 0x8000000000000005 ∧
    after (exec (.sysw 1 0x20) ((S2 v 0).updGrp (fun g => { g with hmode := true }))) (fun t =>
      after (exec (.sysr 3 0x20) t) (fun u => u.x 3 == 0x8000000000000005)) = true := by decide +kernel
theorem witness_SystemRegisters : after (exec (.sysr 3 4) (T .s)) (fun t => t.pc 0 == 4) = true ∧
    after (exec (.sysw 3 0x2B) ((T .s).updGrp (fun g => { g with hmode := true }))) (fun t => t.pc 0 == 4) = true ∧
    (T .s).grp.hsv.length = 4 := by decide +kernel
/-- A liveness descriptor of three zero words, which keeps nothing but what every save keeps. -/
theorem witness_SaveHints : (T .s).grp.preq = false ∧
    isOk (livenessWords 3 ((S2 0 0x1000).updGrp (fun g => { g with preq := true })) 0x1000) = true ∧
    livenessOk (T .s).grp [0, 0, 0] = true := by decide +kernel

-- Barriers and loops -----------------------------------------------------------------------------------------------------

/-- `bar.init` of 3 expects 3 arrivals and waits for 3 (R312). -/
theorem test_barInit_sets : after (exec (.barInit 1 2) (S2 0 3)) (fun t => barPend (barObj t 0 0) == 3 && barExpect (barObj t 0 0) == 3 &&
    barPhases (barObj t 0 0) == 0 && barInit (barObj t 0 0)) = true := by decide +kernel
/-- An object set up for one arrival, and for two. -/
def SB (n : W64) : State := left (match exec (.barInit 1 2) (S2 0 n) with
  | .next t => Acc.ok () t
  | _ => Acc.wait (T .s))
theorem test_barArr_completes : after (exec (.barArr 3 1 0) (SB 1)) (fun t => t.x 3 == 0 && barPhases (barObj t 0 0) == 1 && barPend (barObj t 0 0) == 1) = true := by
  decide +kernel
theorem test_barArr_counts : after (exec (.barArr 3 1 0) (SB 2)) (fun t => barPhases (barObj t 0 0) == 0 && barPend (barObj t 0 0) == 1) = true := by decide +kernel
theorem test_barWait : after (exec (.barWait 3 1 2 0) ((SB 1).setX 2 1)) (fun t => t.x 3 == 0 && t.pc 0 == 8) = true := by decide +kernel
theorem test_barWait_waits : after (exec (.barWait 3 1 2 0) ((SB 1).setX 2 0)) (fun t => t.pc 0 == 4 && t.grp.ss.run == .blocked) = true := by decide +kernel
theorem test_barReg_barArd : after (exec (.barReg 1) (SB 1)) (fun t => barExpect (barObj t 0 0) == 2 &&
    after (exec (.barArd 1 0) t) (fun u => barPhases (barObj u 0 0) == 0 && barDrop (barObj u 0 0) == 1)) = true := by decide +kernel
theorem test_barRange : after (exec (.barArr 3 1 0) (S2 2 0)) (fun t => fieldOf t.grp.tcause 47 40 == 22) = true := by decide +kernel
theorem test_loopBeg : after (exec (.loopBeg 0 3) (T .s)) (fun t => t.grp.ss.levels == [{ lvl := 0, start := 4, stop := 20, idx := 0 }] && t.pc 0 == 4) = true := by
  decide +kernel
theorem test_loopBeg_count_zero : after (exec (.loopBeg 1 3) (T .s)) (fun t => t.grp.ss.levels == [] && t.pc 0 == 20) = true := by decide +kernel
theorem test_loopIdx_closed : after (exec (.loopIdx 3 1) (T .s)) (fun t => t.x 3 == 0xFFFFFFFFFFFFFFFF) = true := by decide +kernel
theorem test_loopIteration : after (exec .loopIterationEnd ((SL 16).setPc 0 16)) (fun t => t.pc 0 == 0 &&
    t.grp.ss.levels == [{ lvl := 0, start := 0, stop := 16, idx := 1 }]) = true := by decide +kernel

theorem witness_PhaseCompletion : barPend (barObj (SB 1) 0 0) ≠ 0 ∧ barExpect (barObj (SB 1) 0 0) ≠ 0 ∧ barPend 0 = 0 ∧ barIn 0 = 0 ∧ barOut 0 = 0 := by
  decide +kernel
theorem witness_BarrierInstructions : isOk (barEnt (S2 0 1) 0) = true ∧ barRegistered (S2 0 1) 0 0 = false ∧ barWaiter (S2 0 1) 0 0 = false ∧
    isOk (barEnt (SB 1) 0) = true ∧ barInit (barObj (SB 1) 0 0) = true ∧ barExpect (barObj (SB 1) 0 0) ≠ 4095 ∧ isOk (relG (SB 1) 3) = true ∧
    (SB 1).grp.bwait = none ∧ waitsAt (SB 1).grp.bwait (barLoc 0 0) = false ∧ (((SB 1).grp.bmap[0]?).any (fun e => (barArrive (SB 1) 0 e e.reg).isSome)) = true ∧ isOk (acqG (barDone (SB 1)) 3) = true ∧ barPub (barObj (SB 1) 0 0) = false ∧ barPublished (SB 1) 0 5 none = none ∧
    barSite (SB 1) ((SB 1).x 1) 0 = none ∧ (SB 1).grp.bmap.length ≤ 2 ∧ ((SB 1).grp.bmap[1]?).any (fun e => e.kind == .unmapped) = true := by decide +kernel
/-- A barrier published under key 5 and named by the group's handle, for `bar.rarr`, and another attached to it. -/
theorem witness_published : after (exec (.barPub 1 2) ((SB 1).setX 2 5)) (fun t =>
    (barPublished t 0 5 (some 0)).isSome && (barSite t 1 5).isSome && after (exec (.barRarr 3 4 2 0) (t.setX 4 1)) (fun u => u.x 3 == 0 &&
      barPhases (barObj u 0 0) == 1)) = true := by decide +kernel
theorem witness_LoopInstructions : (T .s).grp.hmode = false ∧ (0 : BitVec 3).toNat < (T .s).grp.loops.length ∧ ((T .s).grp.loopEnt 0).kind = 0 ∧
    ((T .s).grp.loopEnt 0).count ≠ 0 ∧ ((T .s).grp.loopEnt 1).count = 0 ∧ (openAt (SL 16).grp.ss 0).isSome = true ∧
    ((SL 16).pc 0).toNat + 4 + 4 * 3 ≤ 16 := by decide +kernel
/-- The vector stream at the end of a level whose stride 3 goes to register 4; and with a `vld` of that register undecided. -/
def SLV : State := ((T .v).updGrp (fun g => { g with
  loops := updAt g.loops 0 (fun e => { e with strides := [0, 3, 0, 0], sels := [0, 132, 0, 0] }) })).updStream 1 (fun t => { t with
    levels := [{ lvl := 0, start := 0, stop := 16, idx := 0 }], pc := 16 })
def SLH : State := SLV.updGrp (fun g => { g with vld := some { pc := 12, word := 0, num := 4, addr := 0x1000, mask := 1, push := 0 } })
theorem witness_vectorIteration : updateHeld (retireDue SLV).grp = false ∧ (retireDue SLV).grp.flight.length < 8 ∧ SLV.strm = .v ∧ Placed SLV ∧
    after (exec .loopIterationEnd SLV) (fun t => t.pc 1 == 0 && t.grp.vcyc == SLV.grp.vcyc + 1 &&
      t.grp.flight.map (fun f => (f.num, f.vals.getD 127 0)) == [(4, 3)]) = true ∧
    updateHeld (retireDue SLH).grp = true ∧ after (exec .loopIterationEnd SLH) (fun t => t.pc 1 == 16 && t.grp.flight == []) = true := by
  unfold Placed; decide +kernel
/-- The last iteration of a scalar level takes its strides back: 2 iterations of stride 8. -/
theorem test_stride_taken_back : after (exec .loopIterationEnd ((((S2 108 0).updGrp (fun g => { g with
    loops := updAt g.loops 0 (fun e => { e with strides := [8, 0, 0, 0], sels := [129, 0, 0, 0] }) })).updStream 0 (fun t => { t with
      levels := [{ lvl := 0, start := 0, stop := 16, idx := 1 }], pc := 16 })))) (fun t => t.x 1 == 100 && t.pc 0 == 16) = true := by decide +kernel
theorem witness_LoopIterations : (T .s).strm ≠ .v ∧ ((SL 16).setPc 0 16).grp.ss.levels = [{ lvl := 0, start := 0, stop := 16, idx := 0 }] ∧
    ((SL 16).pc 0).toNat ≠ 16 ∧ (((SL 16).setPc 0 16).pc 0).toNat = 16 ∧ 0 + 1 < ((SL 16).grp.loopEnt 0).count ∧
    ((SL 16).grp.loopEnt 0).count ≤ 1 + 1 := by decide +kernel

-- Vector -----------------------------------------------------------------------------------------------------------------

/-- The vector stream, every lane of registers 1 to 3 set. -/
def V3 (x y z : W32) : State := (T .v).updGrp (fun g =>
  { g with vregs := [1, 2, 3].zip [x, y, z] |>.foldl (fun l p => updAt l p.1 (fun _ => List.replicate 128 p.2)) g.vregs })
/-- The value that the last result in flight holds for lane `i`. -/
def resAt (t : State) (i : Nat) : W32 := match t.grp.flight.getLast? with
  | some f => f.vals.getD i 0
  | none => 0

theorem test_vadd_rounds : after (exec (.vadd 0 0 4 1 2 0 0) (V3 0x3F800000 0x33800001 0)) (fun t => resAt t 127 == 0x3F800001) = true := by decide +kernel
theorem test_vfma_once : after (exec (.vfma 0 0 3 1 2 0 0) (V3 0x3F800001 0x3F800001 0xBF800002)) (fun t => resAt t 0 == 0x28800000) = true := by decide +kernel
theorem test_vmin_nan : after (exec (.vmin 0 0 4 1 2 0 0) (V3 0x7F800001 0x3F800000 0)) (fun t => resAt t 5 == nan32) = true := by decide +kernel
theorem test_vadd_type3 : after (exec (.vadd 0 0 4 1 2 0 3) (V3 0 0 0)) (fun t => fieldOf t.grp.tcause 47 40 == 1) = true := by decide +kernel
theorem test_vaddInteger_saturates : after (exec (.vaddInteger 0 0 4 1 2 0 0) (V3 0x7FFFFFFF 1 0)) (fun t => resAt t 0 == 0x7FFFFFFF) = true := by decide +kernel
theorem test_vsubInteger_wraps : after (exec (.vsubInteger 0 0 4 1 2 0 3) (V3 0x00010000 0x00020001 0)) (fun t => resAt t 0 == 0xFFFFFFFF) = true := by
  decide +kernel
theorem test_vsra : after (exec (.vsra 0 0 4 1 2 0) (V3 0x80000000 33 0)) (fun t => resAt t 0 == 0xC0000000) = true := by decide +kernel
theorem test_vli : after (exec (.vli 0 0 4 0x7FFF) (V3 0 0 0)) (fun t => resAt t 127 == 0xFFFFFFFF) = true := by decide +kernel
theorem test_vzip : after (exec (.vzip 0 0 4 1 2 0) (V3 5 6 0)) (fun t => resAt t 0 == 5 && resAt t 1 == 6) = true := by decide +kernel
theorem test_vcmp_mask : after (exec (.vcmp 0 0 1 1 2 0 0 0) (V3 5 5 0)) (fun t => t.grp.flight.length == 1 && t.pc 1 == 4) = true := by decide +kernel
theorem test_kpush_stack : after (exec (.kpush 0 0 1 0) (V3 0 0 0)) (fun t => t.grp.mstack.length == 1) = true := by decide +kernel
theorem test_kpop_empty : after (exec (.kpop 0 0 1) (V3 0 0 0)) (fun t => fieldOf t.grp.tcause 47 40 == 14) = true := by decide +kernel
theorem test_vbrAll_k0 : after (exec (.vbrAll 0 0 0 4) (V3 0 0 0)) (fun t => t.pc 1 == 16) = true := by decide +kernel
theorem test_vcvt_f32_s32 : after (exec (.vexp2 0 0 4 1 0) (V3 0x40400000 0 0)) (fun t => resAt t 0 == 0x41000000) = true := by decide +kernel
theorem test_vradd_tree : after (exec (.vradd 0 0 4 1 0 0) (V3 0x3F800000 0 0)) (fun t => resAt t 0 == 0x43000000) = true := by decide +kernel
theorem test_vld_waits_for_its_checks : after (exec (.vld 0 0 4 2 0 0) (V3 0 0 0x1000)) (fun t => t.pc 1 == 4 && t.grp.vld.isSome) = true := by decide +kernel
theorem test_vst_odd_pair : after (exec (.vst 0 0 4 3 0 0) (V3 0 0 0)) (fun t => fieldOf t.grp.tcause 47 40 == 1) = true := by decide +kernel
theorem test_vaccWcol_unallocated : after (exec (.vaccWcol 0 0 4 1 0) (V3 0 0 0)) (fun t => fieldOf t.grp.tcause 47 40 == 12) = true := by decide +kernel

def vOk (names : List Nat) (mem mk : Bool) : Bool := isOk (vGate (retireDue (V3 1 2 3)) 0 7 names mem mk)
theorem witness_VectorFloats : vOk [4, 1, 2] false true = true ∧ (0 : BitVec 2) ≠ 3 := by decide +kernel
theorem witness_VectorIntegers : vOk [4, 1] false true = true ∧ 0xFFFF < 2 ^ 16 ∧ 0x8000 < 2 ^ 16 := by decide +kernel
theorem witness_VectorMoves : vOk [4] false true = true := by decide +kernel
theorem witness_VectorMasks : vOk [] false true = true ∧ (retireDue (V3 1 2 3)).grp.mstack = [] ∧
    (isOk (vGate ((retireDue (V3 1 2 3)).updGrp (fun g => { g with mstack := [0] })) 0 7 [] false true)) = true ∧
    (List.replicate 16 (0 : BitVec 128)).length = 16 := by decide +kernel
theorem witness_VectorBranches : vOk [] false false = true := by decide +kernel
theorem witness_VectorFunctions : rmaxiLane 0 (BitVec.allOnes 128) ((V3 1 2 3).grp.v 1) = some 0 ∧ isNan 0x7FC00000 = true ∧
    (retireDue (V3 1 2 3)).grp.k 1 = 0 ∧ vOk [4, 1] false true = true ∧ (0 : BitVec 7).toNat ≤ 12 ∧ 16 ≤ (31 : BitVec 7).toNat := by decide +kernel
/-- A result that is due in the cycle after its issue, and one that is not. -/
theorem witness_ResultsLand : after (exec (.vaddi 0 0 4 1 0 1) (V3 1 2 3)) (fun t => (t.focus 1).focused 1 &&
    (t.focus 1).grp.st == .running && t.grp.flight.all (fun f => !f.isMask && f.due ≤ t.grp.vcyc) && t.grp.flight.length == 1 &&
    after (exec (.vectorResultWrite 1) t) (fun u => u.grp.lane 4 127 == 2 && u.grp.flight.isEmpty)) = true ∧
    after (exec (.vadd 0 0 4 1 2 0 0) (V3 0 0 0)) (fun t => t.grp.flight.all (fun f => t.grp.vcyc < f.due)) = true := by decide +kernel
/-- Registers 2 and 3 hold the address 0x1000 in lane 0. -/
def VA : State := V3 0 0x1000 0
theorem witness_VectorLoadsAndStores : isOk (vGate (retireDue VA) 0 7 [4, 2, 3] true false) = true ∧
    isOk (storeLanesCheck (retireDue VA) 0x1000 3) = true ∧ isOk (storeLanes (retireDue VA) 0x1000 3 [7, 8]) = true ∧
    after (exec (.vld 0 0 4 2 0 0) VA) (fun t => after (exec (.vldChecksDecided 1) t) (fun u => u.grp.vld.isNone && u.grp.lane 4 0 == 0)) = true ∧
    held VA VA.grp = false ∧ coreMoving VA VA.grp = false ∧
    after (exec (.vld 0 0 4 2 0 0) (V3 0 0x20000 0)) (fun t => codeOf (readLanes (t.focus 1) 0x20000 1) == cPAGE && !t.grp.saving && !t.grp.pairHold &&
      after (exec (.vldChecksDecided 1) t) (fun u => u.grp.hmode && u.grp.vld.isNone)) = true ∧
    pushRoom (retireDue VA).grp (pushSet 1 7) 1 = true := by decide +kernel
theorem witness_VectorMultiStep : prgValid (retireDue VA).grp.prgv = false ∧
    after (exec (.vgather 0 0 4 2 0 0) VA) (fun t => t.grp.vcmd.isSome && goesOn (t.focus 1) 1 &&
      after (exec (.vectorElement 1) t) (fun u => u.grp.vcmd.any (fun c => c.elem == 1))) = true ∧ isOk (vaRead VA 1 0x1000 4) = true ∧
    isOk (scrRead VA 0x1000 4 4) = true := by decide +kernel
theorem witness_VectorLocalMemory : isOk (scrRead VA 0 2048 16) = true ∧ isOk (feCheck (retireDue VA) 0 15) = true ∧
    (∀ j ∈ feGranules 15, j ∉ (retireDue VA).grp.full) ∧ isOk (scrGet (retireDue VA) 0 512) = true ∧ (retireDue VA).grp.k 1 = 0 := by decide +kernel
/-- A FIFO takes 32 granules and gives them back. -/
theorem witness_vectorFifo : let s := V3 5 0x80000000 0
    isOk (feCheck (retireDue s) (2 ^ 31) (BitVec.allOnes 128)) = true ∧ ((retireDue s).grp.fifo 0).count ≤ 8160 ∧
    after (exec (.vstfe 0 0 1 2 0 0) s) (fun t => (t.grp.fifo 0).count == 32 && !(t.grp.fifo 0).badTop 32 && (t.grp.fifo 0).head < 16384 &&
      after (exec (.vldfe 0 0 4 2 0 0) t) (fun u => u.grp.lane 4 127 == 5 && (u.grp.fifo 0).count == 0)) = true := by decide +kernel
theorem witness_AccumulatorDrains : (retireDue VA).grp.amapAt 0 = none ∧ isOk (vGate (retireDue VA) 0 7 [4, 1] false false) = true ∧
    (VA.core 0).badAcc = [] ∧ (15 : BitVec 4).getLsbD (127 / 32) = true := by decide +kernel
/-- Column 0 of an allocated bank, read and cleared in lanes 0 and 1. -/
def VB : State := cellSet (cellSet (VA.updGrp (fun g => { g with
    amap := updAt g.amap 0 (fun _ => some { phys := 0, owned := true, band := 15, keys := [] }), kregs := updAt g.kregs 2 (fun _ => 3) })) 0 (cellOf 0 0 0) 7) 0 (cellOf 0 1 0) 9
theorem witness_drains : (retireDue VB).grp.k 2 = 3 ∧ ((retireDue VB).grp.amapAt 0).any (fun e => e.band == 15) = true ∧ 0 < VB.cores.length ∧
    after (exec (.vaccColz 0 0 4 1 2) (VB.updGrp (fun g => g.setV 1 (BitVec.allOnes 128) 0 (List.replicate 128 0)))) (fun t => t.grp.lane 4 0 == 7 && t.grp.lane 4 1 == 9 && t.grp.lane 4 2 == 0 &&
      cellGet t 0 (cellOf 0 0 0) == 0 && cellGet t 0 (cellOf 0 1 0) == 0) = true := by decide +kernel
/-- A row of 16 elements at 0x100, its data at 0x200, its bitmap at 0x300 and its header at 0x400. -/
def VQ : State := (T .v).updGrp (fun g => { g with
  vregs := updAt g.vregs 5 (fun _ => [0x100, 32, 0x200, 0x300, 0x400] ++ List.replicate 123 0) })
theorem witness_VectorQuantisation : isOk (qCheck VQ (qDesc (VQ.grp.v 5))) = true ∧
    after (exec (.vquant 0 0 4 5 0 0 0) VQ) (fun t => t.grp.vcmd.any (fun c => c.kind == .quant && 0 + 1 < (qDesc c.vals).count / 16) &&
      goesOn (t.focus 1) 1 && after (exec (.vquantGroup 1) t) (fun u =>
        u.grp.vcmd.any (fun c => c.elem == 1 && (qDesc c.vals).count / 16 ≤ c.elem + 1 && (scrBad (u.focus 1) (0x100 + 64) 64).isNone) && goesOn (u.focus 1) 1 &&
        after (exec (.vquantGroup 1) u) (fun w => w.grp.vcmd.isNone && w.pc 1 == 4)) &&
      (scrBad ((t.updGrp (fun g => { g with badScr := [0x10] })).focus 1) 0x100 64).isSome) = true := by decide +kernel
def VF : State :=
  let f : Flight := { isMask := false, num := 4, vals := List.replicate 128 7, kval := 0, lanes := 3, part := 0, due := 0, push := 1 }
  (T .v).updGrp (fun g => { (g.updResv (pushSet 1 1) (fun r => r + 1)) with flight := [f, { f with due := 9 },
    { f with vals := List.replicate 128 8, lanes := 6, push := 0 }, { f with isMask := true, num := 2, kval := 5, lanes := BitVec.allOnes 128, push := 0 }] })
theorem witness_ResultsLand_several : (VF.focus 1).focused 1 = true ∧ VF.grp.vregs.length = 32 ∧ VF.grp.kregs.length = 8 ∧ VF.grp.st = .running ∧
    after (exec (.vectorResultWrite 1) VF) (fun t => t.grp.flight.length == 1 && t.grp.lane 4 0 == 7 && t.grp.lane 4 1 == 8 && t.grp.lane 4 2 == 8 &&
      t.grp.lane 4 3 == 0 && t.grp.k 2 == 5 && (pushSet 1 1).all (fun i => t.grp.tok i == 1)) = true ∧
    after (exec (.vectorResultWrite 1) (VF.updGrp (fun g => { g with flight := g.flight.drop 3 }))) (fun t => t.grp.k 2 == 5 && t.grp.flight.isEmpty) = true := by
  decide +kernel
/-- A store that waits for a page of another module keeps what it read at its issue, and goes on with it. -/
theorem witness_vstHeld : isOk (storeLanesCheck (retireDue VA) 0x1000 3) = true ∧ (retireDue VA).grp.vsrc = none ∧
    (let s := VA.updGrp (fun g => { g with vsrc := some { addr := 0x1000, zero := 0, mask := 3, vals := [7, 8] } })
     (retireDue s).grp.vsrc.isSome && isOk (storeLanes (left (storeLanesCheck (retireDue s) 0x1000 3)) 0x1000 3 [7, 8]) &&
     after (exec (.vst 0 0 4 2 0 0) s) (fun t => t.grp.vsrc.isNone && t.pc 1 == 4)) = true := by decide +kernel
theorem witness_vstWaits : let s := { V3 0 0x40000 0 with host := TR.host, links := TR.links, ctxs := TR.ctxs }
    isWait (storeLanesCheck (retireDue s) 0x40000 1) = true ∧ isOk (vGate (retireDue s) 0 7 [4, 2, 3] true false) = true ∧
    after (exec (.vst 0 0 4 2 0 0) s) (fun t => t.grp.vsrc.any (fun x => x.addr == 0x40000) && t.pc 1 == 0) = true := by decide +kernel
theorem witness_rmaxiLane : rmaxiLane 0 6 [0x40000000, 0x7FC00000, 0x7FC00000] = some 1 ∧ rmaxiLane 0 7 [0x80000000, 0, 0] = some 1 ∧
    rmaxiLane 1 7 [0, 5, 5] = some 1 := by decide +kernel

-- The step ---------------------------------------------------------------------------------------------------------------

/-- The host's question on one word of each stream: the step after reset fetches it and runs it. -/
theorem test_fetch_add : after (step (State.reset.withFetchWord 32 0x02321400)) (fun t => t.pc 0 == 4 && t.grp.st == .running) = true := by decide +kernel
theorem test_fetch_vandi : after (step (State.reset.withFetchWord 32 0x54000000)) (fun t => t.strm == .v && t.pc 1 == 4) = true := by decide +kernel
theorem test_fetch_undecodable : after (step (State.reset.withFetchWord 32 0)) (fun t => t.grp.status == .aborted) = true := by decide +kernel
theorem witness_StepRunsTheIssuedInstruction : decodeAny 0x02321400 = some (.s, .add 3 4 5) ∧ 0x02321400 < 2 ^ 32 ∧
    (match (State.reset.withFetchWord 32 0x02321400).agenda with | [.issue 1 .s] => true | _ => false) = true ∧
    (let u := ({ State.reset.withFetchWord 32 0x02321400 with agenda := [] } : State).focus 1
     (!u.safe && u.focused 1 && mayIssue u u.grp 0 && (u.core u.grp.core).slots.getD 0 0 != u.cycle + 1 && !atLoopEnd u.grp 0 &&
       (match verdicts u 0 .s with | .ok [] s0 => isOk (nextWord s0 0) | _ => false)) = true) := by decide +kernel
/-- The first act of the agenda in safe mode: an event that safe mode allows, one that it does not, an access and a mask bit. -/
theorem witness_agenda : let s (a : Act) : State := { RUN with safe := true, agenda := [a] }
    Event.inSafe .powerLimitThrottle = true ∧ Event.inSafe (.functionReady 0) = false ∧
    after (step (s (.event .powerLimitThrottle))) (fun t => t.clockMHz == 1900) = true ∧
    after (step (s (.event (.functionReady 0)))) (fun t => t.agenda.length == 0 && t.clockMHz == 2000) = true ∧
    after (step (s (.access 0 8 none))) (fun t => t.replies.length == 1) = true ∧
    after (step { RUN with agenda := [.msiEntry 1 5 true] }) (fun t => t.msiMask.getD 1 [] == [5]) = true ∧
    unissued (T .s) 0 (T .s) = false ∧ ((T .s).core 0).slots.getD 0 0 ≠ (T .s).cycle + 1 ∧ (T .v).grp.vreplay = none ∧ (T .m).grp.mreq = none ∧
    (T .m).grp.mcmd = none := by
  decide +kernel
theorem witness_StepKeepsMemoryCanonical : Canonical (T .s) ∧ after (step (T .s)) (fun t => Memory.wf t.mem) = true := by unfold Canonical; decide +kernel

-- Matrix -----------------------------------------------------------------------------------------------------------------

/-- A group that has joined a local session, with activations at offset 0 of its first scratch bank, weights in its second and an
accumulator bank. -/
def TM : State :=
  let s := (T .m).updGrp (fun g => { g with
    scrb := 2, lmap := [0, 2, 1], dregs := updAt g.dregs 1 (fun _ => 0x20000),
    amap := updAt g.amap 0 (fun _ => some { phys := 0, owned := true, band := 15, keys := [] }),
    memb := some { str := 0, role := 2, key := 0, div := 0, state := 2, parked := false }, fmtq := [0x2200000440000000] })
  s.updCore 0 (fun c => { c with banks := updAt c.banks 2 (fun b => { b with mode := .scratch, target := .scratch, owner := 1 }) })

theorem test_mdset_rows : after (exec (.mdset 0 0 2 3 0xFFF) (T .m)) (fun t => t.grp.d 2 == 0xFFF00000000000000000 && t.pc 2 == 4) = true := by decide +kernel
theorem test_mdadd : after (exec (.mdadd 0 0 3 1 0xFFF) TM) (fun t => t.grp.d 3 == 0x1FFF0) = true := by decide +kernel
theorem test_mdset_reserved : after (exec (.mdset 0 0 2 8 0) (T .m)) (fun t => fieldOf t.grp.tcause 47 40 == 1) = true := by decide +kernel
theorem test_mocfg_stages : after (exec (.mocfg 0 0 8 3 0x123) (T .m)) (fun t => t.grp.staged.getD 8 none == some 0x123 && t.grp.ocs.getD 8 9 == 0) = true := by
  decide +kernel
theorem test_maccAlloc : after (exec (.maccAlloc 0 0 5) (T .m)) (fun t => (t.grp.amapAt 5).any (fun e => e.owned && e.band == 15)) = true := by decide +kernel
theorem test_maccAttach_waits : after (exec (.maccAttach 0 0 1 9 5) (T .m)) (fun t => t.pc 2 == 0 && t.grp.ms.run == .blocked) = true := by decide +kernel
theorem test_mleave : after (exec (.mleave 0 0) TM) (fun t => t.grp.memb.isNone && t.pc 2 == 4) = true := by decide +kernel
theorem test_mjoin_local : after (exec (.mjoin 0 0 0 2 0 0) (T .m)) (fun t => t.grp.memb.any (fun m => m.role == 2) && t.pc 2 == 4) = true := by decide +kernel
theorem test_mjoin_member : after (exec (.mjoin 0 0 0 2 0 0) TM) (fun t => fieldOf t.grp.tcause 47 40 == 15) = true := by decide +kernel
theorem test_mjoin_talk : after (exec (.mjoin 0 0 3 0 7 0) (T .m)) (fun t => (t.str 3).sess == .opened && (t.str 3).key == 7) = true := by decide +kernel
/-- A local command of one row starts, and its element is accepted. -/
theorem test_mtile_local : after (exec (.mtile 0 0 0 0 0 1 2) TM) (fun t => t.grp.mcmd.isSome && t.grp.fmtq == [] &&
    after (exec (.frameStart 1 0 []) t) (fun t => t.grp.mcmd.any (fun x => x.inFrame) &&
      after (exec (.tileElement 1 (0, 0) [] []) t) (fun u => !(u.grp.mcmd == t.grp.mcmd)))) = true := by decide +kernel
theorem test_mtile_no_format : after (exec (.mtile 0 0 0 0 0 1 2) (TM.updGrp (fun g => { g with fmtq := [] }))) (fun t => fieldOf t.grp.tcause 47 40 == 8) = true := by
  decide +kernel

def req0 : MReq := { word := 0, op := 1, nf := 0, mf := 0, a := 0, b := 1, c := 2, pops := 0, push := 0 }
theorem witness_MatrixInstructions : tileBusy (T .m) = false ∧ isOk (tokCheck (T .m) 2 0 7) = true ∧ isOk (scrRead (T .m) 0x1FFF0 16 16) = true ∧
    isOk (scrWrite (T .m) 0 128 16 5) = true ∧ (T .m).grp.memb = none ∧ (T .m).grp.amapAt 5 = none ∧ freeAcc (T .m) 0 ≠ [] ∧
    ((T .m).grp.amap.filter (fun e => e.any (fun x => x.owned))).length < (T .m).grp.accb ∧ (TM.grp.amapAt 0).isSome = true ∧
    accPublished TM 0 9 none = none ∧
    after (exec (.maccShare 0 0 9 0) TM) (fun t => (accPublished t 0 9 (some 0)).isSome &&
      after (exec (.maccAttach 0 0 1 9 5) t) (fun u => (u.grp.amapAt 5).any (fun e => !e.owned && e.phys == 0))) = true := by decide +kernel
theorem witness_TileCommands :
    (let u := TM.updGrp (fun g => { g with mreq := some req0 })
     (!prgMatch u.grp.prgm (u.pc 2) && isOk (tokCheck u 2 0 0) && isOk (tileChecks u req0 0x2200000440000000) && !windowBad u 0x2200000440000000) = true) ∧
    ((TM.focus 1).focused 1 = true ∧ (TM.focus 1).grp.st = .running ∧ goesOn (TM.focus 1) 2 = true ∧ tileBusy (TM.focus 1) = false) := by
  decide +kernel
/-- A local command that has started, its frame, and its element: accepted with its window's lanes at work, run again with the laser gone; and the
frame with a channel more in the dark than the string has spares, whose window does not fit. -/
theorem witness_tileLocal : after (exec (.mtile 0 0 0 0 0 1 2) TM) (fun t => t.grp.memb.any (fun m => m.role == 2) && (t.focus 1).focused 1 &&
    !holds t t.grp && !notReady t (144 + t.grp.strNo) && t.grp.mcmd.any (fun c => !c.inFrame && !windowBad (preambleMoves t t.grp.strNo 0) c.fw &&
      windowBad (preambleMoves t t.grp.strNo (BitVec.allOnes 68)) c.fw) &&
    after (exec (.frameStart 1 (BitVec.allOnes 68) []) t) (fun u => fieldOf u.grp.tcause 47 40 == 17) &&
    after (exec (.frameStart 1 0 []) t) (fun t => t.grp.mcmd.any (fun x => x.inFrame) && t.grp.role == 2 && !(t.str t.grp.strNo).failing && !holds t t.grp &&
      t.others.isEmpty && (onGroup t 1 beginTile).grp.mcmd.any (fun x => (elementFault (onGroup t 1 beginTile) x).isNone &&
        (List.range (fwL x.fw)).all (fun l => (t.str t.grp.strNo).works l)))) = true := by decide +kernel
/-- A talker alone in its session of string 3, whose frame can start; and a listener that waits for one. -/
def TK : State := (TM.updGrp (fun g => { g with
    memb := some { str := 3, role := 3, key := 7, div := 0, state := 2, parked := false }, fmtq := [0x22000005E0000000] })).updStr 3
  (fun t => { t with sess := .opened, key := 7, ctx := 0, talker := 0 })
theorem witness_frameStart : after (exec (.mtileT 0 0 0 0 0 1 2) TK) (fun t => t.grp.mcmd.any (fun x => !x.inFrame) && frameDue t 3 && t.grp.onStr 3 &&
    !(t.str 3).isIn && after (exec (.frameStart 1 0 []) t) (fun u => u.grp.mcmd.any (fun x => x.inFrame) && (u.str 3).sess == .frame)) = true := by decide +kernel
/-- Beside the talker a listener in another slot of its core, with banks and an accumulator bank of its own. -/
def TKL : State := ({ TK with others := [{ TK.grp with
    handle := 2, slot := 1, lmap := [3, 4, 1], fmtq := [0x22000005A0000000],
    amap := updAt TK.grp.amap 0 (fun _ => some { phys := 1, owned := true, band := 15, keys := [] }),
    memb := some { str := 3, role := 1, key := 7, div := 0, state := 2, parked := false } }] } : State).updCore 0 (fun c => { c with
      banks := updAt (updAt c.banks 3 (fun b => { b with mode := .scratch, target := .scratch, owner := 2 })) 4
        (fun b => { b with mode := .scratch, target := .scratch, owner := 2 }) })
/-- Both start their commands, the frame starts in both, and the first element is accepted in both. -/
theorem witness_tileMembers : after (exec (.mtileT 0 0 0 0 0 1 2) TKL) (fun t => after (exec (.mtile 0 0 0 0 0 1 2) (t.focus 2)) (fun t =>
    frameDue t 3 && after (exec (.frameStart 1 0 []) t) (fun u =>
      let u := u.focus 1
      let hs := ((membersOf u 3).filter (fun g => g.mcmd.any (fun c => c.inFrame))).map (fun g => g.handle)
      let v := hs.foldl (fun s h => onGroup s h beginTile) u
      hs == [1, 2] && u.focused 1 && !(u.str 3).failing && u.grp.strNo == 3 && u.grp.role == 3 && (membersOf u 3).all (fun g => !holds u g) &&
      u.grp.mcmd.any (fun x => x.inFrame && (List.range (fwL x.fw)).all (fun l => (u.str 3).works l)) &&
      v.groups.all (fun g => g.mcmd.all (fun c => (elementFault (v.focus g.handle) c).isNone)) &&
      after (exec (.tileElement 1 (0, 0) [] []) u) (fun t => (membersOf t 3).all (fun g => g.mcmd.any (fun c => c.elem == 1)))))) = true := by
  decide +kernel
/-- A listener on a string that another module feeds. -/
theorem witness_showPreamble : ((TKL.focus 2).updStr 3 (fun t => { t with mode := 2 })).grp.memb.any (fun m => m.role == 1 && m.str == 3) = true ∧
    ((TKL.focus 2).updStr 3 (fun t => { t with mode := 2 })).focused 2 = true ∧ ((TKL.focus 2).updStr 3 (fun t => { t with mode := 2 })).grp.onStr 3 = true ∧
    (((TKL.focus 2).updStr 3 (fun t => { t with mode := 2 })).str 3).isIn = true ∧ (List.replicate 13 (0 : BitVec 64)).length = 13 := by decide +kernel
/-- A string that the module itself calibrates, with a core of its module. -/
def CAL : State := (T .m).updStr 3 (fun t => { t with cal := some { handle := 0, kind := 1, role := 0, key := 5, div := 0, pops := 0, push := 0 } })
/-- Delays of receivers (0 to 63) and of modulators (64 to 127), then drive levels: a trim each. -/
theorem witness_calibration : (CAL.str 3).cal.any (fun x => x.role == 0 && x.handle == 0 && x.key < CAL.cores.length) = true ∧
    after (exec (.calibrationDone 3 (0, List.replicate 64 16 ++ List.replicate 64 32 ++ List.replicate 64 9)) CAL) (fun t =>
      (t.core 5).trims.lookup 193 == some (trimOf 16) && (t.core 5).modTrims.lookup 193 == some (trimOf 32) && (t.core 5).drives.lookup 193 == some 9 &&
      (t.str 3).cal.isNone) = true := by decide +kernel
/-- A member's mark is set by fields 0 and taken back by fields 1; a sender other than the feeding module is not heard. -/
theorem witness_flits : let s := (T .m).updStr 3 (fun t => { t with key := 7, ctx := 2, members := [{ id := 0x105, handle := 0, role := 1, ready := false }] })
    (s.str 3).isIn = false ∧ after (exec (.sessionControlFlit 3 0 0x105 7 2 0) s) (fun t => (t.str 3).members.all (fun m => m.ready) &&
      after (exec (.sessionControlFlit 3 0 0x105 7 2 1) t) (fun u => (u.str 3).members.all (fun m => !m.ready))) = true := by decide +kernel
theorem witness_flit_foreign : ∃ m : BitVec 14, m.toNat / 256 ≠ feederOf 0 6 := by
  by_cases h : feederOf 0 6 = 0
  · exact ⟨256, by rw [h]; decide⟩
  · exact ⟨0, fun e => h e.symm⟩
/-- A listener of a string that another module feeds, past its limit, with no talker heard of. -/
theorem witness_timeout_fed : after (exec (.mtile 0 0 0 0 0 1 2) (TKL.focus 2)) (fun t =>
    let u := ({ t with cycle := t.cycle + 1024 * 2 ^ 20 } : State).updStr 3 (fun x => { x with mode := 2 })
    u.focused 2 && frameLate u u.grp && (u.str 3).isIn) = true := by decide +kernel
theorem witness_SessionEvents : isOk (tokCheck (T .m) 2 0 7) = true ∧ (T .m).grp.memb = none ∧ (T .m).grp.talk = true ∧ TM.grp.memb.isSome = true ∧
    ((T .m).str 3).isIn = false ∧ ((T .m).str 3).comb ≠ .dark ∧ ((T .m).str 3).waiting = [] ∧
    grantable (T .m) 3 { handle := 1, kind := 0, role := 0, key := 7, div := 0, pops := 0, push := 0 } = true ∧
    after (exec (.mcal 0 0 3 1) (T .m)) (fun t => (t.str 3).cal.any (fun x => x.role == 1 && x.handle == 1) &&
      after (exec (.calibrationDone 3 (0, [])) t) (fun u => (u.str 3).cal.isNone && u.pc 2 == 4)) = true ∧
    after (exec (.mtileT 0 0 0 0 0 1 2) TK) (fun t =>
      let u := { t with cycle := t.cycle + 1024 * 2 ^ 20, strs := updAt t.strs 3 (fun x => { x with members := [{ id := 0x205, handle := 0, role := 1, ready := false }] }) }
      frameLate u u.grp && !frameDue u u.grp.strNo) = true := by decide +kernel
/-- A tile command whose last element runs again. -/
def TL (t : State) : State := t.updGrp (fun g => { g with mcmd := g.mcmd.map (fun c => { c with inFrame := true, begun := true, attempt := 1, elem := c.count - 1 }) })
/-- Behind it a descriptor is set, `msync` issues and pushes when it has ended, and a join waits. -/
theorem witness_lastElement : after (exec (.mtile 0 0 0 0 0 1 2) TM) (fun t => tileBars t && tileBusy (TL t) && !tileBars (TL t) && isOk (tokCheck (TL t) 2 0 7) &&
    after (exec (.mdset 0 0 2 3 5) (TL t)) (fun u => u.pc 2 == t.pc 2 + 4) && after (exec (.mjoin 0 0 0 2 0 0) (TL t)) (fun u => u.pc 2 == t.pc 2) &&
    after (exec (.msync 0 1) (TL t)) (fun u => u.grp.msync.isSome && u.pc 2 == t.pc 2 &&
      after (exec (.msync 0 1) (u.updGrp (fun g => { g with mcmd := none }))) (fun w => w.grp.msync.isNone && w.pc 2 == t.pc 2 + 4))) = true := by
  decide +kernel
theorem witness_matrixFaults : codeOf (scrRead (T .m) 0x20000 16 16) = cACCESS ∧ codeOf (scrWrite (T .m) 0x20000 16 16 5) = cACCESS ∧
    ((1 : BitVec 4) &&& ~~~(14 : BitVec 4)).getLsbD 0 = true ∧ accPublished (T .m) (T .m).grp.core 9 (some (T .m).grp.ctxid) = none ∧
    after (exec (.maccShare 0 0 9 0) TM) (fun t => (accPublished t 0 9 none).isSome && after (exec (.maccAttach 0 0 1 9 5) t) (fun u =>
      (u.grp.amapAt 5).any (fun e => !e.owned && (14 : BitVec 4) &&& ~~~e.band != 0))) = true := by decide +kernel
/-- The frame of a string that is NOT_READY waits; an element whose activations cannot be read, and one whose accumulator bank is gone. -/
theorem witness_tileFaults : TK.grp.memb.any (fun m => m.role != 2 && strDown { TK with ready := [] } m.str) = true ∧
    after (exec (.mtile 0 0 0 0 0 1 2) TM) (fun t => after (exec (.frameStart 1 0 []) t) (fun t =>
      let v := onGroup t 1 beginTile
      let y := v.updGrp (fun g => { g with mcmd := g.mcmd.map (fun c => stageWindow g c true true), amap := List.replicate 16 none })
      t.grp.role == 2 && v.grp.mcmd.any (fun x => (elementFault v x).isNone &&
        (elementFault (v.updGrp (fun g => { g with badScr := List.range 8192 })) x).isSome && (accFault y (stageWindow v.grp x true true)).isSome))) = true := by decide +kernel
/-- A join that finds its string free, one that finds it taken, and one of a string that is being calibrated for the group itself. -/
theorem witness_joins :
    let w : SWait := { handle := 1, kind := 0, role := 0, key := 7, div := 0, pops := 0, push := 0 }
    let held := (T .m).updStr 3 (fun t => { t with sess := .opened })
    let cal := (T .m).updStr 3 (fun t => { t with cal := some { w with kind := 1 } })
    tileBusy (T .m) = false ∧ 3 < (T .m).strs.length ∧ turnOf (arrive (T .m) 3 w) 3 w = true ∧ turnOf (arrive (T .m) 3 { w with kind := 1 }) 3 { w with kind := 1 } = true ∧
    ((arrive held 3 w).str 3).waiting.find? (fun x => x.handle == 1) = some w ∧ turnOf (arrive held 3 w) 3 w = false ∧
    ((arrive cal 3 w).str 3).waiting.find? (fun x => x.handle == 1) = none := by decide +kernel
/-- The trim that an `mcal` waits for, and the full kind. -/
theorem witness_mcal (r : BitVec 2) (h : r = 0 ∨ r = 2) : after (exec (.mcal 0 1 3 r) (T .m)) (fun t => (t.str 3).cal.any (fun x => x.handle == 1 && x.role == r.toNat) &&
    after (exec (.calibrationDone 3 (0, List.replicate 192 16)) t) (fun u => (u.core 0).trims.lookup 193 == some (trimOf 16) && u.pc 2 == 4 &&
      (pushSet 2 1).all (fun i => u.grp.tok i == 1))) = true := by rcases h with h | h <;> subst h <;> decide +kernel

-- Copy -------------------------------------------------------------------------------------------------------------------

/-- Copy address registers 1 to 3: scratch offset 0x100, virtual address 0x1000, and `len`. -/
def TC (len : W64) : State := (T .c).updGrp (fun g => { g with aregs := [0, 0x100, 0x1000, len] ++ List.replicate 12 0 })

/-- A `cpy` of two elements with the given flags: SLOC is bit 1 and DLOC bit 0 (Table 13-1). -/
def cpyT (f : BitVec 8) : CopyCmd :=
  { kind := .cpy, pc := 0, word := 0, x0 := 0x100, x1 := 0, y0 := 0x200, y1 := 0, z0 := 32, z1 := 0, hnd := 0, flags := f, pops := 0, push := 0,
    elem := 0, resumed := false, count := 2, desc := [] }

theorem test_cpy_two_elements : after (exec (.cpy 0 0 1 2 3 1) (TC 32)) (fun t => t.grp.ccmd.any (fun c => c.count == 2 && c.elem == 0) && t.pc 3 == 0 &&
    after (exec (.copyElement 1) t) (fun u => u.grp.ccmd.any (fun c => c.elem == 1) &&
      after (exec (.copyElement 1) u) (fun v => v.grp.ccmd.isNone && v.pc 3 == 4))) = true := by decide +kernel
theorem test_cpy_length_zero : after (exec (.cpy 0 0 1 2 3 1) (TC 0)) (fun t => t.grp.ccmd.isNone && t.pc 3 == 4) = true := by decide +kernel
theorem test_cpy_reserved_flag : after (exec (.cpy 0 0 1 2 3 4) (TC 32)) (fun t => fieldOf t.grp.tcause 47 40 == 1) = true := by decide +kernel
theorem test_cpy_ragged_length : after (exec (.cpy 0 0 1 2 3 1) (TC 24)) (fun t => fieldOf t.grp.tcause 47 40 == 9) = true := by decide +kernel
theorem test_caLih : after (exec (.caLih 0 0 1 0x8001) (TC 0)) (fun t => t.grp.a 1 == 0x1008001 && t.pc 3 == 4) = true := by decide +kernel
theorem test_caAddi_sign : after (exec (.caAddi 0 0 1 0xFFFF) (TC 0)) (fun t => t.grp.a 1 == 0xFF) = true := by decide +kernel
theorem test_chLd_past_table : after (exec (.chLd 0 0 1 0 4) (TC 0)) (fun t => fieldOf t.grp.tcause 47 40 == 4) = true := by decide +kernel
theorem test_csigSet : after (exec (.csigSet 0 0 2 1) (TC 0)) (fun t => after (exec (.csigAdd 0 0 2 1) t) (fun u =>
    Memory.read (left (vaRead u 0 0x1000 4)).mem (fetchPage + 0x1000) 4 == 0x200)) = true := by decide +kernel

theorem witness_CopyCommands : (TC 32).grp.ccmd = none ∧ prgMatch (TC 32).grp.prgc ((TC 32).pc 3) = false ∧ isOk (tokCheck (TC 32) 3 0 7) = true ∧
    (1 : BitVec 8) &&& ~~~0xC3 = 0 ∧ isOk (mkCpy (TC 32) (cpyT 3)) = true ∧ (cpyT 3).ben = false ∧ (cpyT 3).setf = false ∧
    (cpyT 3).x0.toNat + (cpyT 3).len < 2 ^ 31 ∧ isOk (scrGet (TC 32) 0x200 16) = true ∧ isOk (copyRead (TC 32) 0x1000 16 false) = true ∧
    isOk (copyWrite (TC 32) 0x1000 16 5 0) = true ∧ (cpyT 3).sloc = true ∧ (cpyT 3).dloc = true ∧ (cpyT 0).sloc = false ∧ (cpyT 0).dloc = false := by
  decide +kernel
theorem witness_CopyRegistersAndSignals : ((TC 0).ctx 0).hcount ≤ ((TC 0).grp.a 0 + (4 : BitVec 8).setWidth 64).toNat ∧
    ((TC 0).grp.a 0 + (3 : BitVec 8).setWidth 64).toNat < ((TC 0).ctx 0).hcount ∧ isOk (copyHome (TC 0) 0x3000 32) = true ∧ handleBad (BitVec.ofNat 256 (2 ^ 64 + 2 ^ 96)) = false ∧
    isOk (copyWrite (TC 0) 0x3060 32 5 0) = true ∧ isOk (barEnt (TC 0) 0) = true ∧ isOk (sigAddr (TC 0) 0x1000 .store) = true ∧
    isOk (relG (TC 0) 3) = true ∧ (homeAtomic (TC 0) 0 (fetchPage + 0x1000) 4 (fun _ => 5)).isSome = true := by decide +kernel

-- Groups, contexts, kernels and queues -----------------------------------------------------------------------------------------

def GD : State := (T .s).updStream 0 (fun t => { t with run := .draining, pendResult := 7 })
theorem test_streamEnded : after (exec (.streamEnded 1 0) GD) (fun t => t.grp.ss.run == .ended && t.grp.ss.result == 7) = true := by decide +kernel
/-- An interrupt of value 5 pends at the group. -/
def GI : State := (T .s).updGrp (fun g => g.interrupt 5)
theorem test_interrupt_taken : after (exec (.trapDelivery 1) GI) (fun t => t.grp.hmode && !t.grp.ipend && t.grp.tcause == 0xFE0000000005) = true := by decide +kernel
theorem test_qdb_moves_tail : after (exec (.qdb 1 16) (RUN.updQueue 1 (fun q => { q with st := .ready }))) (fun t => (t.queue 1).tail == 16 && (t.queue 1).st == .ready) = true := by
  decide +kernel
theorem test_qdb_out_of_range : after (exec (.qdb 1 17) (RUN.updQueue 1 (fun q => { q with st := .ready }))) (fun t => (t.queue 1).st == .error) = true := by
  decide +kernel
theorem test_ctxClose_answers : after (exec (.ctxClose 5) RUN) (fun t => fieldOf t.host.ctxcmd 63 63 == 0) = true := by decide +kernel
theorem test_queuePause : after (exec (.queuePause 1) (RUN.updQueue 1 (fun q => { q with st := .ready }))) (fun t => (t.queue 1).st == .paused) = true := by
  decide +kernel

theorem witness_GroupEvents : ((GD).focus 1).focused 1 = true ∧ GD.grp.st = .running ∧ (GD.grp.stream 0).run = .draining ∧
    GI.grp.takeable = true ∧ GI.grp.asyncs = [] ∧ GI.grp.pendTraps = [] ∧ canTrap GI = true ∧ coreMoving GI GI.grp = false ∧ GI.grp.pairHold = false ∧
    GI.grp.saving = false ∧ canTrap (T .s) = true ∧ (T .s).grp.pendTraps = [] ∧
    (let u := (T .s).updGrp (fun g => { g with preq := true, predl := 0 })
     u.grp.preq = true ∧ u.grp.predl ≤ u.cycle ∧ saveDue (T .s) = false) ∧
    (T .s).groupOf 9 = none ∧ ((T .s).groupOf 1).any (fun x => x.ctxid == 0 && !promHeld (T .s) x && !x.log.contains 5 && x.snap.isNone) = true ∧
    nextProm (T .s) 1 = none ∧ regOpen RUN = true ∧ fieldOf RUN.host.proms 63 63 = 0 ∧ ownMem RUN 0x10000000 = true ∧
    fieldOf RUN.host.ginth 37 32 = RUN.modid := by decide +kernel
/-- A trap that waits, taken when it can be, and a collective's failure that waits. -/
theorem witness_pendTraps : let p : PendTrap := { code := 0xFF, stream := 0, info := 5, fault := none, vld := none }
    let f : FaultInfo := {
      code := cLINKDOWN, stream := 3, async := true, imprecise := false, elvalid := false, element := 0, pc := 0, addr := 0x1000, ipc := 0, word := 0,
      detail := 0, opa := 0, opb := 0, opc := 0, cycle := 0 }
    let q := { p with fault := some f }
    canTrap ((T .s).updGrp (fun g => { g with pendTraps := [] })) = true ∧ canTrap ((T .s).updGrp (fun g => { g with pendTraps := [], pairHold := true })) = false ∧
    after (exec (.trapDelivery 1) ((T .s).updGrp (fun g => { g with pendTraps := [p] }))) (fun t => t.grp.hmode && fieldOf t.grp.tcause 47 40 == 0xFF) = true ∧
    after (exec (.trapDelivery 1) ((T .s).updGrp (fun g => { g with pendTraps := [q, p] }))) (fun t => t.grp.hmode && t.grp.pendTraps == [p]) = true ∧
    (T .s).grp.st = .running ∧ (T .s).grp.pendTraps = [] ∧
    after (exec (.asyncFaultDelivery 1) ((T .s).updGrp (fun g => { g with asyncs := [f] }))) (fun t => t.grp.asyncs.isEmpty && t.grp.hmode) = true := by decide +kernel
/-- A group whose streams have stopped retires: there is no packet to tell, and its slot is free again. -/
theorem witness_groupRetire : after (exec (.exit 3) (T .s)) (fun t => t.grp.st == .stopping && t.grp.allStopped && !t.grp.retired && !recordWaits (retireAll t) (retireAll t).grp &&
    (retireAll t).grp.slot < 4 && isOk (release ((retireAll t).updGrp (fun g => { g with st := .retiring })) 1 0 2)) = true := by decide +kernel
theorem witness_groupSave :
    (let u := (T .s).updGrp (fun g => { g with preq := true, saving := true, st := .running })
     saveDue u && u.grp.partner == 0 && quiet u && (let r := saveVld u
       !r.1 && r.2.grp.partner == 0 && !(stopForSave r.2).grp.allEnded && (saveRelease (stopForSave r.2)).any (fun w => (saveBody w).grp.partner == 0))) = true := by
  decide +kernel
/-- A promotion that has been asked for runs with everything answered. -/
theorem witness_promotion :
    (let p : Prom := { target := 1, src := .own 1, line := 5, ctx := none, hit := true, run := true, ans := none }
     let u : State := { (T .s).updGrp (fun g => { g with snap := some { entries := [5], begun := true, tags := [], lines := [] } }) with proms := [p] }
     (u.groupOf 1).any (fun x => !x.retired && !promHeld u x && x.st != .saved) && after (exec (.promotion 1) u) (fun t => t.grp.snap.isNone)) = true := by
  decide +kernel
/-- A queue with one captured packet of one point, whose kernel fits the only core in service: its group is dispatched there, runs its scalar stream
from the kernel's entry and has the packet's parameters. -/
def DQ : State :=
  let k : Kern := { Kern.free with st := .ready, base := 0x10000, ents := [0x100, 0xFFFFFFFF, 0xFFFFFFFF, 0xFFFFFFFF], scrb := 1, barn := 1 }
  let p : Pkt := { pktOf 0 0 with typ := 1, kid := 3, param := 0x2000, captured := true, total := 1, points := [], loops := [] }
  { (((RUN.updCtx 0 (fun c => { c with st := .opened, savebase := 0x20000000, savesize := 16 })).updKern 3 (fun _ => k)).updQueue 1 (fun q => { q with
    st := .ready, quant := 1, head := 1, tail := 1, pkts := [p] })) with serial := 5, ready := 1 :: List.replicate 95 2 ++ List.replicate 65 1 }
theorem witness_groupDispatch : DQ.queues.map (fun q => q.1) = [1] ∧ (DQ.queue 1).st = .ready ∧ (DQ.queue 1).deficit = 0 ∧ (DQ.ctx 0).st = .opened ∧
    ((DQ.queue 1).pkts.all (fun p => p.open && p.captured && p.halves == 1 && kernUsable DQ (DQ.queue 1) p && p.entry.isNone && fieldOf p.place 63 62 != 2)) = true ∧
    (imageAt (DQ.ctx 0) (DQ.kern 3).need.image).isSome = true ∧
    after (exec .groupDispatch DQ) (fun t => t.grp.st == .running && t.grp.queue == 1 && t.grp.ss.pc == 0x10100 && t.grp.paramptr == 0x2000 &&
      pickCores DQ (workDies DQ (.fresh ((DQ.queue 1).pkts.getD 0 (pktOf 0 0))) 0) false (DQ.kern 3).need == some [t.grp.core] &&
      (t.queue 1).pkts.all (fun p => p.dispatched)) = true := by decide +kernel
theorem witness_QueueEvents : (RUN.ctx 5).st = .free ∧ ((T .s).ctx 0).st = .opened ∧ (RUN.kern 7).st = .free ∧ RUN.host.kaddr.toNat % 256 = 0 ∧
    (RUN.queue 3).st = .off ∧ (match physRead RUN (queueDesc RUN 3) 32 with | (v, b, _) => v == 0 && !b) = true ∧ regOpen RUN = true ∧
    RUN.ready.getD 152 0 = 1 ∧ State.reset.ready.getD 152 0 ≠ 1 ∧ RUN.queues = [] ∧
    (match ctxDesc RUN 5 with | .ok d _ => d.isSome | _ => false) = true ∧ (match physAsk RUN (queueDesc RUN 3) 32 with | .ok x _ => x.2.isNone | _ => false) = true ∧
    (match armTrigs 0 0 4 RUN (pktOf 0 0) with | .ok _ _ => true | _ => false) = true ∧ (RUN.queue 3).flushing = none ∧ disabling RUN 3 = false ∧
    disabling { RUN with host := { RUN.host with qcmd := 0x8000000000030002 } } 3 = true := by decide +kernel
/-- A NOP packet in slot 0 of a ring at virtual address 0x4000: it is taken, passes its parameter block and completes. -/
theorem witness_packets : after (exec (.packetTake 1) (SQ 0 1)) (fun t => (t.queue 1).pkts.length == 1 && (t.queue 1).head == 1) = true ∧
    isOk (queueRead (SQ 0 1) 0 0x4000 128) = true := by decide +kernel

-- Memory, pages and the host -----------------------------------------------------------------------------------------------

theorem test_ilcmd_appends : after (exec (.ilcmdInvalidateAll 0) RUN) (fun t => t.dies.all (fun d => d.ilog.length == 1) && t.ilSeq == 1) = true := by decide +kernel
theorem test_ilcmd_sync_applies : after (exec (.ilcmdInvalidateAll 1) (T .s)) (fun t => (t.core 0).tlb.isEmpty && t.dies.all (fun d => d.ilog.isEmpty)) = true := by
  decide +kernel
theorem test_host_write_read : after (exec (.hostMemoryWrite 0x10000001 [0xAA, 0xBB]) RUN) (fun t => t.mem == [(0x10000001, 0xAA), (0x10000002, 0xBB)] &&
    after (exec (.hostMemoryRead 0x10000000 4) t) (fun u => u.replies == [.data 0x10000000 [0, 0xAA, 0xBB, 0]])) = true := by decide +kernel
theorem test_register_mask : after (exec (.hostRegisterWrite 0x010 0xFFFFFFFFFFFFFFFF) RUN) (fun t => t.host.ctxbase == 0x000FFFFFFFFFF000) = true := by decide +kernel
theorem test_ctxcmd_runs : after (exec (.hostRegisterWrite 0x018 0x501) RUN) (fun t => t.host.ctxcmd == 0x8000000000000501 && t.agenda.length == 1) = true := by
  decide +kernel
theorem test_bank_conversion : after (exec (.bankFillDone 0 3) (RUN.updCore 0 (fun c => { c with
    banks := updAt c.banks 3 (fun b => { b with mode := .drainF, target := .scratch }) }))) (fun t => ((t.core 0).banks.getD 3 { mode := .cache, target := .cache, owner := 0, misses := 0 }).mode == .drainW) = true := by
  decide +kernel
theorem witness_MemoryAndHostEvents : regOpen RUN = true ∧ (1 : BitVec 2) ≠ 3 ∧ (5 : BitVec 7).toNat < 96 ∧ (0x1000 : BitVec 64).toNat < 2 ^ 57 ∧
    (match findLeaf (T .s) 0 0 0x1000 with | (.leaf _ _ _, _) => true | _ => false) = true ∧ (T .s).cores.length = 96 ∧ RUN.safe = false ∧
    ownMem RUN 0x10000000 = true ∧ ownMem RUN (0x10000000 + 255) = true ∧ (match physRead RUN 0x10000000 255 with | (_, b, _) => !b) = true ∧
    fieldOf RUN.host.attaddr 1 1 = 0 ∧ fieldOf RUN.host.ctxcmd 63 63 = 0 ∧ (RUN.str 6).sess = .free ∧ (RUN.str 6).cal = none ∧
    (RUN.ndie 0).ftcBusy = false ∧ anyPort RUN = true ∧ anyPort State.reset = false ∧ notReady RUN (unitOf 0x10000000) = false ∧
    notReady State.reset (unitOf 0x10000000) = true ∧ (match physAsk RUN 0x10000000 32 with | .ok x _ => x.2.isNone | _ => false) = true ∧
    (match physAsk RUN 0 32 with | .ok _ _ => true | _ => false) = true ∧ l2Down (T .s) 0 = false ∧ hasL1 (T .s) 0 = true := by decide +kernel
/-- A migration handed in through a walk that waits for another module stands until it is answered. -/
theorem witness_migh : let s := { TR with phase := 3, ready := List.replicate 161 1, mem := Memory.write TR.mem 0x10000100 8 0x30000 }
    (match physAsk { s with mighWait := none } 0x10000100 32 with | .ok (x, none) s1 => (migSubmit s1 0 0 x).1 == 5 | _ => false) = true ∧ (s.ctx 0).st ≠ .free ∧
    after (exec (.migh 0x10000100) s) (fun t => t.mighWait == some 0x10000100) = true := by decide +kernel

-- Bring-up, links, gangs and collectives -----------------------------------------------------------------------------------------

theorem test_packageReset : after (exec (.packageReset 0 0xFF 0 0) (T .s)) (fun t => t.phase == 2 && t.grp.st == .none && t.mem.isEmpty && !t.safe) = true := by
  decide +kernel
theorem test_packageReset_straps : after (exec (.packageReset 5 0xFF 0 0) State.reset) (fun t => t.safe && t.reason == 3) = true := by decide +kernel
theorem test_throttle : after (exec .powerLimitThrottle State.reset) (fun t => t.clockMHz == 1900) = true := by decide +kernel
theorem test_last_function_ready : after (exec (.functionReady 160) { State.reset with phase := 2, ready := List.replicate 160 1 ++ [0] }) (fun t => t.phase == 3) = true := by
  decide +kernel
theorem test_coreFault_takes_spare : after (exec (.coreFault 9 []) RUN) (fun t => (t.die 1).moving == some 9 && after (exec (.spareTakeoverDone 1) t) (fun u =>
    (u.die 1).moving.isNone && (u.die 1).spareUsed)) = true := by decide +kernel
/-- Link 2 in a state, with 17 working wavelengths and module 4 at its other end. -/
def LK (st : LinkState) : State := { (RUN.updLink 2 (fun l => { l with st := st, waves := 17, neighbour := 4 })) with
  topo := (0, 0xFF, 0, 0, [0, 0, 4]) }
theorem test_linkTrained_degraded : after (exec (.linkTrained 2 15 4) (LK .training)) (fun t => (t.link 2).st == .degraded && (t.link 2).waves == 15) = true := by
  decide +kernel
/-- Fewer than 8 wavelengths fail the training whichever neighbour there is; before PHASE 2 no link trains. -/
theorem test_linkTrained_few : after (exec (.linkTrained 2 7 5) (LK .training)) (fun t => !t.safe && t.agenda.length == 1 && (t.link 2).st == .training) = true ∧
    after (exec (.linkTrained 2 18 4) { LK .training with phase := 0 }) (fun t => (t.link 2).st == .training) = true := by decide +kernel
theorem test_own_neighbour : after (exec (.linkTrained 2 18 4) { LK .training with modid := 4 }) (fun t => t.safe && t.reason == 5) = true := by decide +kernel
theorem test_wrong_neighbour : after (exec (.linkTrained 2 18 5) (LK .training)) (fun t => t.safe && t.reason == 4) = true := by decide +kernel
theorem test_wavelengthLost : after (exec (.wavelengthLost 2) (LK .up)) (fun t => (t.link 2).waves == 16 && (t.link 2).st == .up) = true := by decide +kernel
theorem test_third_failure_fences : after (exec (.linkTrainingFailed 2) ((LK .training).updLink 2 (fun l => { l with failed := 2 }))) (fun t => (t.link 2).st == .fenced) = true := by
  decide +kernel
/-- A gang that this module has joined, and a collective that has been posted. -/
def GG (st : GangState) : State :=
  let g : Gang :=
    { id := 9, st := st, queue := 0, pkt := 0, mask := 3, gtmo := 1, readyFrom := 0, since := 0, asked := none, queries := [], decided := none,
      decidedAt := 0, lacked := 0 }
  { RUN with modid := 1, gangs := [g] }
theorem test_gangCommit : after (exec (.gangCommitReceived 9) (GG .tentative)) (fun t => t.gangs.any (fun g => g.st == .confirmed)) = true := by decide +kernel
theorem test_gangCommit_unknown : after (exec (.gangCommitReceived 8) (GG .tentative)) (fun t => t.gangs.all (fun g => g.st == .tentative)) = true := by decide +kernel

theorem witness_BringupEvents : State.reset.topo.1 = 0 ∧ (1 : BitVec 2).getLsbD 0 = true ∧ (2 : BitVec 2).getLsbD 1 = true ∧ (2 : BitVec 2).getLsbD 0 = false ∧
    State.reset.ready.length = 161 ∧ State.reset.ready.getD 160 3 = 0 ∧ ({ RUN with ready := updAt RUN.ready 9 (fun _ => 2) } : State).ready.getD 9 0 = 2 ∧
    1200 < State.reset.clockMHz ∧ RUN.ready.getD 95 0 = 1 ∧ (RUN.die 11).moving = none ∧ (RUN.die 11).spareUsed = false ∧ coreGroups RUN 95 = [] ∧ (l1WbAll RUN 95).isSome = true ∧ ({ State.reset with phase := 2 } : State).ready.getD 152 3 = 0 ∧
    RUN.lost.contains 11 = false ∧ RUN.corrected.lookup (160, 0) = none := by decide +kernel
/-- A collective of two members, of `count` elements in buckets of 2, from 0x1000 to 0x2000. -/
def CW (count : Nat) : List W64 := [BitVec.ofNat 64 (3 * 2 ^ 40 + 9), 0x1000, 0x2000, BitVec.ofNat 64 (2 * 2 ^ 32 + count), 0, 0, 0, 0]
def SC (count : Nat) : State :=
  let c : Coll := {
    handle := 1, pc := 0, word := 0, elem := 0, cnt := 0, blockVa := 0x3000, ctx := 0, words := CW count, since := 0, mods := [0, 1], rank := 0,
    matched := false, pages := [(0, fetchPage / 65536, fetchEnt.leaf)], fired := [], started := [], ended := [], written := [] }
  { T .c with colls := [c] }
def postOf (count : Nat) : List (BitVec 64 × BitVec 64) := [((CW count).getD 0 0, (CW count).getD 3 0)]
/-- The other member's post matches or differs; the one bucket starts, and ends with the sums of 0 and 1, and of 0 and 2, in DST. -/
theorem witness_collectives : (collOf (SC 2) 3 9).isSome = true ∧ after (exec (.collectiveMatch 3 9 (postOf 4)) (SC 2)) (fun t => t.colls.isEmpty) = true ∧
    after (exec (.collectiveMatch 3 9 (postOf 0)) (SC 0)) (fun t => t.colls.isEmpty) = true ∧
    after (exec (.collectiveMatch 3 9 (postOf 2)) (SC 2)) (fun t => t.colls.any (fun c => c.matched && c.buckets == 1) &&
      after (exec (.collectiveBucketStart 3 9 0) t) (fun u => u.colls.any (fun c => c.started == [0]) &&
        after (exec (.collectiveBucketDone 3 9 0 [[], [0x3F800000, 0x40000000]]) u) (fun v => v.colls.isEmpty &&
          (List.range 8).map (fun b => viewByte v 0 0 (fetchPage + 0x2000 + b)) == [0, 0, 0x80, 0x3F, 0, 0, 0, 0x40]))) = true := by decide +kernel
theorem witness_FabricEvents : (LK .training).safe = false ∧ ((LK .training).link 2).st = .training ∧ (4 : BitVec 6).toNat = (LK .training).topo.2.2.2.2.getD 2 64 ∧
    linkUsable (LK .up) 2 = true ∧ 17 ≤ ((LK .up).link 2).waves ∧ ((LK .down).link 2).st = .down ∧ RUN.tagOwner = [] ∧
    (gangOf (GG .tentative) 9).any (fun x => x.st == .tentative && !leads (GG .tentative) x) = true ∧
    (gangOf { GG .tentative with modid := 0 } 9).any (fun x => leads { GG .tentative with modid := 0 } x) = true ∧
    (LK .training).phase = 3 ∧ (RUN.dest 4).cache.lookup 7 = none ∧ gangOf RUN 9 = none := by decide +kernel
theorem witness_cput : let part (pa : Nat) : CopyPart := { va := 0x20000, n := 16, v := 5, keep := 0, pa := pa, leaf := 0x33 }
    isOk (copyPuts (TC 0) [part (fetchPage + 0x1000)]) = true ∧ isWait (copyPuts TR [part (remoteBase + 5 * 2 ^ 45)]) = true ∧
    (TC 32).grp.cput = none := by decide +kernel
theorem witness_trapDelivery : let p : PendTrap := { code := 0xFF, stream := 0, info := 5, fault := none, vld := none }
    let f (c : Nat) : FaultInfo := {
      code := c, stream := 3, async := true, imprecise := false, elvalid := false, element := 0, pc := 0, addr := 0x1000, ipc := 0, word := 0,
      detail := 0, opa := 0, opb := 0, opc := 0, cycle := 0 }
    let s := (T .s).updGrp (fun g => { g with pendTraps := [p] })
    canTrap s = true ∧ canTrap (s.updGrp (fun g => { g with pairHold := true })) = false ∧ handles s cLINKDOWN = true ∧
    handles (s.updCtx 0 (fun c => { c with policy := 0 })) cLINKDOWN = false ∧
    after (exec (.trapDelivery 1) ((s.updCtx 0 (fun c => { c with policy := 0 })).updGrp (fun g => { g with pendTraps := [{ p with fault := some (f cLINKDOWN) }] })))
      (fun t => t.grp.st == .stopping || t.grp.st == .retiring) = true := by decide +kernel
/-- A migration of a page whose leaf is at physical address 0: swapped, flushed, copied, swapped to its new place, dropped, told and over. -/
def MG : State := (migSubmit { T .s with mem := Memory.write (T .s).mem 0 8 0x10000033, host := { (T .s).host with ilbase := 0x30000000 } } 0 0
  (0x20000000 * 2 ^ 64 + 0x3000 * 2 ^ 192)).2
/-- The one migration's step and status, 9 with none. -/
def atStep (s : State) : Nat × Nat := ((s.migActive.getD 0 [])[0]?).elim (9, 0) (fun m => (m.step, m.status))
theorem witness_migration : after (exec (.migrationStep 0 0) MG) (fun t => atStep t == (2, 0) && after (exec (.migrationStep 0 0) t) (fun t => atStep t == (3, 0) &&
    after (exec (.migrationStep 0 0) t) (fun t => atStep t == (4, 0) && after (exec (.migrationStep 0 0) t) (fun t => atStep t == (5, 0) && Memory.read t.mem 0 8 == 0x20000033 &&
      after (exec (.migrationStep 0 0) t) (fun t => atStep t == (6, 0) && after (exec (.migrationStep 0 0) t) (fun t => atStep t == (6, 0) &&
        after (exec (.migrationStep 0 0) t) (fun t => atStep t == (9, 0)))))))) = true := by decide +kernel
/-- One that finds a bad block puts the leaf back; one whose leaf has changed ends with status 2; one with a counter counts. -/
theorem witness_migrationEnds : let at' (s : State) (k : Nat) : State := updMigr s 0 0 (fun m => { m with step := k })
    after (exec (.migrationStep 0 0) { at' MG 3 with badBlocks := [0x10000000 / 64] }) (fun t => atStep t == (3, 1) &&
      after (exec (.migrationStep 0 0) t) (fun u => atStep u == (5, 1))) = true ∧
    after (exec (.migrationStep 0 0) { MG with mem := [] }) (fun t => atStep t == (5, 2)) = true ∧
    (let s := updMigr (at' MG 6) 0 0 (fun m => { m with stat := 0, ctr := 0x2000 })
     !devUnacked s && isOk (devCount s 0 0x2000 0 0) && after (exec (.migrationStep 0 0) s) (fun t => atStep t == (9, 0))) = true ∧
    (homeAtomic MG (homeOf 0 none) 0 8 (fun x => x)).isSome = true := by decide +kernel
/-- A report to this module's memory is done at once; one to module 5 when it has been answered. -/
theorem witness_attestation : let busy (s : State) (a : Nat) : State := { s with host := { s.host with attaddr := BitVec.ofNat 64 (a + 2) } }
    let m5 := remoteBase + 5 * 2 ^ 45
    isOk (physAsk (busy RUN 0x10000000) 0x10000000 32) = true ∧
    after (exec (.attestationReportDone []) (busy RUN 0x10000000)) (fun t => fieldOf t.host.attaddr 1 0 == 1) = true ∧
    after (exec (.attestationReportDone []) (busy TR m5)) (fun t => fieldOf t.host.attaddr 1 0 == 2 && t.tagOwner.length == 1 &&
      after (exec (.remoteReply { packet0 0 4 0 with srcm := 5, tag := (t.tagOwner.getD 0 (0, 0, 0, 0)).1, data := List.replicate 32 7 }) t) (fun u =>
        isOk (physAsk u m5 32) && after (exec (.attestationReportDone []) u) (fun v => v.attSent && devUnacked v && fieldOf v.host.attaddr 1 0 == 2))) = true := by
  decide +kernel
/-- A queued reduction, room or not; a request of another module at storage that is NOT_READY, and then ready. -/
theorem witness_held : let q : Packet := { packet0 0 0 0 with srcm := 4, addr := 0x10000000, arg := 4 }
    let s : State := { RUN with phase := 2, ready := updAt RUN.ready (unitOf 0x10000000) (fun _ => 0) }
    remoteHeld RUN q = false ∧ remoteHeld s q = true ∧ q.pop = 0 ∧ (s.dest 4).cache.lookup 0 = none ∧
    after (exec (.remoteRequest q) s) (fun t => t.remWait == [q] && after (exec (.functionReady (BitVec.ofNat 8 (unitOf 0x10000000))) t) (fun u =>
      u.remWait.isEmpty && u.agenda.length == 1)) = true := by decide +kernel
theorem witness_reroute : let d : Dest := { unans := [packet0 5 0 0], held := [], rid := 0, reroute := some 0, cache := [] }
    let s := RUN.updDest 5 (fun _ => d)
    (s.dest 5).reroute = some 0 ∧ (s.dest 5).unans ≠ [] ∧ s.cycle < 2 ^ 20 := by decide +kernel
theorem witness_fibmode : (RUN.updStr 6 (fun t => { t with sess := .opened })).str 6 ≠ RUN.str 6 ∧ 6 < RUN.strs.length ∧
    tellComb RUN 6 ≠ tellComb (RUN.updStr 6 (fun t => t.withMode 2)) 6 := by decide +kernel
theorem witness_writeQueue : let r : RedReq := { handle := 1, va := 0x1000, pa := 0x10000000, aop := 0, ty := 0, opnd := 5, scope := 3, die := 0, leaf := 0, pc := 0, word := 0 }
    ((makeRoom (RUN.updNDie 0 (fun x => { x with queue := [r] })) 0 (entriesFor (r.pa / 128))).ndie 0).queue = [r] := by decide +kernel

end Sys2Proof.Tests
end

section
/-! SUPPORT. The nested-loop sequencer (R86 to R91): what opens a level, where `loop.first` and `loop.last` pass, what a stride
update changes, and what a stream does at the `end` of an iteration; then the two statements about loops. -/

namespace Sys2Proof.Machine

-- The meanings of the loop instructions ----------------------------------------------------------------------------------

theorem exec_loopIterationEnd (s : State) : exec .loopIterationEnd s = execLoopIterationEnd s := rfl

/-- The issuing stream goes by its number of R102. -/
theorem strmNo_eq_num (s : State) : strmNo s = s.strm.num := by
  unfold strmNo Stream.num; cases s.strm <;> rfl

theorem exec_loopBegXn (l : BitVec 3) (m : BitVec 8) (s : State) :
    exec (.loopBegXn l m) s = loopBeg s s.strm.num l.toNat (m.toNat + 1) := by
  rw [← strmNo_eq_num]; rfl
theorem exec_loopFirstXn (l : BitVec 3) (c : BitVec 4) (s : State) :
    exec (.loopFirstXn l c) s = loopPrefix s s.strm.num l.toNat (c.toNat + 1) := by
  rw [← strmNo_eq_num]; rfl
theorem exec_loopLastXn (l : BitVec 3) (c : BitVec 4) (s : State) :
    exec (.loopLastXn l c) s = loopPrefix s s.strm.num l.toNat (c.toNat + 1) := by
  rw [← strmNo_eq_num]; rfl

theorem Stream.num_lt_four (x : Stream) : x.num < 4 := by cases x <;> decide
theorem Stream.num_inj {x y : Stream} : x.num = y.num ↔ x = y := by cases x <;> cases y <;> decide
theorem Stream.three_le_num {x : Stream} : 3 ≤ x.num ↔ x = .c := by cases x <;> decide

-- Opening a level, and `loop.first` and `loop.last` ------------------------------------------------------------------------

/-- Level `lvl` over the `len` words behind the pc is one that `loop.beg` may open in stream `st` (R86, R89). -/
def LoopFits (s : State) (st lvl len : Nat) : Prop :=
  lvl < s.grp.loops.length ∧ (s.grp.loopEnt lvl).kind = 0 ∧
  ∀ x ∈ (s.grp.stream st).levels.head?, x.lvl < lvl ∧ (s.pc st).toNat + 4 + 4 * len ≤ x.stop

/-- `loop.first` or `loop.last` over the `cnt` words behind the pc names an open level and stays inside the innermost one (R87, R89). -/
def PrefixFits (s : State) (st lvl cnt : Nat) : Prop :=
  (openAt (s.grp.stream st) lvl).isSome = true ∧ ∀ x ∈ (s.grp.stream st).levels.head?, (s.pc st).toNat + 4 + 4 * cnt ≤ x.stop

/-- The state after `loop.beg` has opened its level (R86). -/
def levelOpened (s : State) (st lvl len : Nat) : State :=
  (s.updStream st (fun t => { t with
    levels := { lvl := lvl, start := t.pc.toNat + 4, stop := t.pc.toNat + 4 + 4 * len, idx := 0 } :: t.levels })).advance st

/-- The state after `loop.beg` of a level with count 0 has skipped its body (R86). -/
def bodySkipped (s : State) (st len : Nat) : State := s.setPc st (BitVec.ofNat 64 ((s.pc st).toNat + 4 + 4 * len))

/-- Outside handler mode the scalar stream's sequencer acts; that of another stream always does (R92). -/
theorem mode_open {s : State} {st : Nat} (h : st = 0 → s.grp.hmode = false) : (st == 0 && s.grp.hmode) = false := by
  by_cases h0 : st = 0 <;> simp [h0, h]

/-- An update of a stream counts only by what it makes of that stream. -/
theorem State.updStream_congr {s : State} {st : Nat} {f f' : StreamSt → StreamSt} (h : f (s.grp.stream st) = f' (s.grp.stream st)) :
    s.updStream st f = s.updStream st f' := by
  unfold State.updStream State.updGrp Group.updStream; unfold Group.stream at h; split <;> simp_all

@[simp] theorem State.x_updStream (s : State) (st : Nat) (f : StreamSt → StreamSt) (r : BitVec 5) : (s.updStream st f).x r = s.x r := by
  unfold State.x Group.x; rw [State.updStream_grp, Group.updStream_gregs]

/-- `loop.beg` of a level that fits opens it, or skips the body where the count is 0 (R86). -/
theorem loopBeg_fits {s : State} {st lvl len : Nat} (hp : Placed s) (hm : st = 0 → s.grp.hmode = false) (hf : LoopFits s st lvl len) :
    loopBeg s st lvl len = if (s.grp.loopEnt lvl).count = 0 then .next (issued (bodySkipped s st len) st)
      else .next (issued (levelOpened s st lvl len) st) := by
  obtain ⟨hlen, hkind, hin⟩ := hf
  have table : ¬ s.grp.loops.length ≤ lvl := Nat.not_le.mpr hlen
  have opened : levelOpened s st lvl len = (s.updStream st (fun t => { t with
      levels := { lvl := lvl, start := (s.grp.stream st).pc.toNat + 4, stop := (s.grp.stream st).pc.toNat + 4 + 4 * len, idx := 0 } ::
        t.levels })).advance st := congrArg (State.advance · st) (State.updStream_congr rfl)
  cases hl : (s.grp.stream st).levels with
  | nil => simp [loopBeg, noGroup_false hp, mode_open hm, table, hkind, hl, opened, bodySkipped, State.pc]
  | cons x xs =>
    have hx : x.lvl < lvl ∧ (s.grp.stream st).pc.toNat + 4 + 4 * len ≤ x.stop := hin x (by simp [hl])
    simp [loopBeg, noGroup_false hp, mode_open hm, table, hkind, hl, hx, opened, bodySkipped, State.pc]

/-- `loop.first` or `loop.last` that fits takes the next word (R87). -/
theorem loopPrefix_fits {s : State} {st lvl cnt : Nat} (hp : Placed s) (hm : st = 0 → s.grp.hmode = false) (hf : PrefixFits s st lvl cnt) :
    loopPrefix s st lvl cnt = .next (issued (s.advance st) st) := by
  obtain ⟨hopen, hin⟩ := hf
  cases hl : (s.grp.stream st).levels with
  | nil => simp [openAt, hl] at hopen
  | cons x xs =>
    have hx : (s.grp.stream st).pc.toNat + 4 + 4 * cnt ≤ x.stop := hin x (by simp [hl])
    simp [loopPrefix, noGroup_false hp, mode_open hm, hl, hx, Option.isSome_iff_ne_none.mp hopen]

/-- `loop.idx` of a level that exists completes (R88). -/
theorem execLoopIdx_next {s : State} {l : BitVec 3} (d : BitVec 5) (hp : Placed s) (hl : l.toNat ≤ 5) :
    execLoopIdx d l s = .next (clearRemote ((s.setX d (match openAt s.grp.ss l.toNat with
      | some x => BitVec.ofNat 64 x.idx
      | none => BitVec.allOnes 64)).advance 0) 0) :=
  (sDoIf_true _ hp (by simpa using hl)).trans (sDo_ok hp rfl)

/-- Settles O31: the checks of R86 to R89 pass, and each form has one next state; a stream cycle passes in the vector stream. -/
theorem loopInstructions : Obligations.LoopInstructions := by
  intro d l m c s hp open' opened skipped count within
  have beg (st : Nat) (hm : st = 0 → s.grp.hmode = false) (hf : open' st) :
      (count ≠ 0 → loopBeg s st l.toNat (m.toNat + 1) = .next (issued (opened st) st)) ∧
      (count = 0 → loopBeg s st l.toNat (m.toNat + 1) = .next (issued (skipped st) st)) :=
    ⟨fun hc => (loopBeg_fits hp hm hf).trans (if_neg hc), fun hc => (loopBeg_fits hp hm hf).trans (if_pos hc)⟩
  have other (h : s.strm = .m ∨ s.strm = .c) : (s.strm.num = 0 → s.grp.hmode = false) ∧ ∀ t, issued t s.strm.num = t := by
    rcases h with h | h <;> rw [h] <;> exact ⟨nofun, fun _ => rfl⟩
  have vector (h : s.strm = .v) : s.strm.num = 1 := congrArg Stream.num h
  refine ⟨fun hm hf => beg 0 (fun _ => hm) hf, fun hv hf => ?_, fun ho hf => ?_,
    fun hm hw => ⟨loopPrefix_fits hp (fun _ => hm) hw, loopPrefix_fits hp (fun _ => hm) hw⟩, fun hv hw => ?_, fun ho hw => ?_,
    fun hl => execLoopIdx_next d hp hl⟩
  · rw [exec_loopBegXn, vector hv]
    exact beg 1 nofun hf
  · rw [exec_loopBegXn]
    simpa only [(other ho).2] using beg s.strm.num (other ho).1 hf
  · rw [exec_loopFirstXn, exec_loopLastXn, vector hv]
    exact ⟨loopPrefix_fits hp nofun hw, loopPrefix_fits hp nofun hw⟩
  · rw [exec_loopFirstXn, exec_loopLastXn, loopPrefix_fits hp (other ho).1 hw, (other ho).2]
    exact ⟨rfl, rfl⟩

-- Results that land -------------------------------------------------------------------------------------------------------

/-- `t` differs from `s` at most in what a vector result that lands may write: vector and mask registers, the results in flight, the token
counters with their reservations, and TOKSAT (R103, R158). -/
def LandingFrame (s t : State) : Prop :=
  ∃ vregs kregs flight toks resv toksat, t = s.updGrp (fun g => { g with
    vregs := vregs, kregs := kregs, flight := flight, toks := toks, resv := resv, toksat := toksat })

namespace LandingFrame

variable {s t u : State}

theorem refl (s : State) : LandingFrame s s := ⟨_, _, _, _, _, _, rfl⟩
theorem trans (h : LandingFrame s t) (h' : LandingFrame t u) : LandingFrame s u := by
  obtain ⟨_, _, _, _, _, _, rfl⟩ := h
  obtain ⟨_, _, _, _, _, _, rfl⟩ := h'
  exact ⟨_, _, _, _, _, _, rfl⟩

theorem mem (h : LandingFrame s t) : t.mem = s.mem := by obtain ⟨_, _, _, _, _, _, rfl⟩ := h; rfl
theorem stream (h : LandingFrame s t) (j : Nat) : t.grp.stream j = s.grp.stream j := by obtain ⟨_, _, _, _, _, _, rfl⟩ := h; rfl
theorem loopEnt (h : LandingFrame s t) (lvl : Nat) : t.grp.loopEnt lvl = s.grp.loopEnt lvl := by obtain ⟨_, _, _, _, _, _, rfl⟩ := h; rfl
theorem gregs (h : LandingFrame s t) : t.grp.gregs = s.grp.gregs := by obtain ⟨_, _, _, _, _, _, rfl⟩ := h; rfl
theorem x (h : LandingFrame s t) (r : BitVec 5) : t.x r = s.x r := by obtain ⟨_, _, _, _, _, _, rfl⟩ := h; rfl
theorem vcyc (h : LandingFrame s t) : t.grp.vcyc = s.grp.vcyc := by obtain ⟨_, _, _, _, _, _, rfl⟩ := h; rfl
theorem dregs (h : LandingFrame s t) : t.grp.dregs = s.grp.dregs := by obtain ⟨_, _, _, _, _, _, rfl⟩ := h; rfl
theorem aregs (h : LandingFrame s t) : t.grp.aregs = s.grp.aregs := by obtain ⟨_, _, _, _, _, _, rfl⟩ := h; rfl

end LandingFrame

theorem Group.pushToks_eq (g : Group) (cs : List Nat) (n : Nat) :
    g.pushToks cs n = { g with toks := (g.pushToks cs n).toks, toksat := (g.pushToks cs n).toksat } := by
  unfold Group.pushToks; dsimp only; split <;> rfl

theorem tokDone_frame (s : State) (st : Nat) (q : BitVec 3) : LandingFrame s (tokDone s st q) :=
  ⟨_, _, _, _, _, _, congrArg (fun g => ({ s with grp := g } : State)) (Group.pushToks_eq _ _ _)⟩

theorem landFlight_frame (s : State) (f : Flight) : LandingFrame s (landFlight s f) := by
  refine LandingFrame.trans ?_ (tokDone_frame _ _ _)
  cases f.isMask <;> exact ⟨_, _, _, _, _, _, rfl⟩

theorem landFlights_frame (fs : List Flight) (s : State) : LandingFrame s (fs.foldl landFlight s) := by
  induction fs generalizing s with
  | nil => exact .refl s
  | cons f fs ih => exact (landFlight_frame s f).trans (ih _)

/-- The results that are due touch no stream, no memory and no register but those of vectors and masks (R158). -/
theorem retireDue_frame (s : State) : LandingFrame s (retireDue s) :=
  LandingFrame.trans ⟨_, _, _, _, _, _, rfl⟩ (landFlights_frame _ _)

-- The stride update ---------------------------------------------------------------------------------------------------------

/-- The selector of stream `st` at a level: its bit 7 enables the stride (R81). -/
def strideSel (s : State) (st lvl : Nat) : Nat := ((s.grp.loopEnt lvl).sels.getD st 0).toNat
/-- The register that the selector names (R81). -/
def strideReg (s : State) (st lvl : Nat) : Nat := strideSel s st lvl % 32
/-- The stride of stream `st` at a level, taken `k` times (R86). -/
def strideAmount (s : State) (st lvl : Nat) (k : Int) : Int := ((s.grp.loopEnt lvl).strides.getD st 0).toInt * k

section
variable (s : State) (st lvl : Nat) (k : Int)

/-- What a stride update does: nothing where no register is selected, and otherwise one add in its stream (R91). -/
theorem strideAdd_cases :
    (strideSel s st lvl < 128 ∧ strideAdd s st lvl k = s) ∨ (128 ≤ strideSel s st lvl ∧
      ((st = 0 ∧ strideAdd s st lvl k = s.setX (BitVec.ofNat 5 (strideReg s st lvl))
          (s.x (BitVec.ofNat 5 (strideReg s st lvl)) + BitVec.ofInt 64 (strideAmount s st lvl k))) ∨
       (st = 1 ∧ strideAdd s st lvl k = vecStride s (strideReg s st lvl) (BitVec.ofInt 32 (strideAmount s st lvl k))) ∨
       (st = 2 ∧ strideAdd s st lvl k = s.updGrp (fun g => { g with
          dregs := updAt g.dregs (strideReg s st lvl) (fun x => dBase x (fun b => b + BitVec.ofInt 32 (strideAmount s st lvl k))) })) ∨
       (3 ≤ st ∧ strideAdd s st lvl k = s.updGrp (fun g => { g with
          aregs := updAt g.aregs (strideReg s st lvl) (fun x => x + BitVec.ofInt 64 (strideAmount s st lvl k)) })))) := by
  by_cases h : strideSel s st lvl < 128
  · exact .inl ⟨h, if_pos h⟩
  · refine .inr ⟨Nat.le_of_not_lt h, ?_⟩
    match st, h with
    | 0, h => exact .inl ⟨rfl, if_neg h⟩
    | 1, h => exact .inr (.inl ⟨rfl, if_neg h⟩)
    | 2, h => exact .inr (.inr (.inl ⟨rfl, if_neg h⟩))
    | n + 3, h => exact .inr (.inr (.inr ⟨by omega, if_neg h⟩))

@[simp] theorem strideAdd_mem : (strideAdd s st lvl k).mem = s.mem := by
  obtain ⟨-, e⟩ | ⟨-, ⟨-, e⟩ | ⟨-, e⟩ | ⟨-, e⟩ | ⟨-, e⟩⟩ := strideAdd_cases s st lvl k <;> simp [e]

@[simp] theorem State.setX_stream (r : BitVec 5) (v : W64) (j : Nat) : (s.setX r v).grp.stream j = s.grp.stream j := by
  unfold State.setX; split <;> rfl

@[simp] theorem strideAdd_stream (j : Nat) : (strideAdd s st lvl k).grp.stream j = s.grp.stream j := by
  obtain ⟨-, e⟩ | ⟨-, ⟨-, e⟩ | ⟨-, e⟩ | ⟨-, e⟩ | ⟨-, e⟩⟩ := strideAdd_cases s st lvl k <;> rw [e]
  case inr.inl => exact State.setX_stream ..
  all_goals rfl

@[simp] theorem strideAdd_vregs : (strideAdd s st lvl k).grp.vregs = s.grp.vregs := by
  obtain ⟨-, e⟩ | ⟨-, ⟨-, e⟩ | ⟨-, e⟩ | ⟨-, e⟩ | ⟨-, e⟩⟩ := strideAdd_cases s st lvl k <;> simp [e]

variable {st} in
/-- A stride update of a selected scalar register is a write of it. -/
theorem strideAdd_scalar (h : 128 ≤ strideSel s st lvl) (h0 : st = 0) :
    strideAdd s st lvl k = s.setX (BitVec.ofNat 5 (strideReg s st lvl))
      (s.x (BitVec.ofNat 5 (strideReg s st lvl)) + BitVec.ofInt 64 (strideAmount s st lvl k)) := by
  subst h0; exact if_neg (Nat.not_lt.mpr h)

variable {st} in
/-- That write reads back, unless the register is g0, and leaves the other registers alone. -/
theorem strideAdd_scalar_x (h : 128 ≤ strideSel s st lvl) (h0 : st = 0) (hlen : s.grp.gregs.length = 32) :
    (strideReg s st lvl = 0 → (strideAdd s st lvl k).grp.gregs = s.grp.gregs) ∧
    (strideReg s st lvl ≠ 0 →
      (strideAdd s st lvl k).x (BitVec.ofNat 5 (strideReg s st lvl)) =
        s.x (BitVec.ofNat 5 (strideReg s st lvl)) + BitVec.ofInt 64 (strideAmount s st lvl k) ∧
      ∀ j, j ≠ BitVec.ofNat 5 (strideReg s st lvl) → (strideAdd s st lvl k).x j = s.x j) := by
  rw [strideAdd_scalar s lvl k h h0]
  refine ⟨fun hr => by rw [hr]; rfl, fun hr =>
    ⟨State.x_setX_self _ _ _ hlen fun hz => hr ?_, fun j hj => State.x_setX_other _ _ _ _ hj.symm⟩⟩
  simpa [strideReg] using congrArg BitVec.toNat hz

variable {st} in
/-- A stride update of a selected vector register puts one result in flight. -/
theorem strideAdd_vector (h : 128 ≤ strideSel s st lvl) (h1 : st = 1) :
    strideAdd s st lvl k = vecStride s (strideReg s st lvl) (BitVec.ofInt 32 (strideAmount s st lvl k)) := by
  subst h1; exact if_neg (Nat.not_lt.mpr h)

/-- The scalar registers change in the scalar stream alone. -/
theorem strideAdd_gregs (h : ¬ (128 ≤ strideSel s st lvl ∧ st = 0)) : (strideAdd s st lvl k).grp.gregs = s.grp.gregs := by
  obtain ⟨-, e⟩ | ⟨hs, ⟨h0, -⟩ | ⟨-, e⟩ | ⟨-, e⟩ | ⟨-, e⟩⟩ := strideAdd_cases s st lvl k
  case inr.inl => exact absurd ⟨hs, h0⟩ h
  all_goals simp [e, vecStride]

/-- The results in flight and the cycle of the vector stream change in that stream alone. -/
theorem strideAdd_flight (h : ¬ (128 ≤ strideSel s st lvl ∧ st = 1)) :
    (strideAdd s st lvl k).grp.flight = s.grp.flight ∧ (strideAdd s st lvl k).grp.vcyc = s.grp.vcyc := by
  obtain ⟨-, e⟩ | ⟨hs, ⟨-, e⟩ | ⟨h1, -⟩ | ⟨-, e⟩ | ⟨-, e⟩⟩ := strideAdd_cases s st lvl k
  case inr.inr.inl => exact absurd ⟨hs, h1⟩ h
  all_goals simp [e]

/-- The descriptors change in the matrix stream alone. -/
theorem strideAdd_dregs : (strideAdd s st lvl k).grp.dregs = if 128 ≤ strideSel s st lvl ∧ st = 2 then
    updAt s.grp.dregs (strideReg s st lvl) (fun x => dBase x (fun b => b + BitVec.ofInt 32 (strideAmount s st lvl k))) else s.grp.dregs := by
  obtain ⟨hs, e⟩ | ⟨hs, ⟨hst, e⟩ | ⟨hst, e⟩ | ⟨hst, e⟩ | ⟨hst, e⟩⟩ := strideAdd_cases s st lvl k <;> rw [e]
  case inr.inr.inr.inl => rw [if_pos ⟨hs, hst⟩]; rfl
  all_goals rw [if_neg (by omega)]
  case inr.inl => exact State.setX_grp_dregs ..
  all_goals rfl

/-- The address registers change in the copy stream alone. -/
theorem strideAdd_aregs : (strideAdd s st lvl k).grp.aregs = if 128 ≤ strideSel s st lvl ∧ 3 ≤ st then
    updAt s.grp.aregs (strideReg s st lvl) (fun x => x + BitVec.ofInt 64 (strideAmount s st lvl k)) else s.grp.aregs := by
  obtain ⟨hs, e⟩ | ⟨hs, ⟨hst, e⟩ | ⟨hst, e⟩ | ⟨hst, e⟩ | ⟨hst, e⟩⟩ := strideAdd_cases s st lvl k <;> rw [e]
  case inr.inr.inr.inr => rw [if_pos ⟨hs, hst⟩]; rfl
  all_goals rw [if_neg (by omega)]
  case inr.inl => exact State.setX_grp_aregs ..
  all_goals rfl

end

-- The end of an iteration ---------------------------------------------------------------------------------------------------

/-- How often the stride is added after iteration `idx` of `n`: once, or after the last one as often as takes it back (R86). -/
def strideTimes (n idx : Nat) : Int := if idx + 1 < n then 1 else -((n : Int) - 1)

/-- A stream after the end of iteration `l.idx` of `n` of its innermost level, with the levels `ls` around it (R86). -/
def iterated (n : Nat) (l : OpenLevel) (ls : List OpenLevel) (t : StreamSt) : StreamSt :=
  if l.idx + 1 < n then { t with levels := { l with idx := l.idx + 1 } :: ls, pc := BitVec.ofNat 64 l.start, run := .ready }
  else { t with levels := ls, replay := if ls.isEmpty then [] else t.replay, run := .ready }

theorem iterated_more {n : Nat} {l : OpenLevel} {ls : List OpenLevel} {t : StreamSt} (h : l.idx + 1 < n) :
    (iterated n l ls t).levels = { l with idx := l.idx + 1 } :: ls ∧ (iterated n l ls t).pc = BitVec.ofNat 64 l.start ∧
    (iterated n l ls t).replay = t.replay := by simp [iterated, h]
theorem iterated_last {n : Nat} {l : OpenLevel} {ls : List OpenLevel} {t : StreamSt} (h : ¬ l.idx + 1 < n) :
    (iterated n l ls t).levels = ls ∧ (iterated n l ls t).pc = t.pc ∧ (ls = [] → (iterated n l ls t).replay = []) := by
  simp only [iterated, if_neg h, true_and]; rintro rfl; rfl

/-- A step of the sequencer is the stride update and then the next iteration or the close (R86). -/
theorem loopStep_cons {s : State} {st : Nat} {l : OpenLevel} {ls : List OpenLevel} (hl : (s.grp.stream st).levels = l :: ls) :
    loopStep s st = (strideAdd s st l.lvl (strideTimes (s.grp.loopEnt l.lvl).count l.idx)).updStream st
      (iterated (s.grp.loopEnt l.lvl).count l ls) := by
  unfold loopStep strideTimes iterated
  rw [hl]
  by_cases h : l.idx + 1 < (s.grp.loopEnt l.lvl).count <;> simp [h]

theorem atLoopEnd_cons {g : Group} {st : Nat} {l : OpenLevel} {ls : List OpenLevel} (hl : (g.stream st).levels = l :: ls)
    (hm : ¬ (g.hmode = true ∧ st = 0)) : atLoopEnd g st = (l.stop == (g.stream st).pc.toNat) := by
  have mode : (g.hmode && st == 0) = false := by simpa using hm
  simp [atLoopEnd, hl, mode]

/-- The state in which the end of an iteration acts: in the vector stream, with the results due written (R158). -/
def atIterationEnd (s : State) : State := if s.strm = .v then retireDue s else s

theorem atIterationEnd_frame (s : State) : LandingFrame s (atIterationEnd s) := by
  unfold atIterationEnd; split
  · exact retireDue_frame s
  · exact .refl s

/-- The vector stream waits for the register of its stride or for a place in flight (R91, R159, R185). -/
def UpdateWaits (s : State) : Prop :=
  s.strm = .v ∧ (updateHeld (atIterationEnd s).grp = true ∨
    ((seqTarget (atIterationEnd s).grp).isSome = true ∧ 8 ≤ (atIterationEnd s).grp.flight.length))

theorem iterationEnd_elsewhere {s : State} (hp : Placed s) (h : atLoopEnd s.grp s.strm.num = false) :
    exec .loopIterationEnd s = .next s := by
  simp [exec_loopIterationEnd, execLoopIterationEnd, noGroup_false hp, strmNo_eq_num, h]

theorem iterationEnd_vector {s : State} (hp : Placed s) (hv : s.strm = .v) (h : atLoopEnd s.grp s.strm.num = true) :
    exec .loopIterationEnd s = if updateHeld (atIterationEnd s).grp = true ∨
      ((seqTarget (atIterationEnd s).grp).isSome = true ∧ 8 ≤ (atIterationEnd s).grp.flight.length)
      then .next (vWait (atIterationEnd s)) else .next (loopStep (atIterationEnd s) s.strm.num) := by
  have h1 : s.strm.num = 1 := congrArg Stream.num hv
  rw [h1] at h
  simp [exec_loopIterationEnd, execLoopIterationEnd, noGroup_false hp, strmNo_eq_num, atIterationEnd, if_pos hv, h1, h]

theorem iterationEnd_waits {s : State} (hp : Placed s) (h : atLoopEnd s.grp s.strm.num = true) (hw : UpdateWaits s) :
    exec .loopIterationEnd s = .next (vWait (atIterationEnd s)) :=
  (iterationEnd_vector hp hw.1 h).trans (if_pos hw.2)

/-- Where it need not wait, the stream takes a step of the sequencer. -/
theorem iterationEnd_steps {s : State} (hp : Placed s) (h : atLoopEnd s.grp s.strm.num = true) (hw : ¬ UpdateWaits s) :
    exec .loopIterationEnd s = .next (loopStep (atIterationEnd s) s.strm.num) := by
  by_cases hv : s.strm = .v
  · exact (iterationEnd_vector hp hv h).trans (if_neg (fun hu => hw ⟨hv, hu⟩))
  · have h1 : s.strm.num ≠ 1 := fun e => hv (Stream.num_inj.mp e)
    simp [exec_loopIterationEnd, execLoopIterationEnd, noGroup_false hp, strmNo_eq_num, h, h1, atIterationEnd, hv]

/-- That step, by the level and the loop table of the state before: results that land change neither. -/
theorem loopStep_atIterationEnd {s : State} {st : Nat} {l : OpenLevel} {ls : List OpenLevel} (hl : (s.grp.stream st).levels = l :: ls) :
    loopStep (atIterationEnd s) st =
      (strideAdd (atIterationEnd s) st l.lvl (strideTimes (s.grp.loopEnt l.lvl).count l.idx)).updStream st
        (iterated (s.grp.loopEnt l.lvl).count l ls) := by
  have frame := atIterationEnd_frame s
  rw [← frame.loopEnt]
  exact loopStep_cons (by rw [frame.stream, hl])

/-- Settles O32: the step is `loopStep` in the state with the results due written, which changes the levels as `iterated` says and at most the
register that the level's selector names. -/
theorem loopIterations : Obligations.LoopIterations := by
  intro l ls s hp st u e more held hl hm
  have hat : atLoopEnd s.grp st = (l.stop == (s.pc st).toNat) := atLoopEnd_cons hl hm
  have frame : LandingFrame s u := atIterationEnd_frame s
  have ent : u.grp.loopEnt l.lvl = e := frame.loopEnt _
  refine ⟨fun hne => iterationEnd_elsewhere hp (hat.trans (by simpa using hne)),
    fun heq hh => iterationEnd_waits hp (hat.trans (by simpa using heq)) hh,
    fun heq hh => ⟨(strideAdd u st l.lvl (strideTimes e.count l.idx)).updStream st (iterated e.count l ls),
      (iterationEnd_steps hp (hat.trans (by simpa using heq)) hh).trans (congrArg _ (loopStep_atIterationEnd hl)), ?_⟩⟩
  have stream : ((strideAdd u st l.lvl (strideTimes e.count l.idx)).updStream st (iterated e.count l ls)).grp.stream st =
      iterated e.count l ls (s.grp.stream st) := by
    rw [State.updStream_grp, Group.stream_updStream_self _ _ _ (Stream.num_lt_four _), strideAdd_stream, frame.stream]
  refine ⟨(strideAdd_mem ..).trans frame.mem, fun h => ?_, fun h => ?_, ?_⟩
  · rw [State.pc, stream]
    exact iterated_more h
  · rw [State.pc, stream]
    exact iterated_last h
  intro sel r times d on
  have hsel : strideSel u st l.lvl = sel := congrArg (fun e => (e.sels.getD st 0).toNat) ent
  have hreg : strideReg u st l.lvl = r := congrArg (· % 32) hsel
  have hamt : strideAmount u st l.lvl times = d := congrArg (fun e => (e.strides.getD st 0).toInt * times) ent
  have active {x : Stream} (h : on x) : 128 ≤ strideSel u st l.lvl ∧ st = x.num := ⟨hsel.symm ▸ h.1, congrArg Stream.num h.2⟩
  have idle {x : Stream} (h : ¬ on x) : ¬ (128 ≤ strideSel u st l.lvl ∧ st = x.num) :=
    fun ⟨h1, h2⟩ => h ⟨hsel ▸ h1, Stream.num_inj.mp h2⟩
  simp only [State.x_updStream, State.updStream_grp, Group.updStream_gregs, Group.updStream_vcyc, Group.updStream_flight, Group.updStream_vregs,
    Group.updStream_dregs, Group.updStream_aregs]
  refine ⟨fun hs hlen => ?_, fun hs => ?_, fun hv => ?_, fun hv => ?_, strideAdd_vregs .., ?_, ?_⟩
  · obtain ⟨h128, h0⟩ := active hs
    have h := strideAdd_scalar_x u l.lvl times h128 h0 (frame.gregs.symm ▸ hlen)
    simp only [hreg, hamt, frame.gregs, frame.x] at h
    exact h
  · exact (strideAdd_gregs _ _ _ _ (idle hs)).trans frame.gregs
  · obtain ⟨h128, h1⟩ := active hv
    have ha : strideAdd u st l.lvl times = vecStride u r (BitVec.ofInt 32 d) := by
      rw [← hreg, ← hamt]; exact strideAdd_vector u l.lvl _ h128 h1
    exact ha ▸ ⟨rfl, rfl⟩
  · obtain ⟨flight, vcyc⟩ := strideAdd_flight u st l.lvl times (idle hv)
    exact ⟨flight, vcyc.trans frame.vcyc⟩
  · have hst : st = 2 ↔ s.strm = .m := Stream.num_inj (y := .m)
    have h := strideAdd_dregs u st l.lvl times
    simp only [hsel, hreg, hamt, frame.dregs, hst] at h
    exact h
  · have hst : 3 ≤ st ↔ s.strm = .c := Stream.three_le_num
    have h := strideAdd_aregs u st l.lvl times
    simp only [hsel, hreg, hamt, frame.aregs, hst] at h
    exact h

end Sys2Proof.Machine
end

section
/-! SUPPORT. Tokens and the format queue from the scalar stream (R102, R103, R106, R107). -/

namespace Sys2Proof.Machine

-- Token counters -----------------------------------------------------------------------------------------------------------

/-- A mask that is not zero names a peer (R106). -/
theorem sPeers_named : ∀ {v m c : BitVec 1}, ¬ (v = 0 ∧ m = 0 ∧ c = 0) → (sPeers v m c).isEmpty = false := by decide

/-- R102: the counter from stream `x` to stream `y` is named by the pops of the one and the pushes of the other. -/
theorem popIdx_eq_pushIdx : ∀ x < 4, ∀ y < 4, x ≠ y →
    popIdx y (if x < y then x else x - 1) = pushIdx x (if y < x then y else y - 1) ∧
    prodOf (pushIdx x (if y < x then y else y - 1)) = x ∧ consOf (pushIdx x (if y < x then y else y - 1)) = y := by decide

theorem updAt_updAt {α : Type} (l : List α) (i : Nat) (f f' : α → α) : updAt (updAt l i f) i f' = updAt l i (fun x => f' (f x)) := by
  induction l generalizing i with
  | nil => cases i <;> rfl
  | cons x xs ih => cases i <;> simp [updAt, ih]

/-- An update that gives an element back is none. -/
theorem updAt_eq_self {α : Type} (l : List α) (i : Nat) (f : α → α) (d : α) (h : f (l.getD i d) = l.getD i d) : updAt l i f = l := by
  induction l generalizing i with
  | nil => cases i <;> rfl
  | cons x xs ih =>
    cases i with
    | zero => simpa [updAt] using h
    | succ i => simp [updAt, ih i (by simpa using h)]

section
variable (g : Group) (i n : Nat)

/-- A push to one counter (R103). -/
theorem Group.pushToks_singleton_toks : (g.pushToks [i] n).toks = updAt g.toks i (fun t => min 63 (t + n)) := by
  unfold Group.pushToks; dsimp only; split <;> rfl

theorem Group.tok_pushToks_self (h : i < g.toks.length) : (g.pushToks [i] n).tok i = min 63 (g.tok i + n) := by
  unfold Group.tok; rw [Group.pushToks_singleton_toks, getD_updAt_self _ _ _ _ h]

theorem Group.tok_pushToks_other {j : Nat} (h : j ≠ i) : (g.pushToks [i] n).tok j = g.tok j := by
  unfold Group.tok; rw [Group.pushToks_singleton_toks, getD_updAt_other _ _ _ _ _ h.symm]

/-- A pop takes back what a push that is not saturated has added. -/
theorem Group.toks_push_pop (h : g.tok i + n ≤ 63) : ((g.pushToks [i] n).updToks [i] (fun t => t - n)).toks = g.toks := by
  show updAt (g.pushToks [i] n).toks i _ = g.toks
  rw [Group.pushToks_singleton_toks, updAt_updAt]
  exact updAt_eq_self _ _ _ 0 (by unfold Group.tok at h; omega)

/-- A lost increment sets TOKSAT. -/
theorem Group.toksat_pushToks (h : 63 < g.tok i + n) : (g.pushToks [i] n).toksat = true := by
  simp [Group.pushToks, h]

end

-- The token instructions -----------------------------------------------------------------------------------------------------

section
variable {s : State} {v m c : BitVec 1} {n : BitVec 6} {a : BitVec 5}

theorem execToksend_next (hp : Placed s) (hm : s.grp.hmode = false) (hn : n ≠ 0) (hv : ¬ (v = 0 ∧ m = 0 ∧ c = 0)) (hq : RedQuiet s 0)
    (hr : pushRoom s.grp (sPeers v m c) n.toNat = true) :
    exec (.toksend v m c n) s =
      .next (clearRemote ((s.updGrp (fun g => g.pushToks (sPeers v m c) n.toNat)).advance 0) 0) := by
  have legal : ((sPeers v m c).isEmpty || n == 0 || s.grp.hmode) = false := by simp only [sPeers_named hv, beq_false_of_ne hn, hm, Bool.or_self]
  show execToksend v m c n s = _
  simp only [execToksend, noGroup_false hp, legal, Bool.false_eq_true, if_false]
  rw [redGate_quiet _ hp hq, sDo_ok hp (if_pos hr)]

theorem execTokwait_next (hp : Placed s) (hm : s.grp.hmode = false) (hn : n ≠ 0) (hv : ¬ (v = 0 ∧ m = 0 ∧ c = 0))
    (ho : orphan s.grp ((sPeers v m c).map (fun y => 3 * y + 3)) n.toNat = none)
    (hr : popsReady s.grp ((sPeers v m c).map (fun y => 3 * y + 3)) n.toNat = true) :
    exec (.tokwait v m c n) s = .next (clearRemote
      ((s.updGrp (fun g => g.updToks ((sPeers v m c).map (fun y => 3 * y + 3)) (fun t => t - n.toNat))).advance 0) 0) := by
  have named : ((sPeers v m c).map (fun y => 3 * y + 3)).isEmpty = false := by simpa using sPeers_named hv
  exact (sDoIf_true _ hp (by simp only [named, bne_iff_ne.mpr hn, hm, Bool.not_false, Bool.and_self])).trans (sDo_ok hp (by simp only [ho, hr, if_true]))

theorem execFmtq_queues (hp : Placed s) (hm : s.grp.hmode = false) (he : s.grp.ended 2 = false) (hl : s.grp.fmtq.length < 16) :
    exec (.fmtq a) s = .next (clearRemote ((s.updGrp (fun g => { g with fmtq := g.fmtq ++ [s.x a] })).advance 0) 0) :=
  (sDoIf_true _ hp (by simp [hm])).trans (sDo_ok hp (by simp [he, Nat.not_le.mpr hl]))

theorem execFmtq_counts (hp : Placed s) (hm : s.grp.hmode = false) (he : s.grp.ended 2 = true) :
    exec (.fmtq a) s = .next (clearRemote ((s.updGrp (fun g => { g with fmtres := min 255 (g.fmtres + 1) })).advance 0) 0) :=
  (sDoIf_true _ hp (by simp [hm])).trans (sDo_ok hp (if_pos he))

end

/-- Settles O21: outside handler mode each instruction passes its checks, and the counters are a list of which a push and a pop change
one element. -/
theorem tokenInstructions : Obligations.TokenInstructions := by
  refine ⟨fun v m c n a s hp hm => ⟨execToksend_next hp hm, execTokwait_next hp hm, execFmtq_queues hp hm, execFmtq_counts hp hm⟩,
    fun x y hx hy hxy => popIdx_eq_pushIdx x hx y hy hxy, fun g i n hl hi => ?_⟩
  exact ⟨g.tok_pushToks_self i n (hl ▸ hi), g.toks_push_pop i n, g.toksat_pushToks i n, fun j hj => g.tok_pushToks_other i n hj⟩

end Sys2Proof.Machine
end

section
/-! SUPPORT. The ends of streams, `exit` and `nop` of the vector, matrix and copy streams (R45, R109, R110). -/

namespace Sys2Proof.Machine

section
variable {s : State} {res : BitVec 16} {p q : BitVec 3}

-- The scalar stream's end ----------------------------------------------------------------------------------------------------

theorem sEnd_drains (hp : Placed s) (hm : s.grp.hmode = false) (hr : res ≠ 0xFFFF) (hq : RedQuiet s 4) :
    sEnd s res = .next (startDrain s 0 res 0) := by
  have legal : (s.grp.hmode || res == 0xFFFF) = false := by rw [hm, beq_false_of_ne hr]; rfl
  simp only [sEnd, noGroup_false hp, legal, Bool.false_eq_true, if_false]
  exact redGate_quiet _ hp hq

theorem sEnd_illegal (hp : Placed s) (h : s.grp.hmode = true ∨ res = 0xFFFF) : sEnd s res = .next (illegal s 0) := by
  have reserved : (s.grp.hmode || res == 0xFFFF) = true := by simpa using h
  simp only [sEnd, noGroup_false hp, reserved, Bool.false_eq_true, if_true, if_false]

theorem execExit_stops (i : BitVec 16) (hp : Placed s) (hq : RedQuiet s 4) : exec (.exit i) s =
    .next (stopBoth (s.updStream 0 (fun t => { t with result := 0xFFFF })) .exited (i.setWidth 32) []) := by
  show execExit i s = _
  exact redGate_quiet _ hp hq

-- The ends of the other streams ----------------------------------------------------------------------------------------------

theorem endXn_reserved (hp : Placed s) : endXn s p q 0xFFFF = .next (illegal s s.strm.num) := by
  rw [← strmNo_eq_num]; simp [endXn, noGroup_false hp]

/-- In the state `t` in which its tokens are looked at, with the vector results due written, the stream makes its pops, reserves its pushes and
drains; the matrix stream's earlier tile command has completed by then (log entry 36). -/
theorem endXn_drains {t : State} (hp : Placed s) (hr : res ≠ 0xFFFF) (hc : s.strm = .m → s.grp.mcmd = none)
    (ht : (if s.strm.num == 1 then retireDue s else s) = t) (ho : TokOpen t s.strm.num p q) :
    endXn s p q res = .next (issued (startDrain (tokIssue t s.strm.num p q) s.strm.num res q) s.strm.num) := by
  have completed : (s.strm.num == 2 && s.grp.mcmd.isSome) = false := by
    by_cases h : s.strm = .m
    · simp [hc h]
    · simp [show s.strm.num ≠ 2 from fun e => h ((Stream.num_inj (y := .m)).mp e)]
  simp only [endXn, strmNo_eq_num, noGroup_false hp, beq_false_of_ne hr, completed, ht, Bool.false_eq_true, if_false]
  rw [show tokCheck t s.strm.num p q = .ok () t from ho]

/-- The matrix and the copy stream have no results to write, and no stream cycles. -/
theorem endXn_drains_matrixCopy (hp : Placed s) (hs : s.strm = .m ∨ s.strm = .c) (hr : res ≠ 0xFFFF) (hc : s.strm = .m → s.grp.mcmd = none)
    (ho : TokOpen s s.strm.num p q) :
    endXn s p q res = .next (startDrain (tokIssue s s.strm.num p q) s.strm.num res q) := by
  rw [endXn_drains hp hr hc (by rcases hs with h | h <;> rw [h] <;> rfl) ho]
  rcases hs with h | h <;> rw [h] <;> rfl

theorem endXn_drains_vector (hp : Placed s) (hs : s.strm = .v) (hr : res ≠ 0xFFFF) (ho : TokOpen (retireDue s) 1 p q) :
    endXn s p q res = .next (vTick (startDrain (tokIssue (retireDue s) 1 p q) 1 res q)) := by
  have h1 : s.strm.num = 1 := congrArg Stream.num hs
  rw [endXn_drains (t := retireDue s) hp hr (by simp [hs]) (by rw [h1]; rfl) (by rwa [h1]), h1]
  rfl

-- `nop` ------------------------------------------------------------------------------------------------------------------------

theorem execNopXn_matrixCopy (hp : Placed s) (hs : s.strm = .m ∨ s.strm = .c) (ho : TokOpen s s.strm.num p q) :
    exec (.nopXn p q) s = .next (tDone s s.strm.num p q) := by
  have h1 : (s.strm.num == 1) = false := by rcases hs with h | h <;> rw [h] <;> rfl
  show execNopXn p q s = _
  simp only [execNopXn, strmNo_eq_num, h1, Bool.false_eq_true, if_false]
  exact tDo_ok hp ho rfl

theorem execNopXn_vector (hp : Placed s) (hs : s.strm = .v) (ho : VOpen s p q [] false false) :
    exec (.nopXn p q) s = .next (vDone ((retireDue s).advance 1) p q) := by
  have h1 : s.strm.num = 1 := congrArg Stream.num hs
  show execNopXn p q s = _
  simp only [execNopXn, strmNo_eq_num, h1, beq_self_eq_true, if_true]
  exact vDo_ok hp ho rfl

end

/-- Settles O22: each end is `sEnd` or `endXn` with its result, and 0 is not the reserved one. -/
theorem streamEnds : Obligations.StreamEnds := by
  have zero : (0 : BitVec 16) ≠ 0xFFFF := by decide
  refine ⟨fun p q i s hp => ⟨fun hm hq => ⟨sEnd_drains hp hm zero hq, fun hi => sEnd_drains hp hm hi hq⟩,
      execExit_stops i hp, fun hs hc ho => ?_, fun hs ho => ?_, fun hs ho => ?_, execNopXn_vector hp⟩,
    fun p q i s hp => ⟨sEnd_illegal hp (.inr rfl), endXn_reserved hp,
      fun hm => ⟨sEnd_illegal hp (.inl hm), sEnd_illegal hp (.inl hm)⟩⟩⟩
  · exact ⟨endXn_drains_matrixCopy hp hs zero hc ho, fun hi => endXn_drains_matrixCopy hp hs hi hc ho, execNopXn_matrixCopy hp hs ho⟩
  · have h2 : s.strm.num = 2 := congrArg Stream.num hs
    exact h2 ▸ execNopXn_matrixCopy hp (.inl hs) (h2.symm ▸ ho)
  · exact ⟨endXn_drains_vector hp hs zero ho, fun hi => endXn_drains_vector hp hs hi ho⟩

end Sys2Proof.Machine
end

section
/-! SUPPORT. What happens to a placed group on its own: ends of its streams (R109), traps and asynchronous faults (R63, R64, R331),
pre-emption and saves (R72, R73), retirement (R111), promotion requests (R298 to R302) and interrupts by handle (R125). -/

namespace Sys2Proof.Machine

-- Ends of streams ----------------------------------------------------------------------------------------------------------

/-- The vector stream has no load that is undecided or to be replayed, no multi-step instruction and no result in flight (R109). -/
def VectorIdle (g : Group) : Prop := g.vld = none ∧ g.vcmd = none ∧ g.vreplay = none ∧ g.flight = []

theorem vectorBusy_iff (g : Group) : (g.vld.isSome || g.vcmd.isSome || g.vreplay.isSome || !g.flight.isEmpty) = true ↔ ¬ VectorIdle g := by
  cases h1 : g.vld <;> cases h2 : g.vcmd <;> cases h3 : g.vreplay <;> simp [VectorIdle, h1, h2, h3]

/-- A stream that completes is ENDED with the result it was to record, and its sequencer is discarded (R109). -/
theorem endStream_stream (s : State) {st : Nat} (h : st < 4) : (endStream s st).grp.stream st =
    { s.grp.stream st with run := .ended, result := (s.grp.stream st).pendResult, levels := [], replay := [] } := by
  unfold endStream
  rw [State.updStream_grp, Group.stream_updStream_self _ _ _ h]
  split
  · rfl
  · rw [State.updGrp_grp, Group.pushToks_eq]; rfl

section
variable {s u : State} {h : BitVec 64}

/-- The vector stream's end waits, and a stream cycle passes. -/
theorem streamEnded_waits {n : BitVec 2} (hu : s.focus h = u) (hf : u.focused h = true) (hr : u.grp.st = .running)
    (hd : (u.grp.stream n.toNat).run = .draining) (hn : n.toNat = 1) (hi : ¬ VectorIdle (retireDue u).grp) :
    exec (.streamEnded h n) s = .next (vTick (retireDue u)) := by
  rw [hn] at hd
  show execStreamEnded h n s = _
  simp [execStreamEnded, hu, hf, hr, hn, hd, (vectorBusy_iff _).mpr hi]

/-- A draining stream whose earlier instructions have completed ends (R109). -/
theorem streamEnded_ends {n : BitVec 2} (hu : s.focus h = u) (hf : u.focused h = true) (hr : u.grp.st = .running)
    (hd : (u.grp.stream n.toNat).run = .draining) {v : State} (hv : (if n.toNat = 1 then retireDue u else u) = v)
    (hi : n.toNat = 1 → VectorIdle v.grp) :
    exec (.streamEnded h n) s = .next (retireIfEnded (endStream v n.toNat)) := by
  show execStreamEnded h n s = _
  by_cases hn : n.toNat = 1
  · rw [if_pos hn] at hv
    have idle := mt (vectorBusy_iff v.grp).mp (not_not_intro (hi hn))
    rw [hn] at hd
    simp only [execStreamEnded, hu, hf, hr, hn, hd, hv, idle]; rfl
  · obtain rfl : u = v := (if_neg hn).symm.trans hv
    simp [execStreamEnded, hu, hf, hr, hd, hn]

-- Traps and faults from outside a stream -------------------------------------------------------------------------------------

/-- With no trap and no fault before it, an interrupt that can be taken traps (R63). -/
theorem trapDelivery_interrupt (hu : s.focus h = u) (hf : u.focused h = true) (hc : canTrap u = true) (ht : u.grp.takeable = true)
    (ha : u.grp.asyncs = []) (hp : u.grp.pendTraps = []) : exec (.trapDelivery h) s =
      .next (takeTrap (u.updGrp (fun g => { g with ipend := false, ipval := 0 }))
        { code := 0xFE, stream := 0, info := u.grp.ipval, fault := none, vld := none }) := by
  show execTrapDelivery h s = _
  simp [execTrapDelivery, hu, hf, hc, ht, ha, hp]

/-- The oldest pended trap is taken as soon as it can be (R64). -/
theorem trapDelivery_pended {p : PendTrap} {ps : List PendTrap} (hu : s.focus h = u) (hf : u.focused h = true) (hp : u.grp.pendTraps = p :: ps) :
    exec (.trapDelivery h) s = .next (if canTrap u then trapNow (u.updGrp (fun g => { g with pendTraps := ps })) p else u) := by
  show execTrapDelivery h s = _
  simp [execTrapDelivery, hu, hf, hp]

theorem trapNow_faultless {p : PendTrap} (hp : p.fault = none) : trapNow s p = enterTrap s p.code p.stream p.info 0 p.vld := by
  simp only [trapNow, hp]
theorem trapNow_handled {p : PendTrap} {f : FaultInfo} (hp : p.fault = some f) (hh : handles s f.code = true) :
    trapNow s p = enterTrap s p.code p.stream p.info (recNat f false s.grp.handle) p.vld := by
  simp only [trapNow, hp, hh, if_true]
theorem trapNow_unhandled {p : PendTrap} {f : FaultInfo} (hp : p.fault = some f) (hh : handles s f.code = false) :
    trapNow s p = stopBoth s .aborted 0 (recBytes s f) := by
  simp only [trapNow, hp, hh, Bool.false_eq_true, if_false]

/-- The oldest asynchronous fault is delivered at the copy stream's boundary (R331). -/
theorem asyncFaultDelivery_delivers {f : FaultInfo} {fs : List FaultInfo} (hu : s.focus h = u) (hf : u.focused h = true)
    (ha : u.grp.asyncs = f :: fs) (hs : u.grp.st ≠ .saved) (hh : u.grp.pairHold = false) (hv : u.grp.saving = false)
    (hm : coreMoving u u.grp = false) (ht : u.grp.st = .running → canTrap u = true ∧ u.grp.pendTraps = []) :
    exec (.asyncFaultDelivery h) s =
      .next (deliver ((settleSeq u 3).updGrp (fun g => { g with asyncs := fs })) { f with pc := (settleSeq u 3).pc 3 }) := by
  have boundary : (u.grp.st == .running && (!canTrap u || !u.grp.pendTraps.isEmpty)) = false := by
    by_cases hr : u.grp.st = .running
    · obtain ⟨hc, hp⟩ := ht hr
      simp [hc, hp]
    · simp [hr]
  show execAsyncFaultDelivery h s = _
  simp only [execAsyncFaultDelivery, hu, ha, hf, beq_false_of_ne hs, hh, hv, hm, boundary]; rfl

-- Pre-emption and saves ------------------------------------------------------------------------------------------------------

/-- A deadline that has passed puts a save in full at the head of the agenda (R72). -/
theorem preemptionDeadline_saves (hu : s.focus h = u) (hf : u.focused h = true) (hq : u.grp.preq = true) (hv : u.grp.saving = false)
    (hd : u.grp.predl ≤ u.cycle) (hs : u.grp.st = .running ∨ u.grp.st = .handler) (hm : coreMoving u u.grp = false) :
    exec (.preemptionDeadline h) s =
      .next (({ u with agenda := .event (.groupSave h) :: u.agenda }).updGrp (fun g => { g with hint := none })) := by
  show execPreemptionDeadline h s = _
  simp [execPreemptionDeadline, hu, hf, hq, hv, hd, hs, hm]

theorem onPartner_single {f : State → State} (hp : s.grp.partner = 0) : onPartner s f = s := by
  simp [onPartner, hp]
theorem partnerOf_single {g : Group} (hp : g.partner = 0) : partnerOf s g = none := by
  simp [partnerOf, hp]

theorem groupSave_notDue (hu : s.focus h = u) (hd : saveDue u = false) : exec (.groupSave h) s = .next u := by
  show execGroupSave h s = _
  simp [execGroupSave, hu, hd]

/-- A save that is due of a group without a partner: its streams issue nothing new, and once what they have begun can be left and an
undecided `vld` is decided, the group is saved (R72, R73, R160). -/
theorem groupSave_due (hu : s.focus h = u) (hf : u.focused h = true) (hd : saveDue u = true) (hp : u.grp.partner = 0)
    (ht : u.grp.saving = true ∨ trapFirst u = false) {m : State} (hm : u.updGrp (fun g => { g with saving := true }) = m) :
    (quiet m = false → exec (.groupSave h) s = .next m) ∧
    (quiet m = true → ∀ v, saveVld m = (false, v) → v.grp.partner = 0 → exec (.groupSave h) s = .next (saveNow h v)) := by
  have single : m.grp.partner = 0 := by rw [← hm]; exact hp
  have goes : (!u.grp.saving && trapFirst u) = false := by rcases ht with h | h <;> simp [h]
  have none' := partnerOf_single (s := m) single
  show (_ → execGroupSave h s = _) ∧ (_ → ∀ v, _ → _ → execGroupSave h s = _)
  simp only [execGroupSave, hu, hf, hd, goes, hm, onPartner_single single, none']
  refine ⟨fun hq => by rw [hq]; rfl, fun hq v hv hvp => ?_⟩
  rw [hq, hv]
  simp [partnerOf_single hvp]

/-- A group without a partner whose streams have not all ended takes its image once its fabric-scope release is done (R73). -/
theorem saveNow_single {v w : State} (hp : (stopForSave v).grp.partner = 0)
    (ho : ((stopForSave v).grp.st == .running && (stopForSave v).grp.allEnded) = false) (hr : saveRelease (stopForSave v) = some w) :
    saveNow h v = settle (saveBody w) := by
  simp only [saveNow, onPartner_single hp, partnerOf_single hp, ho, hr]; rfl

-- Retirement -----------------------------------------------------------------------------------------------------------------

/-- A stopped group retires: at once where its job slot is free, else once its die-scope release is done (R111). -/
theorem groupRetire_retires (hu : s.focus h = u) (hf : u.focused h = true)
    (hs : u.grp.st = .retiring ∨ (u.grp.st = .stopping ∧ u.grp.allStopped = true)) (hr : u.grp.retired = false) {v : State}
    (hv : (retireAll u).updGrp (fun g => { g with st := .retiring }) = v) (hw : recordWaits v v.grp = false) :
    (4 ≤ v.grp.slot → exec (.groupRetire h) s = .next (retireBody v)) ∧
    (v.grp.slot < 4 → ∀ w, release v h v.grp.core 2 = .ok () w → exec (.groupRetire h) s = .next (retireBody w)) := by
  have ready : (u.grp.st == .stopping || u.grp.st == .retiring) = true := by
    rcases hs with h | ⟨h, -⟩ <;> rw [h] <;> rfl
  have stopped : (u.grp.st == .stopping && !u.grp.allStopped) = false := by
    rcases hs with h | ⟨-, h⟩ <;> rw [h]
    · rfl
    · simp
  show (_ → execGroupRetire h s = _) ∧ (_ → ∀ w, _ → execGroupRetire h s = _)
  simp only [execGroupRetire, hu, hf, ready, hr, stopped, Bool.false_and, Bool.false_eq_true, if_false, hv, hw]
  refine ⟨fun hl => ?_, fun hl w hrel => ?_⟩
  · simp [hl]
  · simp [Nat.not_le.mpr hl, hrel]

end

-- Groups by their handle -----------------------------------------------------------------------------------------------------

theorem State.handle_of_groupOf {s : State} {h : W64} {x : Group} (hx : s.groupOf h = some x) : x.handle = h := by
  simpa using List.find?_some hx

/-- What an update of the group of a handle does to each group. -/
def Group.updIf (h : W64) (f : Group → Group) (g : Group) : Group := if g.handle == h then f g else g

theorem Group.updIf_keeps {α : Type} (π : Group → α) {h : W64} {f : Group → Group} (hf : ∀ g, π (f g) = π g) (g : Group) :
    π (g.updIf h f) = π g := by
  unfold Group.updIf; split
  · exact hf g
  · rfl

section
variable (s : State) (h : W64) {f : Group → Group}

theorem State.groups_updGroup (hst : ∀ g, (f g).st = g.st) : (s.updGroup h f).groups = s.groups.map (Group.updIf h f) := by
  have others : (s.others.map (Group.updIf h f)).filter (fun g => g.st != .none) =
      (s.others.filter (fun g => g.st != .none)).map (Group.updIf h f) := by
    simp only [List.filter_map, Function.comp_def, Group.updIf_keeps _ hst]
  show ((if s.grp.st != .none && s.grp.handle == h then f s.grp else s.grp) :: s.others.map (Group.updIf h f)).filter _ =
    ((s.grp :: s.others).filter _).map _
  by_cases hn : s.grp.st = .none
  · simpa [hn] using others
  · have focus : (if s.grp.st != .none && s.grp.handle == h then f s.grp else s.grp) = s.grp.updIf h f := by
      simp [Group.updIf, hn]
    rw [focus, List.filter_cons_of_pos (by simpa [Group.updIf_keeps _ hst] using hn), List.filter_cons_of_pos (by simpa using hn), others]
    rfl

/-- The group of a handle is found changed, where the change keeps handles and run states. -/
theorem State.groupOf_updGroup (hst : ∀ g, (f g).st = g.st) (hh : ∀ g, (f g).handle = g.handle) :
    (s.updGroup h f).groupOf h = (s.groupOf h).map f := by
  unfold State.groupOf
  rw [State.groups_updGroup s h hst, List.find?_map]
  simp only [Function.comp_def, Group.updIf_keeps _ hh]
  cases hx : s.groups.find? (fun g => g.handle == h) with
  | none => rfl
  | some x => simp [Group.updIf, State.handle_of_groupOf hx]

end

-- Promotion requests -----------------------------------------------------------------------------------------------------------

/-- The choice of the packet that is sent next counts the slots of its link alone (R358). -/
theorem nextSend_frame {s : State} {y : Packet × Nat × State} (hy : nextSend s = some y) : ∃ links, y.2.2 = { s with links := links } := by
  obtain ⟨n, -, hn⟩ := List.exists_of_findSome?_eq_some hy
  split at hn
  · split at hn
    · cases hn; exact ⟨_, rfl⟩
    · cases hn
  · cases hn

/-- Packets that are sent change the links and what waits outside them alone (R343). -/
theorem flushN_frame (k : Nat) (s : State) : ∃ outbox links, flushN k s = { s with outbox := outbox, links := links } := by
  induction k generalizing s with
  | zero => exact ⟨_, _, rfl⟩
  | succ k ih =>
    unfold flushN
    cases hy : nextSend s with
    | none => exact ⟨_, _, rfl⟩
    | some y =>
      obtain ⟨_, e⟩ := nextSend_frame hy
      obtain ⟨_, _, e'⟩ := ih (sendOn { y.2.2 with outbox := y.2.2.outbox.erase y.1 } y.2.1 y.1)
      exact ⟨_, _, e'.trans (by rw [e]; rfl)⟩

theorem sendReply_frame (s : State) (p : Packet) : ∃ outbox links, sendReply s p = { s with outbox := outbox, links := links } := by
  obtain ⟨o, l, e⟩ := flushN_frame (s.outbox ++ [{ p with srcm := BitVec.ofNat 6 s.modid }]).length
    { s with outbox := s.outbox ++ [{ p with srcm := BitVec.ofNat 6 s.modid }] }
  exact ⟨o, l, e⟩

section
variable {s : State} {h : W64} {p : Prom} {x : Group}

/-- An answered request is forgotten, or kept with its answer for the group that made it; groups stay (R301). -/
theorem answerProm_frame (s : State) (p : Prom) (res m : Nat) : ∃ proms host outbox links,
    answerProm s p res m = { s with proms := proms, host := host, outbox := outbox, links := links } ∧
    (proms = s.proms.erase p ∨ proms = s.proms.erase p ++ [{ p with ans := some (res, m) }]) := by
  unfold answerProm
  cases p.src with
  | host => exact ⟨_, _, _, _, rfl, .inl rfl⟩
  | remote k tag =>
    obtain ⟨_, _, e⟩ := sendReply_frame { s with proms := s.proms.erase p }
      { packet0 k 8 0 with tag := tag, arg := BitVec.ofNat 8 res }
    exact ⟨_, _, _, _, e, .inl rfl⟩
  | own _ => exact ⟨_, _, _, _, rfl, .inr rfl⟩
  | gone => exact ⟨_, _, _, _, rfl, .inl rfl⟩
  | eager => exact ⟨_, _, _, _, rfl, .inl rfl⟩

@[simp] theorem answerProm_groupOf (res m : Nat) (k : W64) : (answerProm s p res m).groupOf k = s.groupOf k := by
  obtain ⟨_, _, _, _, e, -⟩ := answerProm_frame s p res m
  rw [e]; rfl

/-- An answered request is no longer one to be served. -/
theorem nextProm_answerProm (res m : Nat) : nextProm (answerProm s p res m) h = nextProm { s with proms := s.proms.erase p } h := by
  obtain ⟨_, _, _, _, e, hp | hp⟩ := answerProm_frame s p res m <;> rw [e, hp] <;> simp [nextProm]

-- Serving ------------------------------------------------------------------------------------------------------------------------

/-- With nothing to serve and no promotion in progress, nothing moves. -/
theorem serveProms_idle (k : Nat) (hn : nextProm s h = none) (hx : s.groupOf h = some x) (hs : x.st = .saved ∨ x.snap = none) :
    serveProms k s h = s := by
  cases k with
  | zero => rfl
  | succ k =>
    have still : (s.groupOf h).bind (fun g => g.snap) = x.snap := by rw [hx]; rfl
    rcases hs with hs | hs
    · simp [serveProms, hn, hx, hs]
    · simp [serveProms, hn, hx, promoteStep, hs]

variable (k : Nat) (hn : nextProm s h = some p) (hx : s.groupOf h = some x) (hh : promHeld s x = false)
include hn hx hh

/-- A SAVED target answers by what its lookup has found (Table 15-2). -/
theorem serveProms_saved (hs : x.st = .saved) :
    serveProms (k + 1) s h = serveProms k (answerProm s p (if p.hit then 0 else 1) 0) h := by
  simp only [serveProms, hn, hx, hh, hs]; rfl

/-- A line that is not logged is answered 1 (R301). -/
theorem serveProms_unlogged (hs : x.st ≠ .saved) (hr : x.st ≠ .retiring) (hp : x.snap = none) (hrun : p.run = false) (hhit : p.hit = false)
    (hl : x.log.contains p.line = false) : serveProms (k + 1) s h = serveProms k (answerProm s p 1 0) h := by
  simp only [serveProms, hn, hx, hh, beq_false_of_ne hs, beq_false_of_ne hr, hp, hrun, hhit, hl]; rfl

/-- A promotion in progress takes a step (R299). -/
theorem serveProms_inProgress (hs : x.st ≠ .saved) (hp : x.snap.isSome = true) : serveProms (k + 1) s h =
    if ((promoteStep s h).groupOf h).any (fun g => g.snap.isSome) then promoteStep s h else serveProms k (promoteStep s h) h := by
  simp only [serveProms, hn, hx, hh, beq_false_of_ne hs, hp]; rfl

end

-- Arrivals and promotions --------------------------------------------------------------------------------------------------------

theorem tagLost_nil (s : State) : tagLost s [] = none := by
  simp [tagLost]

/-- A request of a line as it arrives at its target (R301). -/
def Prom.arriving (h : W64) (src : PromSrc) (line : Nat) (ctx : Option Nat) : Prom :=
  { target := h, src := src, line := line, ctx := ctx, hit := false, run := false, ans := none }

/-- A group whose promotion is over (R299). -/
def Group.promoted (g : Group) : Group := { g with snap := none }

theorem State.groupOf_promoted {s : State} {h : W64} {x : Group} (hx : s.groupOf h = some x) :
    (s.updGroup h Group.promoted).groupOf h = some x.promoted := by
  rw [State.groupOf_updGroup s h (f := Group.promoted) (fun _ => rfl) (fun _ => rfl), hx]; rfl

section
variable {s : State} {h : W64} {p : Prom} {x : Group}

/-- A begun promotion that waits for no answer is over, and the one request, which it serves, is answered 0 (R299, R301). -/
theorem promoteStep_over {q : Snap} (hx : s.groupOf h = some x) (hq : x.snap = some q) (hb : q.begun = true) (ht : q.tags = [])
    (hp : s.proms = [p]) (hh : p.target = h) (hr : p.run = true) (ha : p.ans = none) :
    promoteStep s h = answerProm (s.updGroup h Group.promoted) p 0 0 := by
  have snap : (s.groupOf h).bind (fun g => g.snap) = some q := by rw [hx]; exact hq
  have request : s.proms.find? (fun p => p.target == h && p.run && p.ans.isNone) = some p := by simp [hp, hh, hr, ha]
  simp only [promoteStep, snap, hb, ht, tagLost_nil, if_true]
  show (match s.proms.find? _ with | some r => _ | none => _) = _
  rw [request]; rfl

/-- The one unanswered request at a target is the next to be served. -/
theorem nextProm_only (hp : s.proms = [p]) (hh : p.target = h) (ha : p.ans = none) : nextProm s h = some p := by
  simp [nextProm, hp, hh, ha]

/-- Once it is answered there is none. -/
theorem nextProm_answered_only (hp : s.proms = [p]) (res m : Nat) : nextProm (answerProm s p res m) h = none := by
  rw [nextProm_answerProm]; simp [nextProm, hp]

/-- A request that arrives where none waits is the next to be served. -/
theorem nextProm_arrived (hn : nextProm s h = none) (hh : p.target = h) (ha : p.ans = none) :
    nextProm { s with proms := s.proms ++ [p] } h = some p := by
  unfold nextProm at hn ⊢
  rw [List.find?_append, hn]
  simp [hh, ha]

/-- Once it is answered, the requests are those from before. -/
theorem nextProm_answered_arrived (hn : nextProm s h = none) (hh : p.target = h) (ha : p.ans = none) (res m : Nat) :
    nextProm (answerProm { s with proms := s.proms ++ [p] } p res m) h = none := by
  have new : p ∉ s.proms := fun hm => by simpa [hh, ha] using List.find?_eq_none.mp hn p hm
  rw [nextProm_answerProm]
  simpa [nextProm, List.erase_append_right _ new] using hn

/-- A request whose line is not logged is answered 1 as it arrives (R301). -/
theorem promEnter_unlogged {src : PromSrc} {line : Nat} {ctx : Option Nat} (hx : s.groupOf h = some x) (hn : nextProm s h = none)
    (hh : promHeld s x = false) (hp : x.snap = none) (hr : x.st ≠ .retiring) (hs : x.st ≠ .saved) (hl : x.log.contains line = false) :
    promEnter s x src line ctx =
      answerProm { s with proms := s.proms ++ [.arriving h src line ctx] } (.arriving h src line ctx) 1 0 := by
  have miss : (!promHeld s x && (nextProm s h).isNone && promHit x line) = false := by simp only [promHit, hl, Bool.and_false]
  have entered : promEnter s x src line ctx = serve { s with proms := s.proms ++ [.arriving h src line ctx] } h := by
    simp only [promEnter, State.handle_of_groupOf hx, miss]; rfl
  rw [entered]
  unfold serve
  rw [serveProms_unlogged _ (x := x) (nextProm_arrived hn rfl rfl) hx hh hs hr hp rfl rfl hl,
    serveProms_idle _ (nextProm_answered_arrived hn rfl rfl 1 0) (by rw [answerProm_groupOf]; exact hx) (.inr hp)]

section
variable (line : BitVec 45) (c : BitVec 8) (m : BitVec 6) (tag : BitVec 16)

/-- A request of another module is looked up with the module and the tag that it came with. -/
theorem execPromoteRequest_remote : exec (.promoteRequest h line c (m.setWidth 7) tag) s =
    .next (match s.groupOf h with
      | none => answerProm s (.arriving h (.remote m.toNat tag) line.toNat (some c.toNat)) 2 0
      | some g => if c.toNat != g.ctxid then answerProm s (.arriving h (.remote m.toNat tag) line.toNat (some c.toNat)) 2 0
        else promEnter s g (.remote m.toNat tag) line.toNat (some c.toNat)) := by
  have host : (m.setWidth 7 == (64 : BitVec 7)) = false := beq_false_of_ne (by bv_omega)
  have source : (m.setWidth 7).toNat % 64 = m.toNat := by bv_omega
  show execPromoteRequest h line c (m.setWidth 7) tag s = _
  simp only [execPromoteRequest, host, source, Bool.false_eq_true, if_false]
  cases s.groupOf h <;> rfl

/-- It is answered 2 where no group of its context has the handle (R301). -/
theorem promoteRequest_nowhere (hx : ∀ x ∈ s.groupOf h, x.ctxid ≠ c.toNat) : exec (.promoteRequest h line c (m.setWidth 7) tag) s =
    .next (answerProm s (.arriving h (.remote m.toNat tag) line.toNat (some c.toNat)) 2 0) := by
  rw [execPromoteRequest_remote]
  cases hg : s.groupOf h with
  | none => rfl
  | some g => simp [(hx g hg).symm]

/-- Else it enters at its target. -/
theorem promoteRequest_enters (hx : s.groupOf h = some x) (hc : x.ctxid = c.toNat) : exec (.promoteRequest h line c (m.setWidth 7) tag) s =
    .next (promEnter s x (.remote m.toNat tag) line.toNat (some c.toNat)) := by
  rw [execPromoteRequest_remote, hx]
  simp [hc]

end

/-- Where the group is not forgotten, the event leaves what serving its requests makes (R299, Table 15-2). -/
theorem execPromotion_next {t : State} (ht : serve s h = t) (hx : t.groupOf h = some x) (hr : x.retired = false) :
    exec (.promotion h) s = .next t := by
  show execPromotion h s = _
  simp only [execPromotion, ht, hx, hr]; rfl

theorem promotion_saved (hx : s.groupOf h = some x) (hr : x.retired = false) (hh : promHeld s x = false) (hp : s.proms = [p])
    (ht : p.target = h) (ha : p.ans = none) (hs : x.st = .saved) :
    exec (.promotion h) s = .next (answerProm s p (if p.hit then 0 else 1) 0) := by
  have found := (answerProm_groupOf (s := s) (p := p) (if p.hit then 0 else 1) 0 h).trans hx
  refine execPromotion_next ?_ found hr
  unfold serve
  rw [serveProms_saved _ (nextProm_only hp ht ha) hx hh hs,
    serveProms_idle _ (nextProm_answered_only hp _ _) found (.inl hs)]

theorem promotion_over {q : Snap} (hx : s.groupOf h = some x) (hr : x.retired = false) (hh : promHeld s x = false) (hp : s.proms = [p])
    (ht : p.target = h) (ha : p.ans = none) (hs : x.st ≠ .saved) (hrun : p.run = true) (hq : x.snap = some q) (hb : q.begun = true)
    (hg : q.tags = []) :
    exec (.promotion h) s = .next (answerProm (s.updGroup h Group.promoted) p 0 0) := by
  have found : (answerProm (s.updGroup h Group.promoted) p 0 0).groupOf h = some x.promoted := by
    rw [answerProm_groupOf, State.groupOf_promoted hx]
  refine execPromotion_next ?_ found hr
  unfold serve
  rw [serveProms_inProgress _ (nextProm_only hp ht ha) hx hh hs (by rw [hq]; rfl), promoteStep_over hx hq hb hg hp ht hrun ha, found]
  exact serveProms_idle _ (nextProm_answered_only (s := s.updGroup h Group.promoted) hp 0 0) found (.inr rfl)

end

-- The registers of the host and interrupts by handle --------------------------------------------------------------------------

section
variable {s : State}

/-- A write to PROMA of an address of this module's memory sends the request (R302). -/
theorem execProma_requests {v : BitVec 64} (ho : regOpen s = true) (hb : fieldOf s.host.proms 63 63 = 0) (hv : v.toNat < 2 ^ 52)
    (ha : v.toNat % 8 = 0) (hm : ownMem s v.toNat = true) :
    exec (.proma v) s = .next (({ s with host := { s.host with proma := v, proms := BitVec.ofNat 64 (2 ^ 63) } }).postE
      (.promoteRequest s.host.promh (BitVec.ofNat 45 (v.toNat / 128)) 0 64 0)) := by
  have high : fieldOf v 63 52 = 0 := by rw [fieldOf, Nat.div_eq_of_lt hv, Nat.zero_mod]
  have low : fieldOf v 2 0 = 0 := by simpa [fieldOf] using ha
  show execProma v s = _
  simp only [execProma, ho, hb, high, low, hm]; rfl

/-- A write to GINTV raises its interrupt on the group that GINTH names (R125). -/
theorem execGintv_raises {v : BitVec 64} (ho : regOpen s = true) (hm : fieldOf s.host.ginth 37 32 = s.modid) : exec (.gintv v) s =
    .next (({ s with host := { s.host with gintv := v &&& 0xFFFFFFFF } }).updGroup s.host.ginth (fun g => g.interrupt (v.setWidth 32))) := by
  show execGintv v s = _
  simp [execGintv, ho, hm]

variable {h : BitVec 64} {c : BitVec 8}

theorem execInterruptPacket_raises {x : Group} (v : BitVec 32) (m : BitVec 6) (tag : BitVec 16) (hx : s.groupOf h = some x) (hc : x.ctxid = c.toNat) :
    exec (.interruptPacket h v c m tag) s = .next (sendReply (s.updGroup h (fun g => g.interrupt v))
      { packet0 m.toNat 14 0 with tag := tag, arg := BitVec.ofNat 8 0 }) := by
  show execInterruptPacket h v c m tag s = _
  simp [execInterruptPacket, interruptGroup, hx, hc]

theorem execInterruptPacket_nowhere (v : BitVec 32) (m : BitVec 6) (tag : BitVec 16) (hx : s.groupOf h = none) :
    exec (.interruptPacket h v c m tag) s = .next (sendReply s { packet0 m.toNat 14 0 with tag := tag, arg := BitVec.ofNat 8 1 }) := by
  show execInterruptPacket h v c m tag s = _
  simp [execInterruptPacket, interruptGroup, hx]

end

end Sys2Proof.Machine

namespace Sys2Proof.Laws

open Sys2Proof.Machine

/-- Settles O56, one lemma for each event: in focus, or by its handle, its group meets the event's conditions. -/
theorem groupEvents : Obligations.GroupEvents := by
  intro h s u g
  have hu : s.focus h = u := rfl
  refine ⟨fun hf => ⟨?_, ?_, ?_, ?_, ?_, ?_, ?_, ?_⟩, ?_, ?_, ?_, ?_, ?_⟩
  · intro n hr hd v vIdle
    have ended := endStream_stream v n.isLt
    exact ⟨fun hn hi => by
        have hv : v = retireDue u := if_pos hn
        rw [hv]; exact streamEnded_waits hu hf hr hd hn (hv ▸ hi),
      fun hi => ⟨streamEnded_ends hu hf hr hd rfl hi, by rw [ended], by rw [ended], by rw [ended]⟩⟩
  · exact fun hc ht ha hp => trapDelivery_interrupt hu hf hc ht ha hp
  · intro p ps hp v
    have pended := trapDelivery_pended hu hf hp
    refine ⟨fun hc => pended.trans (by rw [hc]; rfl), fun hc => ?_⟩
    have taken : exec (.trapDelivery h) s = .next (trapNow v p) := pended.trans (by rw [hc]; rfl)
    exact ⟨fun hn => taken.trans (congrArg _ (trapNow_faultless hn)), fun f hff =>
      ⟨fun hh => taken.trans (congrArg _ (trapNow_handled hff hh)), fun hh => taken.trans (congrArg _ (trapNow_unhandled hff hh))⟩⟩
  · exact fun f fs ha hs hh hv hm ht => asyncFaultDelivery_delivers hu hf ha hs hh hv hm ht
  · exact fun hq hv hd hs hm => preemptionDeadline_saves hu hf hq hv hd hs hm
  · exact groupSave_notDue hu
  · intro hd hp ht m
    obtain ⟨waits, saves⟩ := groupSave_due hu hf hd hp ht rfl
    exact ⟨waits, fun hq v w hv hvp hx ho hr => (saves hq v hv hvp).trans (congrArg _ (saveNow_single hx ho hr))⟩
  · exact fun hs hr hw => groupRetire_retires hu hf hs hr rfl hw
  · intro line c m tag p ask
    refine ⟨fun hx => promoteRequest_nowhere line c m tag (by simp [hx]),
      fun x hx hc => promoteRequest_nowhere line c m tag (by simpa [hx] using hc), fun x hx hc => ?_⟩
    have entered := promoteRequest_enters line c m tag hx hc
    exact ⟨entered, fun hh hn hp hr hs hl => entered.trans (congrArg _ (promEnter_unlogged hx hn hh hp hr hs hl))⟩
  · exact fun x p hx hr hh hp ht ha => ⟨promotion_saved hx hr hh hp ht ha,
      fun hs hrun q hq hb hg => promotion_over hx hr hh hp ht ha hs hrun hq hb hg⟩
  · exact fun v ho hb hv ha hm => execProma_requests ho hb hv ha hm
  · exact fun v ho hm => execGintv_raises ho hm
  · exact fun v c m tag => ⟨fun x hx hc => execInterruptPacket_raises v m tag hx hc, execInterruptPacket_nowhere v m tag⟩

end Sys2Proof.Laws
end

section
/-! SUPPORT. Launches (R124, R361) and signals (R63, R125, R333). -/

namespace Sys2Proof.Machine

-- Launches -------------------------------------------------------------------------------------------------------------------

/-- R124: what `launch` does with the packet that it has read: a status without effect, or the packet appended to the ring. -/
def launchInto (d a : BitVec 5) (pkt : Nat) (s : State) : Acc Unit :=
  let qn := (s.x a).toNat
  let q := s.queue qn
  let slot := q.ring.toNat + 128 * (q.tail % 2 ^ q.log2n)
  if qn ≥ 2 ^ 15 then done s d (BitVec.ofNat 64 (3 * 2 ^ 32))
  else if !(q.st == .ready || q.st == .paused) || q.ctx != s.grp.ctxid || !q.devok then done s d (BitVec.ofNat 64 (1 * 2 ^ 32))
  else if (q.tail + 65536 - q.head) % 65536 == 2 ^ q.log2n then done s d (BitVec.ofNat 64 (2 * 2 ^ 32))
  else (devTr q.ctx s.grp.handle .store s slot).bind (fun t s =>
    if inRemote t.pa && tentative s s.grp.handle then .wait s
    else (devWrite s q.ctx slot 128 pkt s.grp.handle).bind (fun _ s =>
      done (s.updQueue qn (fun q => { q with tail := (q.tail + 1) % 65536 })) d (BitVec.ofNat 64 q.tail)))

/-- Queue `qn` takes launches of the group in focus (R124). -/
def LaunchUsable (s : State) (qn : Nat) : Prop :=
  ((s.queue qn).st = .ready ∨ (s.queue qn).st = .paused) ∧ (s.queue qn).ctx = s.grp.ctxid ∧ (s.queue qn).devok = true

/-- The ring of queue `qn` has no free slot (R113). -/
def RingFull (s : State) (qn : Nat) : Prop := ((s.queue qn).tail + 65536 - (s.queue qn).head) % 65536 = 2 ^ (s.queue qn).log2n

/-- Where the ring of queue `qn` takes its next packet (R113). -/
def tailSlot (s : State) (qn : Nat) : Nat := (s.queue qn).ring.toNat + 128 * ((s.queue qn).tail % 2 ^ (s.queue qn).log2n)

theorem launchUsable_iff (s : State) (qn : Nat) : LaunchUsable s qn ↔
    (!((s.queue qn).st == .ready || (s.queue qn).st == .paused) || (s.queue qn).ctx != s.grp.ctxid || !(s.queue qn).devok) = false := by
  simp only [LaunchUsable, Bool.or_eq_false_iff, Bool.not_eq_false', Bool.or_eq_true, beq_iff_eq, bne_eq_false_iff_eq, and_assoc]

section
variable {s s1 s2 s3 s4 : State} {d a b : BitVec 5} {pkt qn : Nat} {t : Tr}

/-- A launch whose packet is read, behind its release, goes on with that packet. -/
theorem execLaunch_reads (hp : Placed s) (hq : RedQuiet s 3) (ha : (s.x b).toNat % 128 = 0) (hr : relG s 3 = .ok () s1)
    (hl : devLoad s1 (s.x b).toNat 128 = .ok pkt s2) : exec (.launch d a b) s = sDo s (fun _ => launchInto d a pkt s2) := by
  show execLaunch d a b s = _
  refine (redGate_quiet _ hp hq).trans ?_
  simp only [sDo, alignedTo_ok ha, hr, hl, Acc.bind_ok]
  simp only [launchInto, Nat.zero_mul, Nat.zero_add, Nat.add_zero]

theorem launchInto_nonexistent (hn : 2 ^ 15 ≤ (s.x a).toNat) : launchInto d a pkt s = done s d (BitVec.ofNat 64 (3 * 2 ^ 32)) :=
  if_pos hn

section
variable (hn : (s.x a).toNat < 2 ^ 15)
include hn

theorem launchInto_unusable (hu : ¬ LaunchUsable s (s.x a).toNat) : launchInto d a pkt s = done s d (BitVec.ofNat 64 (1 * 2 ^ 32)) := by
  rw [launchUsable_iff, Bool.not_eq_false] at hu
  exact (if_neg (Nat.not_le.mpr hn)).trans (if_pos hu)

variable (hu : LaunchUsable s (s.x a).toNat)
include hu

theorem launchInto_full (hf : RingFull s (s.x a).toNat) : launchInto d a pkt s = done s d (BitVec.ofNat 64 (2 * 2 ^ 32)) := by
  have usable := Bool.not_eq_true _ ▸ (launchUsable_iff ..).mp hu
  exact (if_neg (Nat.not_le.mpr hn)).trans ((if_neg usable).trans (if_pos (beq_iff_eq.mpr hf)))

variable (hf : ¬ RingFull s (s.x a).toNat)
include hf

/-- A launch into a ring with a free slot, whose page is translated, waits or writes the packet there. -/
theorem launchInto_translated (ht : devTr (s.queue (s.x a).toNat).ctx s.grp.handle .store s (tailSlot s (s.x a).toNat) = .ok t s3) :
    launchInto d a pkt s = if inRemote t.pa && tentative s3 s3.grp.handle then .wait s3 else
      (devWrite s3 (s.queue (s.x a).toNat).ctx (tailSlot s (s.x a).toNat) 128 pkt s3.grp.handle).bind (fun _ s4 =>
        done (s4.updQueue (s.x a).toNat (fun q => { q with tail := (q.tail + 1) % 65536 })) d
          (BitVec.ofNat 64 (s.queue (s.x a).toNat).tail)) := by
  have usable := Bool.not_eq_true _ ▸ (launchUsable_iff ..).mp hu
  refine (if_neg (Nat.not_le.mpr hn)).trans ((if_neg usable).trans ((if_neg (mt beq_iff_eq.mp hf)).trans ?_))
  exact congrArg (Acc.bind · _) ht

end

end

/-- Settles O23: behind the packet's read, `launchInto` answers a status, waits, or appends the packet. -/
theorem launches : Obligations.Launches := by
  intro d a b pkt t s s1 s2 s3 s4 hp hq ha hr hl qn q usable full w
  have reads : exec (.launch d a b) s = sDo s (fun _ => launchInto d a pkt s2) := execLaunch_reads hp hq ha hr hl
  have answers {u : State} {v : Nat} (h : launchInto d a pkt s2 = done u d (BitVec.ofNat 64 v)) : exec (.launch d a b) s = w u v :=
    reads.trans (sDo_ok hp h)
  refine ⟨fun hn => answers (launchInto_nonexistent hn), fun hn hu => answers (launchInto_unusable hn hu),
    fun hn hu hf => answers (launchInto_full hn hu hf), fun hn hu hf ht => ?_⟩
  have placed : launchInto d a pkt s2 = _ := launchInto_translated hn hu hf ht
  refine ⟨fun hi htent => reads.trans (sDo_wait hp ?_), fun hgo hw => answers ?_⟩
  · rw [placed, hi, htent]; rfl
  · have goes : (inRemote t.pa && tentative s3 s3.grp.handle) = false := by simpa using hgo
    rw [placed, goes, if_neg Bool.false_ne_true]
    exact congrArg (Acc.bind · _) hw

-- Counters -------------------------------------------------------------------------------------------------------------------

/-- The test of `sig.wait` is a signed comparison of the difference (R125). -/
theorem reached_of_nonneg {c θ : W32} (h : 0 ≤ (c - θ).toInt) : reached c θ = true := by
  have small : (c - θ).toNat < 2 ^ 31 := by rw [BitVec.toInt_eq_toNat_cond] at h; split at h <;> omega
  rw [reached, bitAt, Nat.testBit_lt_two_pow small]; rfl

section
variable {s s1 s2 s3 : State} {d a b : BitVec 5} {t : Tr}

theorem sigUpdate_next {f : Nat → Nat} {old : Nat} (hp : Placed s) (hq : RedQuiet s 3) (hs : sigAddr s (s.x a).toNat .store = .ok t s1)
    (hb : (homeRead s1 t.home (t.pa / 128)).bad &&& blocksOf (t.pa % 128) 4 = 0)
    (hr : relG (homeRead s1 t.home (t.pa / 128)).st 3 = .ok () s2) (ha : homeAtomic s2 t.home t.pa 4 f = some (old, s3)) :
    sigUpdate s d a f = .next (clearRemote ((s3.setX d (BitVec.ofNat 64 old)).advance 0) 0) := by
  refine (redGate_quiet _ hp hq).trans (sDo_ok hp ?_)
  simp only [hs, hb, hr, ha, Acc.bind_ok, bne_self_eq_false, Bool.false_eq_true, if_false]
  rfl

theorem execSigWait_next (hp : Placed s) (hs : sigAddr s (s.x a).toNat .load = .ok t s1) (hw : s.grp.swait = none)
    (hb : (homeRead s1 t.home (t.pa / 128)).bad &&& blocksOf (t.pa % 128) 4 = 0) {v : W32}
    (hv : BitVec.ofNat 32 (lineRead (homeRead s1 t.home (t.pa / 128)).data (t.pa % 128) 4) = v) (hθ : 0 ≤ (v - (s.x b).setWidth 32).toInt)
    (ha : acqG (homeRead s1 t.home (t.pa / 128)).st 3 = .ok () s2) : exec (.sigWait d a b) s =
      .next (clearRemote (((s2.updGrp (fun g => { g with swait := none })).setX d (v.setWidth 64)).advance 0) 0) := by
  show execSigWait d a b s = _
  refine sDo_ok hp ?_
  simp only [hw, hs, hb, hv, reached_of_nonneg hθ, ha, Option.bind_none, Acc.bind_ok, bne_self_eq_false, Bool.false_eq_true, if_false, if_true]
  rfl

end

-- Interrupts by handle ---------------------------------------------------------------------------------------------------------

section
variable {s : State} {h : W64} {c : Nat} {v : W32}

theorem interruptGroup_found {g : Group} (hg : s.groupOf h = some g) (hc : g.ctxid = c) :
    interruptGroup s h c v = (true, s.updGroup h (fun g => g.interrupt v)) := by simp [interruptGroup, hg, hc]

theorem interruptGroup_nowhere (hg : ∀ g, s.groupOf h = some g → g.ctxid ≠ c) : interruptGroup s h c v = (false, s) := by
  cases hx : s.groupOf h with
  | none => simp [interruptGroup, hx]
  | some g => simp [interruptGroup, hx, hg g hx]

end

/-- A group with a handler that is not past STOPPING pends the interrupt, merged with one that is pending (R63, R333). -/
theorem Group.interrupt_pends {g : Group} (v : W32) (ht : g.tvec ≠ 0) (hs : g.st = .running ∨ g.st = .handler ∨ g.st = .saved) :
    g.interrupt v = { g with ipend := true, ipval := if g.ipend then g.ipval ||| v else v } := by
  unfold Group.interrupt
  rcases hs with h | h | h <;> simp only [h, beq_false_of_ne ht] <;> rfl

theorem Group.interrupt_discards {g : Group} (v : W32) (h : g.tvec = 0 ∨ g.st = .stopping ∨ g.st = .retiring) : g.interrupt v = g := by
  unfold Group.interrupt
  rcases h with h | h | h <;> simp [h]

-- Requests to other modules ------------------------------------------------------------------------------------------------------

section
variable {s : State} {st pa va len : Nat} {p : Packet}

theorem remoteAsk_answered {r : RemoteWait} {c : List Byte} (hr : rwaitOf s.grp st p.pop.toNat pa len = some r) (hg : r.got = some c)
    (hs : r.status = 0) : remoteAsk s st p pa va len = .ok c s := by simp [remoteAsk, hr, hg, hs]

/-- The group in focus waits for the answer to the request that is sent next (R346). -/
def asked (s : State) (st : Nat) (p : Packet) (pa len : Nat) : State :=
  (sendRequest s p s.grp.core s.grp.handle).updGrp (fun g => { g with
    rwait := g.rwait ++ [{ stream := st, pa := pa, len := len, pop := p.pop.toNat, tag := s.nextTag, got := none, status := 0 }] })

variable (hn : rwaitOf s.grp st p.pop.toNat pa len = none) (ht : tentative s s.grp.handle = false)
include hn ht

theorem remoteAsk_unreachable (hr : routeTo s (remoteMod pa) = none) : remoteAsk s st p pa va len = .fault (linkDown va (remoteMod pa)) s := by
  simp [remoteAsk, hn, ht, hr]

theorem remoteAsk_sends (hr : (routeTo s (remoteMod pa)).isSome = true) (hw : popWrites p.pop.toNat = false) :
    remoteAsk s st p pa va len = .wait (asked s st p pa len) := by
  simp [remoteAsk, hn, ht, Option.isSome_iff_ne_none.mp hr, hw, asked]

end

/-- The address by which a module is asked names it (Table 14-1). -/
theorem remoteMod_base {m : Nat} (h : m < 64) : remoteMod (remoteBase + m * 2 ^ 45) = m := by
  unfold remoteMod remoteBase; omega

-- `sig.int` ----------------------------------------------------------------------------------------------------------------------

/-- R125: the request that `sig.int` sends to the distributor of the module that its handle names. -/
def interruptRequest (s : State) (h : W64) (v : W32) : Packet :=
  { packet0 (fieldOf h 37 32) 14 0 with arg := BitVec.ofNat 8 s.grp.ctxid, data := toBytes h 8 ++ toBytes v 4 }

section
variable {s : State} {d a b : BitVec 5}

theorem execSigInt_here (hp : Placed s) (hm : fieldOf (s.x a) 37 32 = s.modid) {found : Bool} {t : State}
    (hi : interruptGroup s (s.x a) s.grp.ctxid ((s.x b).setWidth 32) = (found, t)) :
    exec (.sigInt d a b) s = .next (clearRemote ((t.setX d (if found then 0 else 1)).advance 0) 0) := by
  show execSigInt d a b s = _
  refine sDo_ok hp ?_
  simp only [hm, beq_self_eq_true, if_true, hi]
  rfl

theorem execSigInt_asks (hm : fieldOf (s.x a) 37 32 ≠ s.modid) : exec (.sigInt d a b) s = sDo s (fun _ =>
    (remoteAsk s 0 (interruptRequest s (s.x a) ((s.x b).setWidth 32)) (remoteBase + fieldOf (s.x a) 37 32 * 2 ^ 45) (s.x a).toNat 1).bind
      (fun r s => done s d (BitVec.ofNat 64 (leNat r % 2)))) := by
  show execSigInt d a b s = _
  simp only [execSigInt, sDo, beq_false_of_ne hm, Bool.false_eq_true, if_false]
  rfl

end

/-- Settles O24: the counters' checks pass; `sig.int` looks for its group here, or asks the module of the handle. -/
theorem signals : Obligations.Signals := by
  refine ⟨fun d a b old s s1 s2 s3 t hp => ?_, fun g v => ⟨fun ht hs => ?_, Group.interrupt_discards v⟩⟩
  · intro va r w
    refine ⟨fun hq hs hb hr => ⟨sigUpdate_next hp hq hs hb hr, sigUpdate_next hp hq hs hb hr⟩,
      fun hs hw hb hθ ha => execSigWait_next hp hs hw hb rfl hθ ha, fun hm => ⟨fun g hg hc => ?_, fun hg => ?_⟩, ?_⟩
    · exact execSigInt_here hp hm (interruptGroup_found hg hc)
    · exact execSigInt_here hp hm (interruptGroup_nowhere hg)
    intro m pa p hm
    have asks : exec (.sigInt d a b) s = sDo s (fun _ => (remoteAsk s 0 p pa (s.x a).toNat 1).bind _) := execSigInt_asks hm
    have names : remoteMod pa = m := remoteMod_base (Nat.mod_lt _ (by decide))
    refine ⟨fun r c hr hg hz => ?_, fun hn ht => ⟨fun hr => ?_, fun hr => ?_⟩⟩
    · exact asks.trans (sDo_ok hp (congrArg (Acc.bind · _) (remoteAsk_answered (p := p) hr hg hz)))
    · exact asks.trans (sDo_wait hp (congrArg (Acc.bind · _) (remoteAsk_sends (p := p) hn ht (names.symm ▸ hr) rfl)))
    · have down := remoteAsk_unreachable (va := (s.x a).toNat) (p := p) hn ht (names.symm ▸ hr)
      rw [names] at down
      exact asks.trans (sDo_fault hp (congrArg (Acc.bind · _) down))
  · rw [Group.interrupt_pends v ht hs]
    exact ⟨rfl, rfl⟩

end Sys2Proof.Machine
end

section
/-! SUPPORT. Sessions on strings (R205 to R224): the arbiter of a string, `mjoin` and `mcal`, the end of a calibration, failovers, frame
waits past their limit and the notices between modules. -/

namespace Sys2Proof.Machine

-- Reads after updates --------------------------------------------------------------------------------------------------------

/-- Two updates of an element that give the same value are one. -/
theorem updAt_congr {α : Type} (l : List α) (i : Nat) (f f' : α → α) (d : α) (h : f (l.getD i d) = f' (l.getD i d)) :
    updAt l i f = updAt l i f' := by
  induction l generalizing i with
  | nil => rfl
  | cons x xs ih =>
    cases i with
    | zero => simpa [updAt] using h
    | succ i => simp [updAt, ih i (by simpa using h)]

theorem State.updStr_congr {s : State} {n : Nat} {f f' : Str → Str} (h : f (s.str n) = f' (s.str n)) : s.updStr n f = s.updStr n f' := by
  unfold State.updStr
  rw [updAt_congr _ _ _ _ _ h]

theorem State.str_updStr_self {s : State} {n : Nat} (f : Str → Str) (h : n < s.strs.length) : (s.updStr n f).str n = f (s.str n) :=
  getD_updAt_self _ _ _ _ h

theorem State.core_updCore_self {s : State} {c : Nat} (f : Core → Core) (h : c < s.cores.length) : (s.updCore c f).core c = f (s.core c) :=
  getD_updAt_self _ _ _ _ h

@[simp] theorem lookup_setA_self {α : Type} (l : List (Nat × α)) (k : Nat) (v : α) : (setA l k v).lookup k = some v := by
  induction l with
  | nil => simp [setA]
  | cons p ps ih =>
    by_cases h : p.1 = k
    · simp [setA, h]
    · simp [setA, h, List.lookup, beq_false_of_ne (Ne.symm h), ih]

theorem lookup_setA_other {α : Type} (l : List (Nat × α)) {k j : Nat} (v : α) (h : k ≠ j) : (setA l k v).lookup j = l.lookup j := by
  have hj : (j == k) = false := beq_false_of_ne h.symm
  induction l with
  | nil => simp [setA, List.lookup, hj]
  | cons p ps ih =>
    by_cases hk : p.1 = k
    · simp [setA, hk, List.lookup, hj]
    · simp [setA, hk, List.lookup, ih]

/-- A table with the values of a list at the keys from `b` on. -/
def fillTable {α β : Type} (f : α → β) (b : Nat) (xs : List α) (l : List (Nat × β)) : List (Nat × β) :=
  xs.zipIdx.foldl (fun l x => setA l (b + x.2) (f x.1)) l

theorem fillTable_cons {α β : Type} (f : α → β) (b : Nat) (x : α) (xs : List α) (l : List (Nat × β)) :
    fillTable f b (x :: xs) l = fillTable f (b + 1) xs (setA l b (f x)) := by
  have shifted : (fun l (y : α × Nat) => setA l (b + (y.2 + 1)) (f y.1)) = fun l y => setA l (b + 1 + y.2) (f y.1) :=
    funext fun l => funext fun y => congrArg (setA l · (f y.1)) (by omega)
  rw [fillTable, List.zipIdx_cons, List.zipIdx_succ, List.foldl_cons, List.foldl_map]
  exact congrArg (List.foldl · (setA l b (f x)) xs.zipIdx) shifted

/-- The keys below the first are left as they were. -/
theorem lookup_fillTable_below {α β : Type} (f : α → β) {b j : Nat} (xs : List α) (l : List (Nat × β)) (h : j < b) :
    (fillTable f b xs l).lookup j = l.lookup j := by
  induction xs generalizing b l with
  | nil => rfl
  | cons x xs ih => rw [fillTable_cons, ih _ (by omega), lookup_setA_other _ _ (by omega)]

theorem lookup_fillTable {α β : Type} (f : α → β) (b : Nat) (xs : List α) (l : List (Nat × β)) {i : Nat} (h : i < xs.length) :
    (fillTable f b xs l).lookup (b + i) = some (f xs[i]) := by
  induction xs generalizing b i l with
  | nil => exact absurd h (Nat.not_lt_zero i)
  | cons x xs ih =>
    rw [fillTable_cons]
    cases i with
    | zero => exact (lookup_fillTable_below f xs _ (by omega)).trans (lookup_setA_self ..)
    | succ i =>
      rw [show b + (i + 1) = b + 1 + i by omega]
      exact ih (b + 1) _ (Nat.lt_of_succ_lt_succ h)

-- A string's arbiter (R211) --------------------------------------------------------------------------------------------------

section
variable {s : State} {n : Nat} {w x : SWait}

/-- The first that waits has its turn where it can be admitted. -/
theorem turnOf_first {ws : List SWait} (h : (s.str n).waiting = w :: ws) : turnOf s n w = grantable s n w := by
  simp [turnOf, h]

/-- On a string of this module that nothing waits for, an arrival is the first. -/
theorem arrive_first (hw : (s.str n).waiting = []) (hc : (s.str n).cal = none) (hi : (s.str n).isIn = false) :
    arrive s n w = s.updStr n (fun t => { t with waiting := [w] }) := by
  have h : arrive s n w = s.updStr n (fun t => { t with waiting := t.waiting ++ [w] }) := by simp [arrive, hw, hc, hi]
  rw [h]
  exact State.updStr_congr (by rw [hw]; rfl)

/-- What an instruction with the entry `w` answers at a string's arbiter: where it waits for its own calibration, behind others, and where
its turn has come; and what it answers on a string of this module that is free of others. -/
def AsksArbiter (s : State) (n : Nat) (w : SWait) (e : Out) : Prop :=
  (((arrive s n w).str n).waiting.find? (fun x => x.handle == w.handle) = none → e = .next ((arrive s n w).block 2)) ∧
  (∀ x, ((arrive s n w).str n).waiting.find? (fun x => x.handle == w.handle) = some x →
    (turnOf (arrive s n w) n x = false → e = .next ((arrive s n w).block 2)) ∧
    (turnOf (arrive s n w) n x = true → x.kind = 0 → e = .next (grant (arrive s n w) n x)) ∧
    (turnOf (arrive s n w) n x = true → x.kind ≠ 0 → e = .next ((grant (arrive s n w) n x).block 2))) ∧
  (n < s.strs.length → (s.str n).waiting = [] → (s.str n).cal = none → (s.str n).isIn = false →
    arrive s n w = s.updStr n (fun t => { t with waiting := [w] }) ∧ (grantable (arrive s n w) n w = true →
      e = .next (if w.kind = 0 then grant (arrive s n w) n w else (grant (arrive s n w) n w).block 2)))

theorem waitAt_absent (h : ((arrive s n w).str n).waiting.find? (fun x => x.handle == w.handle) = none) :
    waitAt s n w = .next ((arrive s n w).block 2) := by
  simp only [waitAt, h]

theorem waitAt_behind (h : ((arrive s n w).str n).waiting.find? (fun x => x.handle == w.handle) = some x)
    (ht : turnOf (arrive s n w) n x = false) : waitAt s n w = .next ((arrive s n w).block 2) := by
  simp only [waitAt, h, ht, Bool.not_false, if_true]

theorem waitAt_turn (h : ((arrive s n w).str n).waiting.find? (fun x => x.handle == w.handle) = some x)
    (ht : turnOf (arrive s n w) n x = true) :
    waitAt s n w = .next (if x.kind = 0 then grant (arrive s n w) n x else (grant (arrive s n w) n x).block 2) := by
  simp only [waitAt, h, ht, Bool.not_true, Bool.false_eq_true, if_false, beq_iff_eq]

theorem waitAt_asksArbiter : AsksArbiter s n w (waitAt s n w) := by
  refine ⟨waitAt_absent, fun x hx => ⟨waitAt_behind hx, fun ht hk => ?_, fun ht hk => ?_⟩, fun hn hw hc hi => ?_⟩
  · rw [waitAt_turn hx ht, if_pos hk]
  · rw [waitAt_turn hx ht, if_neg hk]
  have arrival := arrive_first (w := w) hw hc hi
  have waits : ((arrive s n w).str n).waiting = [w] := by rw [arrival, State.str_updStr_self _ hn]
  exact ⟨arrival, fun hg => waitAt_turn (by simp [waits]) ((turnOf_first waits).trans hg)⟩

theorem letIn_none (hw : (s.str n).waiting = []) : letIn s n = s := by simp [letIn, hw]

/-- The only one that waits is admitted where it can be; a join or a calibration of this module is left to its own issue. -/
theorem letIn_single (hw : (s.str n).waiting = [x]) (hg : grantable s n x = true) : letIn s n = if 2 ≤ x.kind then grant s n x else s := by
  simp [letIn, hw, turnOf_first hw, hg]

end

-- `mjoin` (R210, R211, R222) -------------------------------------------------------------------------------------------------

theorem roleSends_iff {r : BitVec 2} : roleSends r.toNat = true ↔ r.toNat ≠ 1 := by revert r; decide
theorem roleListens_iff {r : BitVec 2} : roleListens r.toNat = true ↔ r.toNat ≠ 0 := by revert r; decide

section
variable {s : State} {p q st : BitVec 3} {r : BitVec 2} {k : BitVec 6} {v : BitVec 2}

/-- The entry of an `mjoin` at the arbiter. -/
def joinEntry (s : State) (p q : BitVec 3) (r : BitVec 2) (k : BitVec 6) (v : BitVec 2) : SWait :=
  { handle := s.grp.handle, kind := 0, role := r.toNat, key := k.toNat, div := v.toNat, pops := p, push := q }

/-- The string of an `mjoin`: that of the core for `local`, else the one it names (R210). -/
def joinString (s : State) (st : BitVec 3) (r : BitVec 2) : Nat := if r.toNat == 2 then s.grp.core % 8 else st.toNat

theorem joinFields_legal (hl : r.toNat = 2 → st = 0 ∧ k = 0) (hv : r.toNat = 1 → v = 0) :
    ((r.toNat == 2 && (st != 0 || k != 0)) || (r.toNat == 1 && v != 0)) = false := by
  simpa using ⟨hl, hv⟩

variable (hp : Placed s) (hl : r.toNat = 2 → st = 0 ∧ k = 0) (hv : r.toNat = 1 → v = 0)
include hp hl hv

theorem execMjoin_busy (hb : tileBusy s = true) : exec (.mjoin p q st r k v) s = .next (s.block 2) := by
  show execMjoin p q st r k v s = _
  simp only [execMjoin, noGroup_false hp, joinFields_legal hl hv, hb, Bool.false_eq_true, if_false, if_true]

variable (hb : tileBusy s = false) (ho : TokOpen s 2 p q)
include hb ho

theorem execMjoin_member (hm : s.grp.memb.isSome = true) : exec (.mjoin p q st r k v) s = .next (raise s 2 (exc cSESSMM 6) none) := by
  show execMjoin p q st r k v s = _
  unfold TokOpen at ho
  simp only [execMjoin, noGroup_false hp, joinFields_legal hl hv, hb, ho, hm, Bool.false_eq_true, if_false, if_true]

variable (hm : s.grp.memb = none)
include hm

/-- Past the checks of its word, its tokens and its membership a join needs its role's optics and a string of this module, or a listener's role. -/
theorem execMjoin_open : exec (.mjoin p q st r k v) s =
    if (roleSends r.toNat && !s.grp.talk) || (roleListens r.toNat && !s.grp.listen) then .next (raise s 2 (exc cSESSMM 7) none)
    else if r.toNat != 1 && (s.str (joinString s st r)).isIn then .next (raise s 2 (exc cSESSMM 8) none)
    else if r.toNat == 2 then .next (endJoin (s.updGrp (fun g => joined g 0 (joinEntry s p q r k v) 0)) (joinEntry s p q r k v))
    else waitAt s (joinString s st r) (joinEntry s p q r k v) := by
  show execMjoin p q st r k v s = _
  unfold TokOpen at ho
  simp only [execMjoin, noGroup_false hp, joinFields_legal hl hv, hb, ho, hm, Option.isSome_none, Bool.false_eq_true, if_false]
  rfl

theorem execMjoin_dark (hd : (r.toNat ≠ 1 ∧ s.grp.talk = false) ∨ (r.toNat ≠ 0 ∧ s.grp.listen = false)) :
    exec (.mjoin p q st r k v) s = .next (raise s 2 (exc cSESSMM 7) none) := by
  rw [execMjoin_open hp hl hv hb ho hm, if_pos]
  simpa [roleSends_iff, roleListens_iff] using hd

variable (ht : r.toNat ≠ 1 → s.grp.talk = true) (hs : r.toNat ≠ 0 → s.grp.listen = true)
include ht hs

/-- With the optics of its role a join fails only on a string that another module feeds. -/
theorem execMjoin_lit : exec (.mjoin p q st r k v) s =
    if r.toNat != 1 && (s.str (joinString s st r)).isIn then .next (raise s 2 (exc cSESSMM 8) none)
    else if r.toNat == 2 then .next (endJoin (s.updGrp (fun g => joined g 0 (joinEntry s p q r k v) 0)) (joinEntry s p q r k v))
    else waitAt s (joinString s st r) (joinEntry s p q r k v) := by
  rw [execMjoin_open hp hl hv hb ho hm, if_neg]
  simpa [roleSends_iff, roleListens_iff] using ⟨ht, hs⟩

theorem execMjoin_fed (hr : r.toNat = 0 ∨ r.toNat = 3) (hi : (s.str st.toNat).isIn = true) :
    exec (.mjoin p q st r k v) s = .next (raise s 2 (exc cSESSMM 8) none) := by
  rw [execMjoin_lit hp hl hv hb ho hm ht hs]
  rcases hr with h | h <;> simp [joinString, h, hi]

theorem execMjoin_local (hr : r.toNat = 2) (hi : (s.str (s.grp.core % 8)).isIn = false) : exec (.mjoin p q st r k v) s =
    .next (endJoin (s.updGrp (fun g => joined g 0 (joinEntry s p q r k v) 0)) (joinEntry s p q r k v)) := by
  rw [execMjoin_lit hp hl hv hb ho hm ht hs]
  simp [joinString, hr, hi]

theorem execMjoin_asks (hr : r.toNat = 0 ∨ r.toNat = 1 ∨ r.toNat = 3) (hi : r.toNat ≠ 1 → (s.str st.toNat).isIn = false) :
    AsksArbiter s st.toNat (joinEntry s p q r k v) (exec (.mjoin p q st r k v) s) := by
  have waits : exec (.mjoin p q st r k v) s = waitAt s st.toNat (joinEntry s p q r k v) := by
    rw [execMjoin_lit hp hl hv hb ho hm ht hs]
    rcases hr with h | h | h
    · simp [joinString, h, hi (by simp [h])]
    · simp [joinString, h]
    · simp [joinString, h, hi (by simp [h])]
  exact waits ▸ waitAt_asksArbiter

end

-- `mcal` (R221, R224) --------------------------------------------------------------------------------------------------------

section
variable {s : State} {p q st : BitVec 3} {r : BitVec 2}

/-- The entry of an `mcal` at the arbiter. -/
def calEntry (s : State) (p q : BitVec 3) (r : BitVec 2) : SWait :=
  { handle := s.grp.handle, kind := 1, role := r.toNat, key := s.grp.core, div := 0, pops := p, push := q }

variable (hp : Placed s)
include hp

theorem execMcal_illegal (hr : r = 3) : exec (.mcal p q st r) s = .next (illegal s 2) := by
  show execMcal p q st r s = _
  simp only [execMcal, noGroup_false hp, hr, beq_self_eq_true, Bool.false_eq_true, if_false, if_true]

variable (hr : r ≠ 3)
include hr

theorem execMcal_busy (hb : tileBusy s = true) : exec (.mcal p q st r) s = .next (s.block 2) := by
  show execMcal p q st r s = _
  simp only [execMcal, noGroup_false hp, beq_false_of_ne hr, hb, Bool.false_eq_true, if_false, if_true]

variable (hb : tileBusy s = false) (ho : TokOpen s 2 p q)
include hb ho

theorem execMcal_member (hm : s.grp.memb.isSome = true) : exec (.mcal p q st r) s = .next (raise s 2 (exc cSESSMM 6) none) := by
  show execMcal p q st r s = _
  unfold TokOpen at ho
  simp only [execMcal, noGroup_false hp, beq_false_of_ne hr, hb, ho, hm, Bool.false_eq_true, if_false, if_true]

/-- Past its checks a calibration asks for the string, unless it has nothing to measure there. -/
theorem execMcal_open (hm : s.grp.memb = none) : exec (.mcal p q st r) s =
    if (s.str st.toNat).isIn || (s.str st.toNat).comb == .dark then
      .next (endJoin (s.updStr st.toNat (fun t => { t with waiting := t.waiting.filter (fun x => x.handle != s.grp.handle) })) (calEntry s p q r))
    else waitAt s st.toNat (calEntry s p q r) := by
  show execMcal p q st r s = _
  unfold TokOpen at ho
  simp only [execMcal, noGroup_false hp, beq_false_of_ne hr, hb, ho, hm, Option.isSome_none, Bool.false_eq_true, if_false]
  rfl

theorem execMcal_nothing (hm : s.grp.memb = none) (hd : (s.str st.toNat).isIn = true ∨ (s.str st.toNat).comb = .dark) :
    exec (.mcal p q st r) s = .next (endJoin (s.updStr st.toNat (fun t => { t with
      waiting := t.waiting.filter (fun x => x.handle != s.grp.handle) })) (calEntry s p q r)) := by
  rw [execMcal_open hp hr hb ho hm, if_pos (by simpa using hd)]

theorem execMcal_asks (hm : s.grp.memb = none) (hi : (s.str st.toNat).isIn = false) (hd : (s.str st.toNat).comb ≠ .dark) :
    AsksArbiter s st.toNat (calEntry s p q r) (exec (.mcal p q st r) s) := by
  rw [execMcal_open hp hr hb ho hm, if_neg (by simpa [hi] using hd)]
  exact waitAt_asksArbiter

end

-- The end of a calibration (R221) --------------------------------------------------------------------------------------------

/-- The trims and drive levels of a core for a string set to what a calibration has found: 64 receivers, 64 modulators, 64 drive levels. -/
def trimmed (s : State) (n core : Nat) (ds : List (BitVec 16)) : State :=
  setDrives (setTrims s core n ((List.range 128).map (fun l => ds.getD l 0)) false) core n ((List.range 64).map (fun l => ds.getD (128 + l) 0))

/-- What a calibration of a kind has found set: the map, the trims and drive levels, or both. -/
def measured (s : State) (n : Nat) (x : SWait) (dark : BitVec 68) (ds : List (BitVec 16)) : State :=
  let t := if x.role = 0 then s else remapStr s n dark
  if x.role = 1 then t else trimmed t n x.key ds

/-- The `mcal` of a calibration completed, unless its group has stopped meanwhile. -/
def mcalEnded (t : State) (x : SWait) : State :=
  if x.handle = 0 then t else onGroup t x.handle (fun s => (tokDone s 2 x.push).advance 2)

theorem execCalibrationDone_ends {s : State} {st : BitVec 3} {x : SWait} {dark : BitVec 68} {ds : List (BitVec 16)}
    (hc : (s.str st.toNat).cal = some x) : exec (.calibrationDone st (dark, ds)) s =
      .next (postAdmit (mcalEnded ((measured s st.toNat x dark ds).updStr st.toNat (fun t => { t with cal := none })) x) st.toNat) := by
  show execCalibrationDone st (dark, ds) s = _
  simp only [execCalibrationDone, hc, measured, trimmed, mcalEnded, beq_iff_eq]

theorem measured_trims {s : State} {n : Nat} {x : SWait} {dark : BitVec 68} {ds : List (BitVec 16)} (hr : x.role = 0 ∨ x.role = 2) :
    measured s n x dark ds = trimmed (if x.role = 0 then s else remapStr s n dark) n x.key ds :=
  if_neg (by omega)

theorem measured_maps {s : State} {n : Nat} {x : SWait} {dark : BitVec 68} {ds : List (BitVec 16)} (hr : x.role = 1) :
    measured s n x dark ds = remapStr s n dark := by
  simp [measured, hr]

theorem mcalEnded_gone {t : State} {x : SWait} (h : x.handle = 0) : mcalEnded t x = t := if_pos h
theorem mcalEnded_completes {t : State} {x : SWait} (h : x.handle ≠ 0) :
    mcalEnded t x = onGroup t x.handle (fun s => (tokDone s 2 x.push).advance 2) := if_neg h

theorem remapStr_cores_length (s : State) (n : Nat) (dark : BitVec 68) : (remapStr s n dark).cores.length = s.cores.length := by
  unfold remapStr
  dsimp only
  split
  · rfl
  · exact List.length_map _

theorem setTrims_every {s : State} {core n : Nat} {ds : List (BitVec 16)} (h : ds ≠ []) : setTrims s core n ds false =
    s.updCore core (fun c => { c with
      trims := fillTable trimOf (64 * n) (ds.take 64) c.trims, modTrims := fillTable trimOf (64 * n) ((ds.drop 64).take 64) c.modTrims }) := by
  simp only [setTrims, List.isEmpty_eq_false_iff.mpr h, Bool.false_and, Bool.false_eq_true, if_false]
  rfl

theorem setDrives_fills (s : State) (core n : Nat) (vs : List (BitVec 16)) : setDrives s core n vs =
    s.updCore core (fun c => { c with drives := fillTable id (64 * n) (vs.take 64) c.drives }) := rfl

/-- The core's tables after a calibration of kind `trim` or `full`. -/
theorem trimmed_core {s : State} {n core : Nat} (ds : List (BitVec 16)) (hk : core < s.cores.length) :
    (trimmed s n core ds).core core = { s.core core with
      trims := fillTable trimOf (64 * n) (((List.range 128).map (fun l => ds.getD l 0)).take 64) (s.core core).trims
      modTrims := fillTable trimOf (64 * n) ((((List.range 128).map (fun l => ds.getD l 0)).drop 64).take 64) (s.core core).modTrims
      drives := fillTable id (64 * n) (((List.range 64).map (fun l => ds.getD (128 + l) 0)).take 64) (s.core core).drives } := by
  rw [trimmed, setDrives_fills, setTrims_every (by simp), State.core_updCore_self _ (by simpa using hk), State.core_updCore_self _ hk]

theorem trimmed_lookup {s : State} {n core : Nat} (ds : List (BitVec 16)) (hk : core < s.cores.length) {l : Nat} (hl : l < 64) :
    ((trimmed s n core ds).core core).trims.lookup (64 * n + l) = some (trimOf (ds.getD l 0)) ∧
    ((trimmed s n core ds).core core).modTrims.lookup (64 * n + l) = some (trimOf (ds.getD (64 + l) 0)) ∧
    ((trimmed s n core ds).core core).drives.lookup (64 * n + l) = some (ds.getD (128 + l) 0) := by
  rw [trimmed_core ds hk]
  exact ⟨by simp [lookup_fillTable, hl], by simp [lookup_fillTable, hl], by simp [lookup_fillTable, hl]⟩

-- Failovers, frame waits and notices (R205, R214, R219) ----------------------------------------------------------------------

section
variable {s : State} {st : BitVec 3}

theorem execCombFailoverDone_ends (hf : (s.str st.toNat).failing = true) (hi : (s.str st.toNat).isIn = false) :
    exec (.combFailoverDone st) s = .next (tellSession (s.updStr st.toNat (fun t => { t with
      failing := false, comb := .standby, failovers := t.failovers + 1 })) st.toNat (nextSeqOf s st.toNat).toNat) := by
  show execCombFailoverDone st s = _
  simp only [execCombFailoverDone, hf, hi, Bool.not_false, Bool.and_true, if_true]

theorem execSessionTimeout_late {u : State} {h : BitVec 64} (hu : s.focus h = u) (hf : u.focused h = true) (hl : frameLate u u.grp = true)
    (hd : frameDue u u.grp.strNo = false ∨ (u.str u.grp.strNo).isIn = true) : exec (.sessionTimeout h) s =
      .next (tileFaults u (faultsIn [u.grp] (fun g c => some (exc cSESSTO (lateMember u g), mismatchEl c.elem)))) := by
  have unstarted : (u.grp.onStr u.grp.strNo && !(u.str u.grp.strNo).isIn && frameDue u u.grp.strNo) = false := by
    rcases hd with hd | hd <;> simp [hd]
  show execSessionTimeout h s = _
  simp only [execSessionTimeout, hu, hf, hl, unstarted, Bool.not_false, Bool.and_self, if_true]

variable {member : BitVec 14} {key : BitVec 6} {c : BitVec 8} {f : BitVec 64}

/-- An IN string takes no notice from any module but its feeding one. -/
theorem execSessionControlFlit_foreign (k : BitVec 2) (hi : (s.str st.toNat).isIn = true) (hm : member.toNat / 256 ≠ feederOf s.modid st.toNat) :
    exec (.sessionControlFlit st k member key c f) s = .next s := by
  show execSessionControlFlit st k member key c f s = _
  simp only [execSessionControlFlit, hi, bne_iff_ne.mpr hm, Bool.and_self, if_true]

theorem sender_heard (h : (s.str st.toNat).isIn = false ∨ member.toNat / 256 = feederOf s.modid st.toNat) :
    ((s.str st.toNat).isIn && member.toNat / 256 != feederOf s.modid st.toNat) = false := by
  rcases h with h | h <;> simp [h]

theorem execSessionControlFlit_ready (h : (s.str st.toNat).isIn = false ∨ member.toNat / 256 = feederOf s.modid st.toNat)
    (hk : (s.str st.toNat).key = key.toNat) (hc : (s.str st.toNat).ctx = c.toNat) :
    exec (.sessionControlFlit st 0 member key c f) s = .next (s.updStr st.toNat (fun t => { t with
      members := t.members.map (fun m => if m.id == member.toNat then { m with ready := !f.getLsbD 0 } else m) })) := by
  show execSessionControlFlit st 0 member key c f s = _
  simp only [execSessionControlFlit, sender_heard h, hk, hc, beq_self_eq_true, Bool.and_self, Bool.false_eq_true, if_false, if_true]
  rfl

theorem execSessionControlFlit_pause (h : (s.str st.toNat).isIn = false ∨ member.toNat / 256 = feederOf s.modid st.toNat)
    (hk : (s.str st.toNat).key = key.toNat) (hc : (s.str st.toNat).ctx = c.toNat) :
    exec (.sessionControlFlit st 2 member key c f) s = .next (pauseStr s st.toNat) := by
  show execSessionControlFlit st 2 member key c f s = _
  simp only [execSessionControlFlit, sender_heard h, hk, hc, beq_self_eq_true, Bool.and_self, Bool.false_eq_true, if_false, if_true]
  rfl

theorem execSessionControlFlit_asked (hi : (s.str st.toNat).isIn = false) :
    exec (.sessionControlFlit st 3 member key c f) s = .next (tellSession s st.toNat (nextSeqOf s st.toNat).toNat) := by
  show execSessionControlFlit st 3 member key c f s = _
  simp only [execSessionControlFlit, tellComb, hi, Bool.false_and, Bool.false_eq_true, if_false]
  rfl

end

/-- Settles O53: past their checks a join and a calibration ask the string's arbiter, and each event is its own update of the string. -/
theorem sessionEvents : Obligations.SessionEvents := by
  intro p q st r k v s hp g role w wc err n admits asks
  refine ⟨fun hb hl hv => execMjoin_busy hp hl hv hb, fun hb hr => execMcal_busy hp hr hb, fun hb ho hl hv => ⟨execMjoin_member hp hl hv hb ho,
      execMjoin_dark hp hl hv hb ho, fun hm ht hs => ⟨execMjoin_fed hp hl hv hb ho hm ht hs, execMjoin_local hp hl hv hb ho hm ht hs,
        execMjoin_asks hp hl hv hb ho hm ht hs⟩⟩,
    fun hb ho hr => execMcal_member hp hr hb ho, fun hb ho hr hm => ⟨execMcal_nothing hp hr hb ho hm, execMcal_asks hp hr hb ho hm⟩,
    execMcal_illegal hp, fun x hw hg => congrArg _ (letIn_single hw hg), fun hw => congrArg _ (letIn_none hw),
    fun x dark ds hc hr => ⟨fun hh => ?_, fun hh => ?_, ?_⟩,
    fun x dark ds hc hr hh => ?_, execCombFailoverDone_ends, fun h => execSessionTimeout_late rfl,
    fun member key c f hs hk hc => ⟨execSessionControlFlit_ready hs hk hc, execSessionControlFlit_pause hs hk hc⟩,
    fun member key c f => execSessionControlFlit_asked, fun k member key c f => execSessionControlFlit_foreign k⟩
  · rw [execCalibrationDone_ends hc, measured_trims hr, mcalEnded_completes hh]; rfl
  · rw [execCalibrationDone_ends hc, measured_trims hr, mcalEnded_gone hh]; rfl
  · intro hk l hl
    have core : x.key < (if x.role = 0 then s else remapStr s n dark).cores.length := by
      by_cases h : x.role = 0
      · rw [if_pos h]; exact hk
      · rw [if_neg h, remapStr_cores_length]; exact hk
    exact trimmed_lookup ds core hl
  · rw [execCalibrationDone_ends hc, measured_maps hr, mcalEnded_completes hh]

end Sys2Proof.Machine
end

section
/-! SUPPORT. The single-step matrix instructions: descriptors (R234), optical configuration (R225), status records (R226), `msync` (R244),
`mleave` (R223) and accumulator banks (R200, R201). -/

namespace Sys2Proof.Machine

-- Where a matrix instruction ends ----------------------------------------------------------------------------------------------

section
variable {s t : State} {legal : Bool} {p q : BitVec 3} {e : Exc} {body : State → Acc Unit} (hp : Placed s) (ho : TokOpen s 2 p q)
include hp ho

theorem mDo_completes (hb : tileBars s = false) (hl : legal = true) (h : body s = .ok () t) :
    mDo s legal p q body = .next (tDone t 2 p q) := by
  rw [hl, mDo_issues body hp hb, tDo_ok hp ho h]
theorem mDo_faults (hb : tileBars s = false) (hl : legal = true) (h : body s = .fault e t) :
    mDo s legal p q body = .next (raise t 2 e none) := by
  rw [hl, mDo_issues body hp hb, tDo_fault hp ho h]
theorem mAlone_completes (hb : tileBusy s = false) (hl : legal = true) (h : body s = .ok () t) :
    mAlone s legal p q body = .next (tDone t 2 p q) := by
  rw [hl, mAlone_issues body hp hb, tDo_ok hp ho h]
theorem mAlone_faults (hb : tileBusy s = false) (hl : legal = true) (h : body s = .fault e t) :
    mAlone s legal p q body = .next (raise t 2 e none) := by
  rw [hl, mAlone_issues body hp hb, tDo_fault hp ho h]
theorem mAlone_blocks (hb : tileBusy s = false) (hl : legal = true) (h : body s = .wait t) :
    mAlone s legal p q body = .next (t.block 2) := by
  rw [hl, mAlone_issues body hp hb, tDo_wait hp ho h]

end

-- Descriptors and `msync`, which issue behind a last element (R236, log entry 172) -------------------------------------------------------------------

section
variable {s s1 : State} {p q : BitVec 3} {d a f : BitVec 4} {m : BitVec 12}

theorem execMdset_illegal (hp : Placed s) (hf : 8 ≤ f.toNat) : exec (.mdset p q d f m) s = .next (illegal s 2) := by
  have reserved : (f.toNat < 7 || (f == 7 && m == 0)) = false := by
    simpa using ⟨by omega, fun h => absurd hf (by rw [h]; decide)⟩
  exact mDo_false _ hp reserved

variable (hp : Placed s) (hb : tileBars s = false) (ho : TokOpen s 2 p q)
include hp hb ho

theorem execMdset_sets (hl : f.toNat ≤ 6 ∨ (f = 7 ∧ m = 0)) :
    exec (.mdset p q d f m) s = .next (tDone (s.setD d (mdField (s.grp.d d.toNat) f.toNat m.toNat)) 2 p q) := by
  have legal : (f.toNat < 7 || (f == 7 && m == 0)) = true := by
    rcases hl with h | h
    · simp [Nat.lt_succ_of_le h]
    · simp [h]
  exact mDo_completes hp ho hb legal rfl

theorem execMdadd_adds : exec (.mdadd p q d a m) s =
    .next (tDone (s.setD d (dBase (s.grp.d a.toNat) (fun base => base + 16 * m.signExtend 32))) 2 p q) :=
  mDo_completes hp ho hb rfl rfl

theorem execMdmov_moves : exec (.mdmov p q d a) s = .next (tDone (s.setD d (s.grp.d a.toNat)) 2 p q) :=
  mDo_completes hp ho hb rfl rfl

theorem execMdld_loads {v : Nat} (h : scrRead s (dBaseN (s.grp.d a.toNat) + 16 * m.toNat) 16 16 = .ok v s1) :
    exec (.mdld p q d a m) s = .next (tDone (s1.setD d (BitVec.ofNat 128 v)) 2 p q) :=
  mDo_completes hp ho hb rfl (by rw [h, Acc.bind_ok])

theorem execMdld_faults {e : Exc} (h : scrRead s (dBaseN (s.grp.d a.toNat) + 16 * m.toNat) 16 16 = .fault e s1) :
    exec (.mdld p q d a m) s = .next (raise s1 2 e none) :=
  mDo_faults hp ho hb rfl (by rw [h, Acc.bind_fault])

/-- Behind a command in its last element it makes its pops and waits (R236, R244). -/
theorem execMsync_waits (hm : s.grp.msync = none) (ht : tileBusy s = true) : exec (.msync p q) s =
    .next (((tokIssue s 2 p q).updGrp (fun g => { g with msync := some (p, q) })).block 2) := by
  unfold TokOpen at ho
  show execMsync p q s = _
  simp only [execMsync, noGroup_false hp, hb, hm, ht, ho, Option.isSome_none, Bool.false_and, Bool.or_self, Bool.not_true, Bool.false_eq_true,
    if_false]

end

section
variable {s : State} {p q : BitVec 3} (hp : Placed s) (hb : tileBusy s = false)
include hp hb

/-- One that has issued pushes when the command before it has ended. -/
theorem execMsync_ends {x : BitVec 3 × BitVec 3} (hm : s.grp.msync = some x) : exec (.msync p q) s =
    .next ((tokDone (s.updGrp (fun g => { g with msync := none })) 2 x.2).advance 2) := by
  show execMsync p q s = _
  simp only [execMsync, noGroup_false hp, tileBars_false hb, hb, hm, Bool.and_false, Bool.or_self, Bool.false_eq_true, if_false]

theorem execMsync_passes (ho : TokOpen s 2 p q) (hm : s.grp.msync = none) : exec (.msync p q) s = .next (tDone s 2 p q) := by
  show execMsync p q s = _
  simp only [execMsync, noGroup_false hp, tileBars_false hb, hb, hm, Bool.and_false, Bool.or_self, Bool.not_false, Bool.false_eq_true, if_false,
    if_true]
  exact tDo_ok hp ho rfl

end

-- Optical configuration, status records and memberships ------------------------------------------------------------------------

/-- What `mocfg` stages for each part of a register (R225). -/
theorem ocPart_toNat (old : W32) (t : BitVec 2) (i : BitVec 12) : ocPart old t.toNat i =
    if t = 0 then (old &&& 0xFFFFF000) ||| i.setWidth 32 else if t = 1 then (old &&& 0xFF000FFF) ||| (i.setWidth 32 <<< 12)
    else if t = 2 then (old &&& 0x00FFFFFF) ||| (i.setWidth 32 <<< 24) else i.setWidth 32 := by
  have parts : t = 0 ∨ t = 1 ∨ t = 2 ∨ t = 3 := by revert t; decide
  rcases parts with h | h | h | h <;> rw [h] <;> rfl

/-- The size of a status record (R226). -/
theorem mstatRecord_size (s : State) {f : BitVec 4} (hf : f.toNat ≤ 3) (n : Nat) : (mstatRecord s f.toNat n).2 = if f = 3 then 128 else 16 := by
  have items : f = 0 ∨ f = 1 ∨ f = 2 ∨ f = 3 := by revert f; decide
  rcases items with h | h | h | h <;> rw [h] <;> rfl

theorem ocWritable_iff {o : Nat} : ocWritable o = true ↔ o ≤ 3 ∨ (8 ≤ o ∧ o ≤ 15) := by simp [ocWritable]

theorem leaveSession_none {s : State} (h : s.grp.memb = none) : leaveSession s = s := by simp [leaveSession, h]

section
variable {s s1 : State} {p q sn : BitVec 3} {f : BitVec 4} {o : BitVec 6} {t : BitVec 2} {m : BitVec 12}

theorem execMocfg_illegal (hp : Placed s) (h : ¬ (o.toNat ≤ 3 ∨ (8 ≤ o.toNat ∧ o.toNat ≤ 15)) ∨ (t = 2 ∧ 256 ≤ m.toNat)) :
    exec (.mocfg p q o t m) s = .next (illegal s 2) := by
  have reserved : (ocWritable o.toNat && !(t == 2 && m.toNat ≥ 256)) = false := by
    rcases h with h | h
    · rw [Bool.eq_false_iff.mpr (mt ocWritable_iff.mp h), Bool.false_and]
    · simp [h]
  exact mAlone_false _ hp reserved

/-- The operands with which `mstat` is no ILLEGAL word (R226). -/
theorem mstatFields_iff : (8 ≤ o.toNat && o.toNat ≤ 15 && f.toNat ≤ 3 && (f.toNat ≥ 2 || sn == 0)) = true ↔
    8 ≤ o.toNat ∧ o.toNat ≤ 15 ∧ f.toNat ≤ 3 ∧ (f.toNat ≤ 1 → sn = 0) := by
  have item : (2 ≤ f.toNat ∨ sn = 0) ↔ (f.toNat ≤ 1 → sn = 0) := by
    rw [← Nat.not_lt, ← Decidable.imp_iff_not_or, Nat.lt_succ_iff]
  simp only [Bool.and_eq_true, Bool.or_eq_true, decide_eq_true_eq, beq_iff_eq, ge_iff_le, item, and_assoc]

theorem execMstat_illegal (hp : Placed s) (h : o.toNat < 8 ∨ 15 < o.toNat ∨ 4 ≤ f.toNat ∨ (f.toNat ≤ 1 ∧ sn ≠ 0)) :
    exec (.mstat p q o sn f) s = .next (illegal s 2) := by
  refine mAlone_false _ hp (Bool.eq_false_iff.mpr (mt mstatFields_iff.mp ?_))
  rintro ⟨h8, h15, hf, hs⟩
  rcases h with h | h | h | ⟨h, hn⟩
  · omega
  · omega
  · omega
  · exact hn (hs h)

variable (hp : Placed s) (ho : TokOpen s 2 p q) (hb : tileBusy s = false)
include hp ho hb

theorem execMocfg_stages (hw : o.toNat ≤ 3 ∨ (8 ≤ o.toNat ∧ o.toNat ≤ 15)) (hm : t = 2 → m.toNat < 256) : exec (.mocfg p q o t m) s =
    .next (tDone (s.updGrp (fun g => { g with
      staged := updAt g.staged o.toNat (fun _ => some (ocPart (s.grp.ocNew o.toNat) t.toNat m)) })) 2 p q) := by
  have legal : (ocWritable o.toNat && !(t == 2 && m.toNat ≥ 256)) = true := by
    simpa [ocWritable_iff.mpr hw, Decidable.imp_iff_not_or] using hm
  exact mAlone_completes hp ho hb legal rfl

section
variable (h8 : 8 ≤ o.toNat) (h15 : o.toNat ≤ 15) (hf : f.toNat ≤ 3) (hs : f.toNat ≤ 1 → sn = 0)
include h8 h15 hf hs

theorem execMstat_writes (h : scrWrite s (s.grp.ocNew o.toNat).toNat (if f = 3 then 128 else 16) 16 (mstatRecord s f.toNat sn.toNat).1 = .ok () s1) :
    exec (.mstat p q o sn f) s = .next (tDone s1 2 p q) :=
  mAlone_completes hp ho hb (mstatFields_iff.mpr ⟨h8, h15, hf, hs⟩) ((congrArg (scrWrite s _ · 16 _) (mstatRecord_size s hf sn.toNat)).trans h)

theorem execMstat_faults {e : Exc}
    (h : scrWrite s (s.grp.ocNew o.toNat).toNat (if f = 3 then 128 else 16) 16 (mstatRecord s f.toNat sn.toNat).1 = .fault e s1) :
    exec (.mstat p q o sn f) s = .next (raise s1 2 e none) :=
  mAlone_faults hp ho hb (mstatFields_iff.mpr ⟨h8, h15, hf, hs⟩) ((congrArg (scrWrite s _ · 16 _) (mstatRecord_size s hf sn.toNat)).trans h)

end

theorem execMleave_leaves : exec (.mleave p q) s = .next (tDone (leaveSession s) 2 p q) := mAlone_completes hp ho hb rfl rfl

end

-- Accumulator banks (R200, R201) -------------------------------------------------------------------------------------------------

/-- The number of OWNED entries of a group's accumulator map, which ACCB bounds. -/
def Group.ownedBanks (g : Group) : Nat := (g.amap.filter (fun e => e.any (fun x => x.owned))).length

/-- The bank that an allocation takes is a free one. -/
theorem getD_mod_mem {l : List Nat} (h : l ≠ []) (i : Nat) : l.getD (i % l.length) 0 ∈ l := by
  have inside : i % l.length < l.length := Nat.mod_lt _ (List.length_pos_iff.mpr h)
  rw [← List.getElem_eq_getD (h := inside)]
  exact List.getElem_mem _

theorem lowest_eq {n j : Nat} {f : Nat → Bool} (hj : j < n) (hf : f j = true) (hl : ∀ i, i < j → f i = false) : lowest n f = j := by
  have first : (List.range n).find? f = some j :=
    List.find?_range_eq_some.mpr ⟨hf, List.mem_range.mpr hj, fun i hi => by simp [hl i hi]⟩
  rw [lowest, first, Option.getD_some]

section
variable {s : State} {p q : BitVec 3} {n b : BitVec 4} {k : BitVec 6}

theorem execMaccZero_illegal (hp : Placed s) (hn : n = 0) : exec (.maccZero p q n b) s = .next (illegal s 2) :=
  mAlone_false _ hp (by simp [hn])
theorem execMaccAttach_illegal (hp : Placed s) (hn : n = 0) : exec (.maccAttach p q n k b) s = .next (illegal s 2) :=
  mAlone_false _ hp (by simp [hn])

variable (hp : Placed s) (ho : TokOpen s 2 p q) (hb : tileBusy s = false)
include hp ho hb

theorem execMaccAlloc_takes (hm : s.grp.amapAt b.toNat = none) (hc : s.grp.ownedBanks < s.grp.accb) (hf : freeAcc s s.grp.core ≠ []) :
    ∃ ph ∈ freeAcc s s.grp.core, exec (.maccAlloc p q b) s = .next (tDone
      (zeroAcc (s.tick1.setAmap b.toNat (some { phys := ph, owned := true, band := 15, keys := [] })) s.grp.core ph (fun _ => true)) 2 p q) := by
  refine ⟨_, getD_mod_mem hf (Config.freePhys s.fresh), mAlone_completes hp ho hb rfl ?_⟩
  have room : ¬ s.grp.accb ≤ (s.grp.amap.filter (fun e => e.any (fun x => x.owned))).length := Nat.not_le.mpr hc
  simp [hm, room, hf, accAlloc]

theorem execMaccAlloc_faults (h : (s.grp.amapAt b.toNat).isSome = true ∨ s.grp.accb ≤ s.grp.ownedBanks) :
    exec (.maccAlloc p q b) s = .next (raise s 2 (exc cACCBAND (256 * b.toNat)) none) := by
  refine mAlone_faults hp ho hb rfl (if_pos ?_)
  simpa [Group.ownedBanks] using h

theorem execMaccFree_frees : exec (.maccFree p q b) s = .next (tDone (s.setAmap b.toNat none) 2 p q) := mAlone_completes hp ho hb rfl rfl

section
variable (hn : n ≠ 0)
include hn

theorem execMaccZero_unallocated (hm : s.grp.amapAt b.toNat = none) : exec (.maccZero p q n b) s = .next (tDone (setUnalloc s) 2 p q) :=
  mAlone_completes hp ho hb (bne_iff_ne.mpr hn) (by simp only [hm])

theorem execMaccZero_zeroes {e : AEntry} (hm : s.grp.amapAt b.toNat = some e) (hi : n &&& ~~~e.band = 0) :
    exec (.maccZero p q n b) s = .next (tDone (zeroAcc s s.grp.core e.phys (fun r => bitAt n (r / 32))) 2 p q) :=
  mAlone_completes hp ho hb (bne_iff_ne.mpr hn) (by simp only [hm, hi]; rfl)

/-- A band outside the map's entry faults, at the lowest (R201). -/
theorem execMaccZero_outside {e : AEntry} {j : Nat} (hm : s.grp.amapAt b.toNat = some e) (hj : (n &&& ~~~e.band).getLsbD j = true)
    (hl : ∀ i, i < j → (n &&& ~~~e.band).getLsbD i = false) :
    exec (.maccZero p q n b) s = .next (raise s 2 (exc cACCBAND (256 * b.toNat + 32 * j)) none) := by
  have band : lowest 4 (bitAt (n &&& ~~~e.band)) = j := lowest_eq (BitVec.lt_of_getLsbD hj) hj hl
  have extra : (n &&& ~~~e.band != 0) = true := bne_iff_ne.mpr fun h => by simp [h] at hj
  exact mAlone_faults hp ho hb (bne_iff_ne.mpr hn) (by simp only [hm, extra, band, if_true])

theorem execMaccAttach_taken (hm : (s.grp.amapAt b.toNat).isSome = true) :
    exec (.maccAttach p q n k b) s = .next (raise s 2 (exc cACCBAND (256 * b.toNat)) none) :=
  mAlone_faults hp ho hb (bne_iff_ne.mpr hn) (if_pos hm)

theorem execMaccAttach_attaches {v : Nat} (hm : s.grp.amapAt b.toNat = none)
    (hk : accPublished s s.grp.core k.toNat (some s.grp.ctxid) = some v) : exec (.maccAttach p q n k b) s =
      .next (tDone (s.setAmap b.toNat (some { phys := v, owned := false, band := n, keys := [] })) 2 p q) :=
  mAlone_completes hp ho hb (bne_iff_ne.mpr hn) (by simp [hm, hk])

theorem execMaccAttach_waits (hm : s.grp.amapAt b.toNat = none) (hk : accPublished s s.grp.core k.toNat (some s.grp.ctxid) = none) :
    exec (.maccAttach p q n k b) s = .next (s.block 2) :=
  mAlone_blocks hp ho hb (bne_iff_ne.mpr hn) (by simp [hm, hk])

end

theorem execMaccShare_unallocated (hm : s.grp.amapAt b.toNat = none) :
    exec (.maccShare p q k b) s = .next (raise s 2 (exc cACCUN (256 * b.toNat)) none) :=
  mAlone_faults hp ho hb rfl (by simp only [hm])

theorem execMaccShare_publishes {e : AEntry} (hm : s.grp.amapAt b.toNat = some e) (he : e.owned = true)
    (hk : accPublished s s.grp.core k.toNat none = none) : exec (.maccShare p q k b) s =
      .next (tDone (s.setAmap b.toNat (some { e with keys := e.keys ++ [k.toNat] })) 2 p q) :=
  mAlone_completes hp ho hb rfl (by simp [hm, he, hk])

/-- A bank that is not OWNED faults, and so does a key that a group of any context has published on the core (log entry 43). -/
theorem execMaccShare_faults {e : AEntry} (hm : s.grp.amapAt b.toNat = some e)
    (h : e.owned = false ∨ (accPublished s s.grp.core k.toNat none).isSome = true) :
    exec (.maccShare p q k b) s = .next (raise s 2 (exc cACCBAND (256 * b.toNat)) none) := by
  have refused : (!e.owned || (accPublished s s.grp.core k.toNat none).isSome) = true := by simpa using h
  exact mAlone_faults hp ho hb rfl (by simp only [hm, refused, if_true])

end

/-- Settles O51: past the checks of `mDo` and `mAlone` each instruction ends as its body does, and `msync` looks at the command before it. -/
theorem matrixInstructions : Obligations.MatrixInstructions := by
  intro p q d a f n b m o k t sn v e ex s s1 hp hb ho w x y oc err bank
  refine ⟨fun hf => ?_, fun hf => ?_, fun hf hm => ?_, fun hf => execMdset_sets hp hb ho (.inl hf), execMdset_illegal hp,
    execMdadd_adds hp hb ho, execMdmov_moves hp hb ho, execMdld_loads hp hb ho, execMdld_faults hp hb ho, execMsync_waits hp hb ho,
    fun hb => ⟨fun hw hm => ?_, execMocfg_illegal hp, execMstat_illegal hp,
      fun h8 h15 hf hs => ⟨execMstat_writes hp ho hb h8 h15 hf hs, execMstat_faults hp ho hb h8 h15 hf hs⟩,
      execMsync_passes hp hb ho, fun x => execMsync_ends hp hb, execMleave_leaves hp ho hb, leaveSession_none,
      execMaccAlloc_takes hp ho hb, execMaccAlloc_faults hp ho hb, execMaccFree_frees hp ho hb,
      execMaccZero_unallocated hp ho hb, fun hn => execMaccZero_zeroes hp ho hb hn, fun j hn => execMaccZero_outside hp ho hb hn,
      execMaccShare_unallocated hp ho hb, execMaccShare_publishes hp ho hb, execMaccShare_faults hp ho hb,
      execMaccAttach_taken hp ho hb, fun hn => execMaccAttach_attaches hp ho hb hn, execMaccAttach_waits hp ho hb,
      fun hn => ⟨execMaccZero_illegal hp hn, execMaccAttach_illegal hp hn⟩⟩⟩
  · subst hf; exact execMdset_sets hp hb ho (.inl (by decide))
  · subst hf; exact execMdset_sets hp hb ho (.inl (by decide))
  · subst hf; exact execMdset_sets hp hb ho (.inr ⟨rfl, hm⟩)
  · rw [execMocfg_stages hp ho hb hw hm, ocPart_toNat]

end Sys2Proof.Machine
end

section
/-! SUPPORT. Tile commands: their start (R227, R236, R237), the frames of sessions and of local members (R204, R213), and the elements of a
frame (R216, R220, R238). -/

namespace Sys2Proof.Machine

-- The start of a command (R227, R236, R237) ------------------------------------------------------------------------------------

section
variable {s : State} {r : MReq}

/-- What an instruction that asks for the tile command `r` answers: ILLEGAL for the reserved MF, a wait behind an earlier command, or the start. -/
def AsksTile (s : State) (e : Out) (r : MReq) : Prop :=
  (r.mf = 3 → e = .next (illegal s 2)) ∧ (r.mf ≠ 3 → tileBusy s = true → e = .next (s.block 2)) ∧
  (r.mf ≠ 3 → tileBusy s = false → e = .next (startTile (s.updGrp (fun g => { g with mreq := some r }))))

theorem tileReq_asksTile (hp : Placed s) : AsksTile s (tileReq s r) r := by
  refine ⟨fun hm => ?_, fun hm hb => ?_, fun hm hb => ?_⟩
  · simp only [tileReq, noGroup_false hp, hm, beq_self_eq_true, Bool.false_eq_true, if_false, if_true]
  · simp only [tileReq, noGroup_false hp, beq_false_of_ne hm, hb, Bool.false_eq_true, if_false, if_true]
  · simp only [tileReq, noGroup_false hp, beq_false_of_ne hm, hb, Bool.false_eq_true, if_false]

/-- The state in which the command of a fresh request has started under the format word `w`: its tokens and its format word are taken, and it
waits for its frame. -/
def tileStarted (u : State) (r : MReq) (w : W64) : State :=
  (((tokIssue (u.updGrp (fun g => { g with mreq := none })) 2 r.pops r.push).updGrp (fun g => { g with
    fmtq := g.fmtq.drop 1 })).updGrp (fun g => { g with mcmd := some (newTile u r w false 0) })).updStream 2 (fun t => { t with run := .ready })

/-- A fresh request that passes its checks starts. -/
theorem startTile_starts {u : State} {w : W64} (hu : { s with iw := r.word } = u) (hr : s.grp.mreq = some r)
    (hn : prgMatch s.grp.prgm (s.pc 2) = false) (ho : TokOpen u 2 r.pops r.push) (hw : s.grp.fmtq.head? = some w)
    (hc : tileChecks u r w = .ok () u) (hb : windowBad u w = false) : startTile s = tileStarted u r w := by
  have hn' : prgMatch s.grp.prgm (u.pc 2) = false := by rw [← hu]; exact hn
  have hw' : u.grp.fmtq.head? = some w := by rw [← hu]; exact hw
  unfold TokOpen at ho
  simp only [startTile, hr, hu, hn', ho, hw', hc, hb, Bool.false_and, Bool.false_eq_true, if_false]
  rfl

/-- A request that waits is tried again. -/
theorem execTileCommandStart_retries {u : State} {h : BitVec 64} (hu : s.focus h = u) (hf : u.focused h = true) (hs : u.grp.st = .running)
    (hg : goesOn u 2 = true) (hb : tileBusy u = false) : exec (.tileCommandStart h) s = .next (startTile u) := by
  show execTileCommandStart h s = _
  simp only [execTileCommandStart, hu, hf, hs, hg, hb, beq_self_eq_true, Bool.not_false, Bool.and_self, if_true]

end

-- Frames (R204, R213, R367) ------------------------------------------------------------------------------------------------------

/-- No fault is found where none of the commands of the groups has one. -/
theorem faultsIn_eq_nil {gs : List Group} {f : Group → TileCmd → Option (Exc × Option Nat)} :
    faultsIn gs f = [] ↔ ∀ g ∈ gs, ∀ c, g.mcmd = some c → f g c = none := by
  simp [faultsIn, Option.bind_eq_none_iff]

/-- A preamble that moves no channel of a string of this module notes the channels without light, and leaves no record. -/
theorem preambleMoves_unmoved {s : State} {n : Nat} {dark : BitVec 68} (hi : (s.str n).isIn = false)
    (hm : movedChannels (s.str n) { s.str n with failed := (s.str n).failed ||| dark }.remap = []) :
    preambleMoves s n dark = remapStr s n ((s.str n).failed ||| dark) := by
  simp only [preambleMoves, hi, hm, List.isEmpty_nil, Bool.false_eq_true, if_false, if_true]

theorem localStart_begins {u : State} {mm : Memb} {c : TileCmd} {dark : BitVec 68} (hb : windowBad (preambleMoves u u.grp.strNo dark) c.fw = false) :
    localStart u mm c dark = beginFrame (preambleMoves u u.grp.strNo dark) c.abnd c.rerun mm.div := by
  simp only [localStart, hb, Bool.false_eq_true, if_false]
theorem localStart_narrow {u : State} {mm : Memb} {c : TileCmd} {dark : BitVec 68} (hb : windowBad (preambleMoves u u.grp.strNo dark) c.fw = true) :
    localStart u mm c dark = tileFaults (preambleMoves u u.grp.strNo dark)
      (faultsIn [(preambleMoves u u.grp.strNo dark).grp] (fun _ c => some (exc cWINFAIL 0, some c.elem))) := by
  simp only [localStart, hb, if_true]

section
variable {s u : State} {h : BitVec 64} {dark : BitVec 68} {pre : List (BitVec 64)} {mm : Memb}
variable (hu : s.focus h = u) (hm : u.grp.memb = some mm)
include hu hm

/-- A string whose function is not READY shows no frame (R367). -/
theorem execFrameStart_down (hr : mm.role ≠ 2) (hd : strDown u mm.str = true) : exec (.frameStart h dark pre) s = .next u := by
  show execFrameStart h dark pre s = _
  simp only [execFrameStart, hu, hm, beq_false_of_ne hr, hd, Bool.or_true, Bool.false_eq_true, if_false, if_true]

variable (hf : u.focused h = true)
include hf

/-- The frame of a local member starts alone, in what its preamble leaves. -/
theorem execFrameStart_local {c : TileCmd} (hr : mm.role = 2) (hc : u.grp.mcmd = some c) (hi : c.inFrame = false) (hh : holds u u.grp = false)
    (hd : strDown u u.grp.strNo = false) : exec (.frameStart h dark []) s = .next (localStart u mm c dark) := by
  show execFrameStart h dark [] s = _
  simp only [execFrameStart, hu, hm, hr, hc, hf, hi, hh, hd, beq_self_eq_true, Bool.not_true, Bool.or_self, Bool.false_eq_true, if_false, if_true]

variable (ho : u.grp.onStr mm.str = true) (hd : strDown u mm.str = false)
include ho hd

/-- The preamble of a talker that waits for its listeners is compared at those here. -/
theorem execFrameStart_shown (hr : mm.role = 1) (hi : (u.str mm.str).isIn = true) (hl : pre.length = 13) :
    exec (.frameStart h dark pre) s = .next (showPreamble u mm.str (pre.map (fun x => x.toNat))) := by
  have session : (mm.role == 2) = false := by rw [hr]; rfl
  show execFrameStart h dark pre s = _
  simp only [execFrameStart, hu, hm, session, hf, ho, hi, hd, hl, beq_self_eq_true, Bool.not_true, Bool.false_and, Bool.and_self, Bool.or_self,
    Bool.false_eq_true, if_false, if_true]

/-- A frame that is due, whose string is wide enough and whose listeners agree starts in every member of the session. -/
theorem execFrameStart_session {u1 : State} (hu1 : preambleMoves u mm.str dark = u1) (hr1 : mm.role ≠ 1) (hr2 : mm.role ≠ 2)
    (hi : (u.str mm.str).isIn = false) (hdue : frameDue u mm.str = true) (hs : strShut u1 mm.str = false)
    (hw : (preambleOf u.grp).getD 4 4 ≤ (u1.str mm.str).liveWidth)
    (ha : ∀ g ∈ membersOf u1 mm.str, roleListens g.role = true → mismatchOf g (preambleOf u.grp) = none) :
    exec (.frameStart h dark []) s = .next ((membersOf u1 mm.str).foldl (fun s g => onGroup s g.handle (fun s =>
      beginFrame s ((preambleOf u.grp).getD 11 1) (BitVec.ofNat 32 ((preambleOf u.grp).getD 10 0)) ((preambleOf u.grp).getD 9 0)))
      (u1.updStr mm.str (fun t => { t with sess := .frame, members := t.members.map (fun m => { m with ready := false }) }))) := by
  have agree : faultsIn (membersOf u1 mm.str) (fun g c =>
      if roleListens g.role then (mismatchOf g (preambleOf u.grp)).map (fun r => (exc cSESSMM r, mismatchEl c.elem)) else none) = [] := by
    refine faultsIn_eq_nil.mpr fun g hg c _ => ?_
    by_cases hl : roleListens g.role
    · rw [if_pos hl, ha g hg hl, Option.map_none]
    · rw [if_neg hl]
  have wide : ¬ (u1.str mm.str).liveWidth < (preambleOf u.grp).getD 4 4 := Nat.not_lt.mpr hw
  show execFrameStart h dark [] s = _
  simp only [execFrameStart, hu, hm, beq_false_of_ne hr1, beq_false_of_ne hr2, hf, ho, hi, hd, hdue, hu1, hs, agree, wide,
    List.isEmpty_nil, decide_false, Bool.not_true, Bool.not_false, Bool.and_false, Bool.false_and, Bool.or_self, Bool.false_eq_true, if_false]

end

-- What an element finds (R216, R238) ---------------------------------------------------------------------------------------------

/-- Groups that report nothing flag nothing (R216). -/
@[simp] theorem obsOf_nil (s : State) (g : Group) : obsOf s [] g = 0 := by
  have none' : delaysOf g [] = [] := rfl
  simp [obsOf, residual, none']
@[simp] theorem flaggedAfar_nil (s : State) (n : Nat) : flaggedAfar s n [] = false := rfl
@[simp] theorem setTrims_nil (s : State) (core n : Nat) (only : Bool) : setTrims s core n [] only = s := rfl

/-- Without observations an accepted element moves no trim. -/
theorem foldl_setTrims_nil (gs : List Group) (s : State) (only : Bool) :
    gs.foldl (fun s g => setTrims s g.core g.strNo (delaysOf g []) only) s = s := by
  induction gs with
  | nil => rfl
  | cons g gs ih => exact ih

/-- The groups of some handles. -/
def State.among (s : State) (hs : List W64) : List Group := s.groups.filter (fun g => hs.contains g.handle)

/-- The faults that `f` finds at the next element of the groups of some handles, each with its group in focus. -/
def foundAt (s : State) (hs : List W64) (f : State → TileCmd → Option (Exc × Nat)) : List TileExc :=
  faultsIn (s.among hs) (fun g c => (f (s.focus g.handle) c).map (fun x => (x.1, some x.2)))

theorem foundAt_eq_nil {s : State} {hs : List W64} {f : State → TileCmd → Option (Exc × Nat)} : foundAt s hs f = [] ↔
    ∀ g ∈ s.groups, hs.contains g.handle = true → ∀ c, g.mcmd = some c → f (s.focus g.handle) c = none := by
  simp only [foundAt, State.among, faultsIn_eq_nil, List.mem_filter, Option.map_eq_none_iff, and_imp]

/-- The members that perform the element of the group in focus: itself where it is local, else those of its session that are in the frame. -/
def performers (u : State) : List Group :=
  if u.grp.role == 2 then [u.grp] else (membersOf u u.grp.strNo).filter (fun g => g.mcmd.any (fun c => c.inFrame))

/-- The element begun in the groups of some handles, with the physical channels that fail during the window (R204). -/
def elementBegun (u : State) (hs : List W64) (dark : BitVec 68) : State :=
  hs.foldl (fun s h => onGroup s h beginTile)
    (if (u.str u.grp.strNo).isIn then u else u.updStr u.grp.strNo (fun t => { t with failed := t.failed ||| dark }))

/-- The window of the element staged in the groups of some handles (R238). -/
def windowStaged (v : State) (hs : List W64) : State :=
  v.updGroups (fun g => hs.contains g.handle) (fun g => { g with
    mcmd := g.mcmd.map (fun c => stageWindow g c (roleSends g.role) (roleListens g.role)) })

/-- The member that sends an element's activations. -/
def senderOf (y : State) (hs : List W64) : Group := ((y.among hs).find? (fun g => roleSends g.role)).getD y.grp

/-- An element whose data could be read and whose windows are staged in `y`, where no receiver and no other module reports anything: it is flagged,
ends in the accumulators' faults, or is accepted (R216, R238). -/
def windowRun (y : State) (n : Nat) (hs : List W64) (x : TileCmd) (laser : BitVec 1) : Out :=
  let las := laser == 1 || (!(y.str n).isIn && (List.range (fwL x.fw)).any (fun l => !(y.str n).works l))
  if las || (y.among hs).any (fun g => obsOf y [] g != 0) || flaggedAfar y n [] then .next (flagged y n hs (y.grp.mcmd.getD x) las [])
  else if !(foundAt y hs accFault).isEmpty then .next (tileFaults y (foundAt y hs accFault))
  else .next (accepted ((y.among hs).foldl (fun s g => setTrims s g.core g.strNo (delaysOf g []) true) y) n hs (senderOf y hs)
    ((senderOf y hs).mcmd.getD (y.grp.mcmd.getD x))
    (if roleSends (senderOf y hs).role then (senderOf y hs).mcmd.bind (fun c => activation (senderOf y hs) c) else lightOf []))

/-- An element begun in the state `v`: it ends in the faults of its reads, or its window runs (R238). -/
def elementRun (v : State) (n : Nat) (hs : List W64) (x : TileCmd) (laser : BitVec 1) : Out :=
  if !(foundAt v hs elementFault).isEmpty then .next (tileFaults v (foundAt v hs elementFault))
  else windowRun (windowStaged v hs) n hs x laser

/-- Whether the element of the command `c` of the group in focus cannot be performed now. -/
def elementWaits (u : State) (h : BitVec 64) (c : TileCmd) : Bool :=
  !u.focused h || !c.inFrame || (u.str u.grp.strNo).failing || ((performers u).any (holds u) && !framePassed u)

theorem execTileElement_eq (h : BitVec 64) (o : BitVec 1) (dark : BitVec 68) (s : State) : exec (.tileElement h (o, dark) [] []) s =
    match (s.focus h).grp.mcmd with
    | none => .next (s.focus h)
    | some c =>
      if elementWaits (s.focus h) h c then .next (s.focus h)
      else elementRun (elementBegun (s.focus h) ((performers (s.focus h)).map (fun g => g.handle)) dark) (s.focus h).grp.strNo
        ((performers (s.focus h)).map (fun g => g.handle)) c o := rfl

/-- In a frame, on a string that is not failing over and with no member that holds, an element runs. -/
theorem execTileElement_runs {s u : State} {h : BitVec 64} {o : BitVec 1} {dark : BitVec 68} {x : TileCmd} {hs : List W64} (hu : s.focus h = u)
    (hx : u.grp.mcmd = some x) (hf : u.focused h = true) (hi : x.inFrame = true) (hl : (u.str u.grp.strNo).failing = false)
    (hh : ∀ g ∈ performers u, holds u g = false) (hp : (performers u).map (fun g => g.handle) = hs) :
    exec (.tileElement h (o, dark) [] []) s = elementRun (elementBegun u hs dark) u.grp.strNo hs x o := by
  have free : (performers u).any (holds u) = false := by simpa using hh
  rw [execTileElement_eq, hu, hx, hp]
  exact if_neg (by simp [elementWaits, hf, hi, hl, free])

section
variable {v y : State} {n : Nat} {hs : List W64} {x : TileCmd} {o : BitVec 1}

theorem elementRun_faults (hf : foundAt v hs elementFault ≠ []) :
    elementRun v n hs x o = .next (tileFaults v (foundAt v hs elementFault)) := by
  simp only [elementRun, List.isEmpty_eq_false_iff.mpr hf, Bool.not_false, if_true]

theorem elementRun_read (hf : foundAt v hs elementFault = []) : elementRun v n hs x o = windowRun (windowStaged v hs) n hs x o := by
  simp only [elementRun, hf, List.isEmpty_nil, Bool.not_true, Bool.false_eq_true, if_false]

/-- The comb monitor flags the window (R216). -/
theorem windowRun_flagged : windowRun y n hs x 1 = .next (flagged y n hs (y.grp.mcmd.getD x) true []) := by
  simp only [windowRun, beq_self_eq_true, Bool.true_or, if_true]

section
variable (hw : (List.range (fwL x.fw)).all (fun l => (y.str n).works l) = true)
include hw

/-- With every channel at work nothing flags the window. -/
theorem windowRun_clean : windowRun y n hs x 0 =
    if !(foundAt y hs accFault).isEmpty then .next (tileFaults y (foundAt y hs accFault))
    else .next (accepted y n hs (senderOf y hs) ((senderOf y hs).mcmd.getD (y.grp.mcmd.getD x))
      (if roleSends (senderOf y hs).role then (senderOf y hs).mcmd.bind (fun c => activation (senderOf y hs) c) else lightOf [])) := by
  have lit : (List.range (fwL x.fw)).any (fun l => !(y.str n).works l) = false := by simpa using hw
  have quiet : (y.among hs).any (fun g => obsOf y [] g != 0) = false := by simp
  have monitor : ((0 : BitVec 1) == 1) = false := rfl
  simp only [windowRun, monitor, lit, quiet, flaggedAfar_nil, foldl_setTrims_nil, Bool.and_false, Bool.or_self, Bool.false_eq_true, if_false]

theorem windowRun_faults (hf : foundAt y hs accFault ≠ []) : windowRun y n hs x 0 = .next (tileFaults y (foundAt y hs accFault)) := by
  rw [windowRun_clean hw, List.isEmpty_eq_false_iff.mpr hf]; rfl

/-- It is accepted from the activations of the member that sends (R238). -/
theorem windowRun_accepted {t : Group} {c : TileCmd} (hf : foundAt y hs accFault = [])
    (ht : (y.among hs).find? (fun g => roleSends g.role) = some t) (hc : t.mcmd = some c) :
    windowRun y n hs x 0 = .next (accepted y n hs t c (activation t c)) := by
  have sender : senderOf y hs = t := by rw [senderOf, ht, Option.getD_some]
  have sends : roleSends t.role = true := List.find?_some (p := fun g : Group => roleSends g.role) ht
  rw [windowRun_clean hw, hf, sender, hc, if_pos sends]; rfl

end
end

-- A local member, alone in its frame -----------------------------------------------------------------------------------------------

theorem State.focus_focused {s : State} {h : W64} (hf : s.focused h = true) : s.focus h = s := if_pos hf

theorem State.placed_of_focused {s : State} {h : W64} (hf : s.focused h = true) : Placed s := by
  obtain ⟨placed, -⟩ := Bool.and_eq_true_iff.mp hf
  exact bne_iff_ne.mp placed

theorem State.focused_self {s : State} (hp : Placed s) : s.focused s.grp.handle = true := by
  unfold Placed at hp; simp [State.focused, hp]

/-- With its group in focus an operation is itself, where it keeps the group there. -/
theorem onGroup_self {s : State} {f : State → State} (hp : Placed s) (hk : (f s).grp.st = s.grp.st ∧ (f s).grp.handle = s.grp.handle) :
    onGroup s s.grp.handle f = f s := by
  have here : (s.groupOf s.grp.handle).isNone = false := by
    unfold Placed at hp; simp [State.groupOf, State.groups, hp]
  have still : (f s).focused s.grp.handle = true := by
    unfold Placed at hp; simp [State.focused, hk, hp]
  simp only [onGroup, here, State.focus_focused (State.focused_self hp), State.focus_focused still, Bool.false_eq_true, if_false]

/-- No other group has the handle of the one in focus. -/
def Alone (s : State) : Prop := ∀ g ∈ s.others, g.handle ≠ s.grp.handle

/-- The beginning of a command changes the group in focus alone, and keeps its identity, run state and membership. -/
theorem beginTile_frame (s : State) : ∃ g, beginTile s = { s with grp := g } ∧ g.st = s.grp.st ∧ g.handle = s.grp.handle ∧ g.memb = s.grp.memb := by
  unfold beginTile
  split
  · exact ⟨s.grp, rfl, rfl, rfl, rfl⟩
  · split
    · exact ⟨s.grp, rfl, rfl, rfl, rfl⟩
    · exact ⟨_, rfl, rfl, rfl, rfl⟩

section
variable {s : State} (hp : Placed s) (ha : Alone s)
include hp ha

theorem State.among_self : s.among [s.grp.handle] = [s.grp] := by
  unfold Placed at hp
  have others : (s.others.filter (fun g => g.st != .none)).filter (fun g => [s.grp.handle].contains g.handle) = [] :=
    List.filter_eq_nil_iff.mpr fun g hg => by simpa using ha g (List.mem_filter.mp hg).1
  rw [State.among, State.groups, List.filter_cons_of_pos (by simpa using hp), List.filter_cons_of_pos (by simp), others]

theorem windowStaged_self (hr : s.grp.role = 2) : windowStaged s [s.grp.handle] =
    s.updGrp (fun g => { g with mcmd := g.mcmd.map (fun c => stageWindow g c true true) }) := by
  unfold Placed at hp
  have others : s.others.map (fun g => if [s.grp.handle].contains g.handle then { g with
      mcmd := g.mcmd.map (fun c => stageWindow g c (roleSends g.role) (roleListens g.role)) } else g) = s.others := by
    refine (List.map_congr_left fun g hg => if_neg ?_).trans (List.map_id _)
    simpa using ha g hg
  simp only [windowStaged, State.updGroups, others, State.updGrp, hr]
  simp [hp, roleSends, roleListens]

theorem foundAt_self {c : TileCmd} (hc : s.grp.mcmd = some c) (f : State → TileCmd → Option (Exc × Nat)) : foundAt s [s.grp.handle] f =
    ((f s c).map (fun x => ({ h := s.grp.handle, word := c.word, e := x.1, el := some x.2 } : TileExc))).toList := by
  rw [foundAt, State.among_self hp ha]
  cases hx : f s c <;> simp [faultsIn, hc, hx, State.focus_focused (State.focused_self hp)]

end

/-- An element begun in a group alone leaves the others, and the identity, run state and membership of that group. -/
theorem elementBegun_self {u : State} (dark : BitVec 68) (hp : Placed u) : ∃ strs g, elementBegun u [u.grp.handle] dark =
    { u with strs := strs, grp := g } ∧ g.st = u.grp.st ∧ g.handle = u.grp.handle ∧ g.memb = u.grp.memb := by
  have darkened : ∃ strs, (if (u.str u.grp.strNo).isIn then u
      else u.updStr u.grp.strNo (fun t => { t with failed := t.failed ||| dark })) = { u with strs := strs } := by
    split
    · exact ⟨u.strs, rfl⟩
    · exact ⟨_, rfl⟩
  obtain ⟨strs, hd⟩ := darkened
  obtain ⟨g, hb, hst, hh, hm⟩ := beginTile_frame { u with strs := strs }
  refine ⟨strs, g, ?_, hst, hh, hm⟩
  show onGroup (if (u.str u.grp.strNo).isIn then u else _) u.grp.handle beginTile = _
  rw [hd]
  exact (onGroup_self (s := { u with strs := strs }) hp (by rw [hb]; exact ⟨hst, hh⟩)).trans hb

theorem elementBegun_local {u v : State} {dark : BitVec 68} (hv : elementBegun u [u.grp.handle] dark = v) (hp : Placed u) (ha : Alone u)
    (hr : u.grp.role = 2) : Placed v ∧ Alone v ∧ v.grp.handle = u.grp.handle ∧ v.grp.role = 2 := by
  obtain ⟨strs, g, frame, hst, hk, hm⟩ := elementBegun_self dark hp
  obtain rfl := frame.symm.trans hv
  refine ⟨fun h => hp (hst.symm.trans h), fun x hx => ?_, hk, ?_⟩
  · rw [show State.grp { u with strs := strs, grp := g } = g from rfl, hk]; exact ha x hx
  · show (g.memb.map (fun m => m.role)).getD 4 = 2
    rw [hm]; exact hr

section
variable {v y : State} {k : W64} {n : Nat} {x x1 z : TileCmd} {o : BitVec 1} {f : Exc × Nat}
variable (hp : Placed v) (ha : Alone v) (hk : v.grp.handle = k) (hx : v.grp.mcmd = some x1)
include hp ha hk hx

theorem elementRun_local_faults (hf : elementFault v x1 = some f) : elementRun v n [k] x o =
    .next (tileFaults v [{ h := k, word := x1.word, e := f.1, el := some f.2 }]) := by
  have found := foundAt_self hp ha hx elementFault
  rw [hf, hk] at found
  rw [elementRun_faults (by rw [found]; simp), found]; rfl

variable (hr : v.grp.role = 2) (hy : v.updGrp (fun g => { g with mcmd := g.mcmd.map (fun c => stageWindow g c true true) }) = y)
  (hz : stageWindow v.grp x1 true true = z)
include hr hy

theorem elementRun_local_read (hf : elementFault v x1 = none) : elementRun v n [k] x o = windowRun y n [k] x o := by
  have found := foundAt_self hp ha hx elementFault
  rw [hf, hk] at found
  rw [elementRun_read found, ← hy, ← windowStaged_self hp ha hr, hk]

include hz

/-- The group with its window staged. -/
theorem windowStaged_local : Placed y ∧ Alone y ∧ y.grp.handle = k ∧ y.grp.mcmd = some z ∧ roleSends y.grp.role = true := by
  subst hy
  refine ⟨hp, ha, hk, ?_, ?_⟩
  · simp [hx, hz]
  · show roleSends v.grp.role = true
    rw [hr]; rfl

theorem windowRun_local_flagged : windowRun y n [k] x 1 = .next (flagged y n [k] z true []) := by
  obtain ⟨-, -, -, hyc, -⟩ := windowStaged_local hp ha hk hx hr hy hz
  rw [windowRun_flagged, hyc, Option.getD_some]

variable (hw : (List.range (fwL x.fw)).all (fun l => (y.str n).works l) = true)
include hw

theorem windowRun_local_faults (hf : accFault y z = some f) : windowRun y n [k] x 0 =
    .next (tileFaults y [{ h := k, word := z.word, e := f.1, el := some f.2 }]) := by
  obtain ⟨hyp, hya, hyk, hyc, -⟩ := windowStaged_local hp ha hk hx hr hy hz
  have found := foundAt_self hyp hya hyc accFault
  rw [hf, hyk] at found
  rw [windowRun_faults hw (by rw [found]; simp), found]; rfl

theorem windowRun_local_accepted (hf : accFault y z = none) :
    windowRun y n [k] x 0 = .next (accepted y n [k] y.grp z (activation y.grp z)) := by
  obtain ⟨hyp, hya, hyk, hyc, hys⟩ := windowStaged_local hp ha hk hx hr hy hz
  have found := foundAt_self hyp hya hyc accFault
  have sender := State.among_self hyp hya
  rw [hf, hyk] at found
  rw [hyk] at sender
  exact windowRun_accepted hw found (by rw [sender]; simp [hys]) hyc

end

theorem performers_local {u : State} (hr : u.grp.role = 2) : performers u = [u.grp] := by simp [performers, hr]
theorem performers_session {u : State} (hr : u.grp.role ≠ 2) :
    performers u = (membersOf u u.grp.strNo).filter (fun g => g.mcmd.any (fun c => c.inFrame)) := by simp [performers, hr]

/-- Settles O52: each event meets the condition of its lemma, and an element runs in its session's members or in its group alone. -/
theorem tileCommands : Obligations.TileCommands := by
  intro p q n m a b c r w s hp started asks req
  refine ⟨tileReq_asksTile hp, tileReq_asksTile hp, tileReq_asksTile hp, startTile_starts rfl,
    fun h hf hs hg hb => execTileCommandStart_retries rfl hf hs hg hb, ?_, ?_,
    fun h dark pre mm hm hf hr ho hi hl hd => execFrameStart_shown rfl hm hf ho hd hr hi hl,
    fun h dark pre mm hm hr hd => execFrameStart_down rfl hm hr hd, ?_, ?_⟩
  · intro h dark mm u t pre u1 hm hf ho hdue hi hr1 hr2 hd hs hmoved hw ha
    exact ⟨_, execFrameStart_session rfl hm hf ho hd (preambleMoves_unmoved hi hmoved) hr1 hr2 hi hdue hs hw ha, rfl⟩
  · intro h dark mm c u u1 hm hf hr hc hi hh hd
    have start := execFrameStart_local (dark := dark) rfl hm hf hr hc hi hh hd
    exact ⟨fun hb => start.trans (congrArg _ (localStart_begins hb)), fun hb => start.trans (congrArg _ (localStart_narrow hb))⟩
  · intro h dark x c talker u n hs v y hx hf hi hl hr hh hv ht hc
    have members := performers_session hr
    have runs (o : BitVec 1) : exec (.tileElement h (o, dark) [] []) s = windowRun y n hs x o :=
      (execTileElement_runs rfl hx hf hi hl (fun g hg => hh g (List.mem_filter.mp (members ▸ hg)).1) (by rw [members])).trans
        (elementRun_read (foundAt_eq_nil.mpr hv))
    exact ⟨fun hw ha => (runs 0).trans (windowRun_accepted hw (foundAt_eq_nil.mpr ha) ht hc), (runs 1).trans windowRun_flagged⟩
  · intro h dark x x1 u n v y z hx hf hi hl hr hh ha hx1 ends
    obtain ⟨hvp, hva, hvk, hvr⟩ := elementBegun_local (v := v) rfl (State.placed_of_focused hf) ha hr
    have runs (o : BitVec 1) : exec (.tileElement h (o, dark) [] []) s = elementRun v n [u.grp.handle] x o :=
      execTileElement_runs rfl hx hf hi hl (by rw [performers_local hr]; simpa using hh) (by rw [performers_local hr]; rfl)
    have read (o : BitVec 1) (hf : elementFault v x1 = none) := (runs o).trans (elementRun_local_read hvp hva hvk hx1 hvr rfl hf)
    exact ⟨fun f o hf => (runs o).trans (elementRun_local_faults hvp hva hvk hx1 hf), fun hf =>
      ⟨fun hw f ha => (read 0 hf).trans (windowRun_local_faults hvp hva hvk hx1 hvr rfl rfl hw ha),
        fun hw ha => (read 0 hf).trans (windowRun_local_accepted hvp hva hvk hx1 hvr rfl rfl hw ha),
        (read 1 hf).trans (windowRun_local_flagged hvp hva hvk hx1 hvr rfl rfl)⟩⟩

end Sys2Proof.Machine
end

section
/-! SUPPORT. Copy commands (R245 to R262, R266): their issue, the checks that give their number of elements, and their elements. -/

namespace Sys2Proof.Machine

-- The issue of a command (R245, R249) --------------------------------------------------------------------------------------------

/-- The command of a fresh issue, with its registers captured. -/
def freshCopy (s : State) (kind : CKind) (p q : BitVec 3) (x y z : BitVec 4) (f : BitVec 8) : CopyCmd :=
  { kind := kind, pc := s.pc 3, word := s.iw, x0 := s.grp.a x.toNat, x1 := s.grp.a (x.toNat + 1), y0 := s.grp.a y.toNat,
    y1 := s.grp.a (y.toNat + 1), z0 := s.grp.a z.toNat, z1 := s.grp.a (z.toNat + 1), hnd := s.grp.h y.toNat, flags := f, pops := p,
    push := q, elem := 0, resumed := false, count := 0, desc := [] }

/-- The state after the issue of a command whose checks have left `s1`: its tokens are taken, and no command is one to resume (R61). -/
def copyIssued (s1 : State) (p q : BitVec 3) : State :=
  (tokIssue (clearRemote s1 3) 3 p q).updGrp (fun g => { g with prgc := prgClear g.prgc })

/-- What an instruction that asks for a copy command answers: ILLEGAL for reserved fields; once its tokens are there and the checks `k` have
passed, the command at its first element, or completed where it has none. -/
def BeginsCopy (s : State) (e : Out) (p q : BitVec 3) (legal : Prop) (k : Acc CopyCmd) : Prop :=
  (¬ legal → e = .next (illegal s 3)) ∧
  (legal → TokOpen s 3 p q → ∀ c s1, k = .ok c s1 →
    e = .next (if c.count = 0 then endCopy (copyIssued s1 p q) q
      else ((copyIssued s1 p q).updGrp (fun g => { g with ccmd := some c })).updStream 3 (fun t => { t with run := .ready })))

section
variable {f m : BitVec 8} {x y : BitVec 4}

theorem flagsIn_iff : flagsIn f m = true ↔ f &&& ~~~m = 0 := beq_iff_eq
theorem flagsIn_even_iff : (flagsIn f m && x.toNat % 2 == 0) = true ↔ f &&& ~~~m = 0 ∧ x.toNat % 2 = 0 := by
  rw [Bool.and_eq_true_iff, flagsIn_iff, beq_iff_eq]
theorem flagsIn_evens_iff : (flagsIn f m && x.toNat % 2 == 0 && y.toNat % 2 == 0) = true ↔
    f &&& ~~~m = 0 ∧ x.toNat % 2 = 0 ∧ y.toNat % 2 = 0 := by
  rw [Bool.and_eq_true_iff, flagsIn_even_iff, beq_iff_eq, and_assoc]

end

theorem cMulti_begins {s : State} {p q : BitVec 3} {kind : CKind} {legal : Bool} {lawful : Prop} {x y z : BitVec 4} {f : BitVec 8}
    {mk : State → CopyCmd → Acc CopyCmd} (hp : Placed s) (hc : s.grp.ccmd = none) (hr : prgMatch s.grp.prgc (s.pc 3) = false)
    (hl : legal = true ↔ lawful) :
    BeginsCopy s (cMulti s p q kind legal x y z f mk) p q lawful (mk s (freshCopy s kind p q x y z f)) := by
  refine ⟨fun h => ?_, fun h ho c s1 hk => ?_⟩
  · have reserved : legal = false := Bool.eq_false_iff.mpr (mt hl.mp h)
    simp only [cMulti, noGroup_false hp, reserved, Bool.not_false, Bool.false_eq_true, if_false, if_true]
  · unfold TokOpen at ho
    unfold freshCopy at hk
    simp only [cMulti, noGroup_false hp, hl.mpr h, hc, hr, ho, hk, Acc.bind_ok, Option.isSome_none, Bool.not_true, Bool.false_eq_true, if_false,
      ge_iff_le, Nat.le_zero]
    by_cases hn : c.count = 0
    · rw [if_pos hn, if_pos hn]; rfl
    · rw [if_neg hn, if_neg hn]; rfl

-- The checks, which leave the state as it is (R251) --------------------------------------------------------------------------------

/-- A step behind a refusal answers a value only where there is no refusal. -/
theorem Acc.refuse_eq_ok {α : Type} {p : Prop} [Decidable p] {e : Exc} {s t : State} {x : Acc α} {a : α}
    (h : (if p then .fault e s else x) = .ok a t) : ¬ p ∧ x = .ok a t := by
  by_cases hp : p
  · rw [if_pos hp] at h
    cases h
  · rw [if_neg hp] at h
    exact ⟨hp, h⟩

theorem copyPre_ok {s t : State} {c : CopyCmd} {bad : Bool} (h : copyPre s c bad = .ok () t) : bad = false ∧ t = s := by
  obtain ⟨hb, h⟩ := Acc.refuse_eq_ok h
  obtain ⟨-, h⟩ := Acc.refuse_eq_ok h
  injection h with _ hs
  exact ⟨Bool.eq_false_iff.mpr hb, hs.symm⟩

theorem copyAlign_ok {s t : State} {xs : List Nat} (h : copyAlign s xs = .ok () t) : (∀ x ∈ xs, x % 16 = 0) ∧ t = s := by
  unfold copyAlign at h
  split at h
  · cases h
  · next hx =>
    cases h
    exact ⟨fun x hm => by simpa using List.find?_eq_none.mp hx x hm, rfl⟩

theorem copyLocal_ok {s t : State} {rs : Regions} {fs : List Nat} (h : copyLocal s rs fs = .ok () t) : t = s := by
  unfold copyLocal at h
  split at h
  · cases h
  · dsimp only at h
    split at h
    · cases h
    · split at h <;> cases h
      rfl

section
variable {s t : State} {c : CopyCmd} {m n : Nat}

/-- A command that has passed its checks has the number of elements that they give it. -/
theorem CopyCmd.counted_ok {k : Acc Unit} (h : c.counted m k = .ok { c with count := n } t) : m = n ∧ k = .ok () t := by
  obtain ⟨_, s1, hk, hc⟩ := Acc.bind_eq_ok.mp h
  injection hc with hc hs
  exact ⟨congrArg CopyCmd.count hc, hs ▸ hk⟩

/-- The checks of R251 in their order. -/
theorem counted_checked {bad : Bool} {xs : List Nat} {rs : Regions} {fs : List Nat}
    (h : c.counted m ((copyPre s c bad).bind (fun _ s => (copyAlign s xs).bind (fun _ s => copyLocal s rs fs))) = .ok { c with count := n } t) :
    m = n ∧ t = s ∧ bad = false ∧ ∀ x ∈ xs, x % 16 = 0 := by
  obtain ⟨hn, hk⟩ := CopyCmd.counted_ok h
  obtain ⟨_, s1, hpre, hk⟩ := Acc.bind_eq_ok.mp hk
  obtain ⟨_, s2, halign, hlocal⟩ := Acc.bind_eq_ok.mp hk
  obtain ⟨hb, rfl⟩ := copyPre_ok hpre
  obtain ⟨hx, rfl⟩ := copyAlign_ok halign
  exact ⟨hn, copyLocal_ok hlocal, hb, hx⟩

theorem mkCpy_counts (h : mkCpy s c = .ok { c with count := n } t) (hl : c.len ≠ 0) :
    c.len % 16 = 0 ∧ n = c.len / 16 ∧ t = s ∧ c.x0.toNat % 16 = 0 ∧ c.y0.toNat % 16 = 0 := by
  simp only [mkCpy, beq_false_of_ne hl, Bool.false_eq_true, if_false] at h
  obtain ⟨hn, hs, hb, hx⟩ := counted_checked h
  obtain ⟨hlen, -⟩ := Bool.or_eq_false_iff.mp hb
  exact ⟨bne_eq_false_iff_eq.mp hlen, hn.symm, hs, hx _ (by simp), hx _ (by simp)⟩

theorem mkFill_counts (h : mkFill s c = .ok { c with count := n } t) (hl : c.len ≠ 0) :
    c.len % 16 = 0 ∧ n = c.len / 16 ∧ t = s ∧ c.x0.toNat % 16 = 0 := by
  simp only [mkFill, beq_false_of_ne hl, Bool.false_eq_true, if_false] at h
  obtain ⟨hn, hs, hb, hx⟩ := counted_checked h
  exact ⟨bne_eq_false_iff_eq.mp hb, hn.symm, hs, hx _ (by simp)⟩

theorem mkCpyS_counts (h : mkCpyS s c = .ok { c with count := n } t) (hl : fieldOf c.z0 39 20 * fieldOf c.z0 19 0 ≠ 0) :
    n = fieldOf c.z0 39 20 * fieldOf c.z0 19 0 ∧ n ≤ 2 ^ 32 := by
  simp only [mkCpyS, beq_false_of_ne hl, Bool.false_eq_true, if_false] at h
  obtain ⟨rfl, -, hb, -⟩ := counted_checked h
  obtain ⟨hlen, -⟩ := Bool.or_eq_false_iff.mp hb
  exact ⟨rfl, Nat.not_lt.mp (of_decide_eq_false hlen)⟩

theorem mkGather_counts (h : mkGather s c = .ok { c with count := n } t) (hl : fieldOf c.z0 31 0 ≠ 0) : n = fieldOf c.z0 31 0 ∧ c.rs ≠ 0 := by
  simp only [mkGather, beq_false_of_ne hl, Bool.false_eq_true, if_false] at h
  obtain ⟨hn, -, hb, -⟩ := counted_checked h
  exact ⟨hn.symm, beq_eq_false_iff_ne.mp hb⟩

theorem mkColl_counts (h : mkColl s c = .ok { c with count := n } t) (hl : fieldOf c.z0 31 0 ≠ 0) :
    n = fieldOf c.z0 31 0 ∧ c.x0.toNat % 128 = 0 := by
  simp only [mkColl, beq_false_of_ne hl, Bool.false_eq_true, if_false] at h
  obtain ⟨hn, hk⟩ := CopyCmd.counted_ok h
  obtain ⟨hx, -⟩ := Acc.refuse_eq_ok hk
  exact ⟨hn.symm, bne_eq_false_iff_eq.mp (Bool.eq_false_iff.mpr hx)⟩

end

-- The element in execution (R246) ----------------------------------------------------------------------------------------------------

section
variable {s t u : State} {c : CopyCmd} {h : BitVec 64} (hu : s.focus h = u) (hc : u.grp.ccmd = some c) (hf : u.focused h = true)
  (hg : goesOn u 3 = true)
include hu hc hf hg

theorem execCopyElement_performed (he : copyEl u c = .ok () t) : exec (.copyElement h) s =
    .next (if c.count ≤ c.elem + 1 then endCopy (clearRemote t 3) c.push
      else (clearRemote t 3).updGrp (fun g => { g with ccmd := some { c with elem := c.elem + 1 } })) := by
  show execCopyElement h s = _
  simp only [execCopyElement, hu, hc, hf, hg, he, Bool.and_self, Bool.not_true, Bool.false_eq_true, if_false, ge_iff_le]

theorem execCopyElement_faults {e : Exc} (he : copyEl u c = .fault e t) : exec (.copyElement h) s = .next (copyFault t c e) := by
  show execCopyElement h s = _
  simp only [execCopyElement, hu, hc, hf, hg, he, Bool.and_self, Bool.not_true, Bool.false_eq_true, if_false]

theorem execCopyElement_waits (he : copyEl u c = .wait t) : exec (.copyElement h) s = .next t := by
  show execCopyElement h s = _
  simp only [execCopyElement, hu, hc, hf, hg, he, Bool.and_self, Bool.not_true, Bool.false_eq_true, if_false]

end

-- Elements without barrier, full marks and FIFOs (Table 13-1, R255) ---------------------------------------------------------------------

section
variable {s : State} {c : CopyCmd}

theorem isFifo_below {loc : Bool} {a : W64} (h : a.toNat < 2 ^ 31) : isFifo loc a = false := by
  have below : decide (a.toNat ≥ fifoBase) = false := decide_eq_false (Nat.not_le.mpr h)
  rw [isFifo, below, Bool.and_false]

theorem copyBar_unbarred (hb : c.ben = false) : copyBar s c = .ok 0 s := by simp [copyBar, hb]
theorem copyDown_unbarred (hb : c.ben = false) (obj : Nat) (out : Bool) (n : Nat) : copyDown s c obj out n = s := by simp [copyDown, hb]
theorem copyScr_unmarked (hs : c.setf = false) (off n v : Nat) : copyScr s c off n v = s.setScr off n v := by simp [copyScr, hs]
theorem movePop_memory (hy : isFifo c.sloc c.y0 = false) : movePop s c = s := by simp [movePop, hy]
theorem moveRead_scratch (hy : isFifo c.sloc c.y0 = false) (hl : c.sloc = true) (a : Nat) : moveRead s c a = scrGet s a 16 :=
  (if_neg (Bool.eq_false_iff.mp hy)).trans (if_pos hl)
theorem moveRead_global (hy : isFifo c.sloc c.y0 = false) (hl : c.sloc = false) (a : Nat) : moveRead s c a = copyRead s a 16 false :=
  (if_neg (Bool.eq_false_iff.mp hy)).trans (if_neg (Bool.eq_false_iff.mp hl))

/-- A copy write that is on its way to another module goes on with the parts it was sent in, whatever is asked (R246). -/
theorem copyWrite_commits {ps : List CopyPart} (h : s.grp.cput = some ps) (va n v keep : Nat) : copyWrite s va n v keep = copyPuts s ps := by
  simp only [copyWrite, h]

/-- An element that is on its way to another module ends as its write does. -/
theorem copyEl_commits {ps : List CopyPart} (hb : c.ben = false) (h : s.grp.cput = some ps) : copyEl s c = copyPuts s ps := by
  have commits : copyEl s c = commitEl s c := if_pos (by rw [h]; rfl)
  rw [commits, commitEl, copyWrite_commits h]
  cases copyPuts s ps with
  | ok _ t => simp only [Acc.bind_ok, copyBar_unbarred hb, copyDown_unbarred hb]
  | fault e t => rfl
  | wait t => rfl

section
variable (hx : isFifo c.dloc c.x0 = false) (hy : isFifo c.sloc c.y0 = false)
include hx hy

/-- Each element of a `cpy` between memories moves the next 16 bytes. -/
theorem copyEl_cpy (hk : c.kind = .cpy) (hn : s.grp.cput = none) :
    copyEl s c = moveEl s c ((c.x0.toNat + 16 * c.elem) % 2 ^ 64) ((c.y0.toNat + 16 * c.elem) % 2 ^ 64) := by
  simp only [copyEl, hn, hk, hx, hy, Option.isSome_none, Bool.false_eq_true, if_false]

variable {dst src v : Nat} {t : State} (hb : c.ben = false) (hr : moveRead s c src = .ok v t)
include hb hr

theorem moveEl_scratch (hs : c.setf = false) (hd : c.dloc = true) : moveEl s c dst src = .ok () (t.setScr dst 16 v) := by
  simp only [moveEl, copyBar_unbarred hb, Acc.bind_ok, hr, hx, movePop_memory hy, copyScr_unmarked hs, copyDown_unbarred hb,
    Bool.false_eq_true, if_false]
  exact if_pos hd

theorem moveEl_global {t1 : State} (hd : c.dloc = false) (hw : copyWrite t dst 16 v 0 = .ok () t1) : moveEl s c dst src = .ok () t1 := by
  simp only [moveEl, copyBar_unbarred hb, Acc.bind_ok, hr, hx, hw, movePop_memory hy, copyDown_unbarred hb, Bool.false_eq_true, if_false]
  exact if_neg (Bool.eq_false_iff.mp hd)

end
end

/-- Settles O54: every command issues through `cMulti`, its checks give the count of elements and leave the state, and an element is its read
and its write. -/
theorem copyCommands : Obligations.CopyCommands := by
  intro p q x y z f s hp hc hr g cmd begins only even
  refine ⟨cMulti_begins hp hc hr flagsIn_iff, cMulti_begins hp hc hr flagsIn_evens_iff, cMulti_begins hp hc hr flagsIn_even_iff,
    cMulti_begins hp hc hr flagsIn_even_iff, cMulti_begins hp hc hr flagsIn_even_iff, cMulti_begins hp hc hr flagsIn_even_iff,
    cMulti_begins hp hc hr flagsIn_iff, cMulti_begins hp hc hr flagsIn_iff, cMulti_begins hp hc hr flagsIn_iff,
    cMulti_begins hp hc hr (iff_of_true rfl trivial),
    fun c n s1 => ⟨mkCpy_counts, mkFill_counts, mkCpyS_counts, mkGather_counts, mkColl_counts⟩, ?_, ?_, ?_⟩
  · intro h c s1 e u hcmd hf hg
    exact ⟨execCopyElement_performed rfl hcmd hf hg, execCopyElement_faults rfl hcmd hf hg, execCopyElement_waits rfl hcmd hf hg⟩
  · intro c v s1 s2 hk hb hs hn hx hy d o
    have dstMemory : isFifo c.dloc c.x0 = false := isFifo_below (Nat.lt_of_le_of_lt (Nat.le_add_right ..) hx)
    have srcMemory : isFifo c.sloc c.y0 = false := isFifo_below (Nat.lt_of_le_of_lt (Nat.le_add_right ..) hy)
    have moves : copyEl s c = moveEl s c d o := copyEl_cpy dstMemory srcMemory hk hn
    have scratch (hl : c.sloc = true) : moveRead s c o = scrGet s o 16 := moveRead_scratch srcMemory hl o
    have global (hl : c.sloc = false) : moveRead s c o = copyRead s o 16 false := moveRead_global srcMemory hl o
    exact ⟨fun hl hv hd => moves.trans (moveEl_scratch dstMemory srcMemory hb ((scratch hl).trans hv) hs hd),
      fun hl hv hd => moves.trans (moveEl_scratch dstMemory srcMemory hb ((global hl).trans hv) hs hd),
      fun hl hv hd hw => moves.trans (moveEl_global dstMemory srcMemory hb ((scratch hl).trans hv) hd hw),
      fun hl hv hd hw => moves.trans (moveEl_global dstMemory srcMemory hb ((global hl).trans hv) hd hw)⟩
  · exact fun c ps s1 hb hps => ⟨(copyEl_commits hb hps).trans, (copyEl_commits hb hps).trans⟩

end Sys2Proof.Machine
end

section
/-! SUPPORT. The single-step copy instructions: address registers (R252), tensor handles (R254), barriers (R263), signals (R264) and
prefetch (R265). -/

namespace Sys2Proof.Machine

-- The entries of the handle table (R254) -------------------------------------------------------------------------------------------------

/-- The index of the table entry that `ch.ld` and `ch.st` name. -/
def handleIndex (s : State) (y : BitVec 4) (j : BitVec 8) : Nat := (s.grp.a y.toNat + j.setWidth 64).toNat

section
variable {s : State} {y : BitVec 4} {j : BitVec 8}

theorem handleAt_outside (h : (s.ctx s.grp.ctxid).hcount ≤ handleIndex s y j) :
    handleAt s y j = .fault (exc cACCESS (handleIndex s y j)) s := if_pos h
theorem handleAt_inside (h : handleIndex s y j < (s.ctx s.grp.ctxid).hcount) :
    handleAt s y j = .ok (((s.ctx s.grp.ctxid).htab.toNat + 32 * handleIndex s y j) % 2 ^ 64) s := if_neg (Nat.not_le.mpr h)

end

section
variable {s s1 s2 s3 : State} {p q : BitVec 3} {x y : BitVec 4} {i : BitVec 16} {j b : BitVec 8} (hp : Placed s) (hc : s.grp.ccmd = none)
include hp hc

-- Where a copy instruction ends (R245) -------------------------------------------------------------------------------------------------

theorem cDo_alone (body : State → Acc Unit) : cDo s p q body = tDo s 3 p q body := by simp [cDo, noGroup_false hp, hc]

variable (ho : TokOpen s 3 p q)
include ho

theorem cDo_completes {body : State → Acc Unit} (h : body s = .ok () s1) : cDo s p q body = .next (tDone s1 3 p q) :=
  (cDo_alone hp hc body).trans (tDo_ok hp ho h)
theorem cDo_faults {body : State → Acc Unit} {e : Exc} (h : body s = .fault e s1) : cDo s p q body = .next (raise s1 3 e none) :=
  (cDo_alone hp hc body).trans (tDo_fault hp ho h)

-- Address registers (R252) ---------------------------------------------------------------------------------------------------------------

theorem caDo_sets (d : BitVec 4) (v : State → W64) : caDo s p q d v =
    .next (tDone (s.updGrp (fun g => { g with aregs := updAt g.aregs d.toNat (fun _ => v s) })) 3 p q) :=
  cDo_completes hp hc ho rfl

/-- `ca.lih` shifts the next 16 bits into the register. -/
theorem execCaLih_shifts : exec (.caLih p q x i) s = .next (tDone (s.updGrp (fun g => { g with
    aregs := updAt g.aregs x.toNat (fun _ => (s.grp.a x.toNat <<< 16) + i.setWidth 64) })) 3 p q) := by
  rw [BitVec.shiftLeft_eq_mul_twoPow]
  exact caDo_sets hp hc ho x _

-- Tensor handles (R254) ------------------------------------------------------------------------------------------------------------------

theorem execChLd_outside (h : (s.ctx s.grp.ctxid).hcount ≤ handleIndex s y j) :
    exec (.chLd p q x y j) s = .next (raise s 3 (exc cACCESS (handleIndex s y j)) none) :=
  cDo_faults hp hc ho (by simp only [handleAt_outside h, Acc.bind_fault])

theorem execChSt_outside (h : (s.ctx s.grp.ctxid).hcount ≤ handleIndex s y j) (hn : s.grp.cput = none) :
    exec (.chSt p q x y j) s = .next (raise s 3 (exc cACCESS (handleIndex s y j)) none) :=
  cDo_faults hp hc ho (by simp only [hn, Option.isSome_none, Bool.false_eq_true, if_false, handleAt_outside h, Acc.bind_fault])

/-- A store that is on its way to another module completes with its write. -/
theorem execChSt_commits {ps : List CopyPart} (hs : s.grp.cput = some ps) (h : copyPuts s ps = .ok () s1) :
    exec (.chSt p q x y j) s = .next (tDone s1 3 p q) :=
  cDo_completes hp hc ho ((if_pos (by rw [hs]; rfl)).trans ((copyWrite_commits hs ..).trans h))

section
variable {va : Nat} (hi : handleIndex s y j < (s.ctx s.grp.ctxid).hcount)
  (hva : va = ((s.ctx s.grp.ctxid).htab.toNat + 32 * handleIndex s y j) % 2 ^ 64)
include hi hva

theorem execChLd_loads {v : Nat} (h : copyHome s va 32 = .ok v s1) (hv : handleBad (BitVec.ofNat 256 v) = false) :
    exec (.chLd p q x y j) s =
      .next (tDone (s1.updGrp (fun g => { g with hregs := updAt g.hregs x.toNat (fun _ => BitVec.ofNat 256 v) })) 3 p q) :=
  cDo_completes hp hc ho (by simp only [handleAt_inside hi, ← hva, h, hv, Acc.bind_ok, Bool.false_eq_true, if_false])

theorem execChSt_stores (h : copyWrite s va 32 (s.grp.h x.toNat).toNat 0 = .ok () s1) :
    exec (.chSt p q x y j) s = .next (tDone s1 3 p q) := by
  cases hs : s.grp.cput with
  | none =>
    exact cDo_completes hp hc ho (by
      simp only [hs, Option.isSome_none, Bool.false_eq_true, if_false, handleAt_inside hi, ← hva, Acc.bind_ok, h])
  | some ps => exact execChSt_commits hp hc ho hs ((copyWrite_commits hs ..).symm.trans h)

end

-- Barriers (R263) ------------------------------------------------------------------------------------------------------------------------

section
variable {e : BEntry} (he : barEnt s b.toNat = .ok e s)
include he

theorem execCbarIn_adds : exec (.cbarIn p q x b) s =
    .next (tDone (barAdd s s.grp.core e.obj false (fieldOf (s.grp.a x.toNat) 23 0)) 3 p q) :=
  cDo_completes hp hc ho (by rw [he, Acc.bind_ok])
theorem execCbarOut_adds : exec (.cbarOut p q x b) s =
    .next (tDone (barAdd s s.grp.core e.obj true (fieldOf (s.grp.a x.toNat) 23 0)) 3 p q) :=
  cDo_completes hp hc ho (by rw [he, Acc.bind_ok])

/-- An arrival that need not wait is made in the state that its release leaves (R311). -/
theorem execCbarArr_arrives (hw : waitsAt s.grp.cbwait (barLoc s.grp.core e.obj) = false) (ha : (barArrive s b.toNat e false).isSome = true)
    (hr : relG s 2 = .ok () s1) (ha1 : barArrive s1 b.toNat e false = some s2) :
    exec (.cbarArr p q b) s = .next (tDone (s2.updGrp (fun g => { g with cbwait := none })) 3 p q) := by
  obtain ⟨s0, hs0⟩ := Option.isSome_iff_exists.mp ha
  exact cDo_completes hp hc ho (by simp only [he, hw, hs0, hr, ha1, Acc.bind_ok, Option.getD_some, Bool.false_eq_true, if_false])

end

-- Signals (R264) -------------------------------------------------------------------------------------------------------------------------

/-- Behind its checks and its release, a signal is one atomic at the counter's home. -/
theorem csig_updates {t : Tr} {f : Nat → Nat} {old : Nat} (ht : sigAddr s (s.grp.a x.toNat).toNat .store = .ok t s1)
    (hb : (homeRead s1 t.home (t.pa / 128)).bad &&& blocksOf (t.pa % 128) 4 = 0)
    (hr : relG (homeRead s1 t.home (t.pa / 128)).st 3 = .ok () s2) (ha : homeAtomic s2 t.home t.pa 4 f = some (old, s3)) :
    csig s p q x f = .next (tDone s3 3 p q) :=
  cDo_completes hp hc ho (by simp only [ht, hb, hr, ha, Acc.bind_ok, bne_self_eq_false, Bool.false_eq_true, if_false])

end

/-- Settles O55: no command holds the instruction up, so that it ends as its one effect does. -/
theorem copyRegistersAndSignals : Obligations.CopyRegistersAndSignals := by
  intro p q x y z i j b v va old t e s s1 s2 s3 hp hc ho w set a n k err
  have sets := caDo_sets hp hc ho
  refine ⟨sets x _, execCaLih_shifts hp hc ho, sets x _, sets x _, sets x _, cDo_completes hp hc ho rfl,
    fun h => ⟨execChLd_outside hp hc ho h, execChSt_outside hp hc ho h⟩, fun ps => execChSt_commits hp hc ho,
    fun hi hva => ⟨execChLd_loads hp hc ho hi hva, execChSt_stores hp hc ho hi hva⟩, fun he => ?_, fun ht hb hr => ?_⟩
  · exact ⟨execCbarIn_adds hp hc ho he, execCbarOut_adds hp hc ho he, execCbarArr_arrives hp hc ho he⟩
  · exact ⟨csig_updates hp hc ho ht hb hr, csig_updates hp hc ho ht hb hr⟩

end Sys2Proof.Machine
end

section
/-! SUPPORT. Barriers (R308 to R313): the fields of the object, the completion of a phase, and what each `bar.*` form does. -/

namespace Sys2Proof.Machine

-- The fields of the object (Table 16-1) ----------------------------------------------------------------------------------

theorem testBit_fieldOf {n : Nat} (x : BitVec n) (hi lo i : Nat) :
    (fieldOf x hi lo).testBit i = (decide (i < hi + 1 - lo) && x.getLsbD (lo + i)) := by
  rw [fieldOf, Nat.testBit_mod_two_pow, Nat.testBit_div_two_pow, BitVec.testBit_toNat, Nat.add_comm i lo]

theorem fieldOf_lt {n : Nat} (x : BitVec n) (hi lo : Nat) : fieldOf x hi lo < 2 ^ (hi + 1 - lo) := Nat.mod_lt _ (Nat.two_pow_pos _)

theorem getLsbD_barSet (o : BitVec 128) {hi lo : Nat} (v : Nat) (i : Nat) (hl : lo ≤ hi) :
    (barSet o hi lo v).getLsbD i = if lo ≤ i ∧ i ≤ hi then decide (i < 128) && v.testBit (i - lo) else o.getLsbD i := by
  have hw : ∀ j, (2 ^ (hi + 1 - lo) - 1).testBit j = decide (j < hi + 1 - lo) := fun j => Nat.testBit_two_pow_sub_one ..
  simp only [barSet, BitVec.getLsbD_or, BitVec.getLsbD_and, BitVec.getLsbD_not, BitVec.getLsbD_ofNat, Nat.testBit_mul_two_pow,
    Nat.testBit_mod_two_pow, hw]
  by_cases hi128 : i < 128
  · by_cases h1 : lo ≤ i
    · by_cases h2 : i ≤ hi
      · have h3 : i - lo < hi + 1 - lo := by omega
        simp [hi128, h1, h2, h3]
      · have h3 : ¬ i - lo < hi + 1 - lo := by omega
        simp [hi128, h1, h2, h3]
    · simp [hi128, h1]
  · simp [hi128, BitVec.getLsbD_of_ge o i (Nat.le_of_not_lt hi128)]

/-- A field that is set holds the value that fits it. -/
theorem fieldOf_barSet_self (o : BitVec 128) {hi lo : Nat} (v : Nat) (hl : lo ≤ hi) (hh : hi < 128) :
    fieldOf (barSet o hi lo v) hi lo = v % 2 ^ (hi + 1 - lo) := by
  refine Nat.eq_of_testBit_eq fun i => ?_
  rw [testBit_fieldOf, Nat.testBit_mod_two_pow, getLsbD_barSet o v _ hl]
  by_cases h : i < hi + 1 - lo
  · rw [if_pos (by omega)]; simp [h, show lo + i < 128 by omega]
  · simp [h]

/-- A field that another one does not overlap stays. -/
theorem fieldOf_barSet_other (o : BitVec 128) {hi lo h l : Nat} (v : Nat) (hl : lo ≤ hi) (ho : h < lo ∨ hi < l) :
    fieldOf (barSet o hi lo v) h l = fieldOf o h l := by
  refine Nat.eq_of_testBit_eq fun i => ?_
  rw [testBit_fieldOf, testBit_fieldOf, getLsbD_barSet o v _ hl]
  by_cases hi' : i < h + 1 - l
  · rw [if_neg (by omega)]
  · simp [hi']

-- Phases (R309) and arrivals (R310) --------------------------------------------------------------------------------------

section
variable {o : BitVec 128}

theorem barComplete_stays (h : barPend o ≠ 0 ∨ barIn o ≠ 0 ∨ barOut o ≠ 0) : barComplete o = o :=
  if_neg (by simp only [Bool.and_eq_true, beq_iff_eq]; omega)

theorem barComplete_of_zero (hp : barPend o = 0) (hi : barIn o = 0) (ho : barOut o = 0) : barComplete o =
    barSet (barSet (barSet (barSet (barSet o 127 96 (fieldOf o 127 96 + 1)) 3 0 (barGen o + 1)) 15 4 ((barExpect o + 4096 - barDrop o) % 4096))
      95 84 0) 27 16 ((barExpect o + 4096 - barDrop o) % 4096) :=
  if_pos (by simp [hp, hi, ho])

end

/-- Settles O29: a completion sets PHASES, GEN, EXPECT, DROP and PEND, and an arrival sets PEND; a field that is set holds its value, and no
two fields overlap. -/
theorem phaseCompletion : Obligations.PhaseCompletion := by
  refine ⟨fun o => ⟨barComplete_stays, fun hp hi ho => ?_⟩, fun o => ⟨fun he => if_pos (by simpa using he), fun he hp => ?_, fun he hp => ?_⟩⟩
  · intro t
    have ht : t = _ := barComplete_of_zero hp hi ho
    simp only [barIn, barOut] at hi ho
    simp [ht, barPhases, barGen, barExpect, barPend, barDrop, barIn, barOut, barPub, barInit, barKey, fieldOf_barSet_self, fieldOf_barSet_other,
      hi, ho]
    rw [← BitVec.ofNat_add]
    exact BitVec.eq_of_toNat_eq (by simp)
  · simp [barCount, he, hp]
  · have hlt : barPend o < 4096 := fieldOf_lt o 27 16
    refine ⟨barSet o 27 16 (barPend o - 1), by simp [barCount, he, hp], ?_⟩
    have hm : (barPend o - 1) % 4096 = barPend o - 1 := by omega
    simp [barPhases, barGen, barExpect, barPend, barDrop, barIn, barOut, fieldOf_barSet_self, fieldOf_barSet_other] at hm ⊢
    exact hm

-- The forms of `bar.*` (R312) --------------------------------------------------------------------------------------------

/-- An instruction with a release of up to core scope goes on where no reduction is pending (R148). -/
theorem gated_runs {s : State} {n : BitVec 3} (hp : Placed s) (hn : n.toNat ≤ 3) (hq : RedQuiet s n.toNat) (body : State → Out) :
    (if noGroup s then Host.Outcome.fault Fault.noGroup else if n.toNat > 3 then .next (illegal s 0) else redGate s n.toNat body) = body s := by
  rw [noGroup_false hp, redGate_quiet body hp hq]
  exact if_neg (Nat.not_lt.mpr hn)

section
variable {d a b : BitVec 5} {n : BitVec 3} {e : BEntry} {s s1 s2 : State} (hp : Placed s)

/-- R312, R313: a logical id that names no mapped object. -/
theorem barEnt_unmapped {id : Nat} (h : s.grp.bmap.length ≤ id ∨ ∃ e, s.grp.bmap[id]? = some e ∧ e.kind = .unmapped) :
    barEnt s id = .fault (exc cBARRANGE id) s := by
  unfold barEnt
  rcases h with h | ⟨e, he, hk⟩
  · rw [List.getElem?_eq_none h]; rfl
  · rw [he]; simp [hk, barRange]

include hp

section
variable (he : barEnt s (barId s a) = .ok e s)
include he

theorem execBarInit_sets (hk : e.kind ≠ .attached) (hr : barRegistered s s.grp.core e.obj = false) (hw : barWaiter s s.grp.core e.obj = false) :
    execBarInit a b s = .next (clearRemote ((barPut s s.grp.core e.obj (barSet (barSet (barSet (barObj s s.grp.core e.obj &&&
      BitVec.ofNat 128 (0xFF * 2 ^ 76)) 15 4 (fieldOf (s.x b) 11 0)) 27 16 (fieldOf (s.x b) 11 0)) 76 76 1)).advance 0) 0) :=
  sDo_ok hp (by simp [he, hk, hr, hw])

theorem execBarReg_registers (hi : barInit (barObj s s.grp.core e.obj) = true) (hr : e.reg = false) (hx : barExpect (barObj s s.grp.core e.obj) ≠ 4095) :
    execBarReg a s = .next (clearRemote (((barPut s s.grp.core e.obj (barSet (barSet (barObj s s.grp.core e.obj) 15 4
      (barExpect (barObj s s.grp.core e.obj) + 1)) 27 16 (barPend (barObj s s.grp.core e.obj) + 1))).updBar (barId s a)
      (fun e => { e with reg := true, last := none })).advance 0) 0) :=
  sDo_ok hp (by simp [he, hi, hr, hx])

theorem execBarPub_publishes (hk : e.kind ≠ .attached) (hu : barPub (barObj s s.grp.core e.obj) = false)
    (hf : barPublished s s.grp.core (fieldOf (s.x b) 5 0) none = none) :
    execBarPub a b s = .next (clearRemote ((barPut s s.grp.core e.obj (barSet (barSet (barObj s s.grp.core e.obj) 77 77 1) 83 78
      (fieldOf (s.x b) 5 0))).advance 0) 0) :=
  sDo_ok hp (by simp [he, hk, hu, hf])

theorem execBarAtt_attaches {k : Nat} (hk : e.kind ≠ .attached) (hu : barPub (barObj s s.grp.core e.obj) = false) (hr : e.reg = false)
    (hf : barPublished s s.grp.core (fieldOf (s.x b) 5 0) (some s.grp.ctxid) = some k) :
    execBarAtt a b s = .next (clearRemote (((barPut s s.grp.core e.own 0).updBar (barId s a)
      (fun e => { e with kind := .attached, obj := k, reg := false, last := none })).advance 0) 0) :=
  sDo_ok hp (by simp [he, hk, hu, hr, hf])

theorem execBarRdlo_reads : execBarRdlo d a s =
    .next (clearRemote ((s.setX d ((barObj s s.grp.core e.obj).setWidth 64)).advance 0) 0) :=
  sDo_ok hp (by rw [he]; rfl)
theorem execBarRdhi_reads : execBarRdhi d a s =
    .next (clearRemote ((s.setX d ((barObj s s.grp.core e.obj >>> 64).setWidth 64)).advance 0) 0) :=
  sDo_ok hp (by rw [he]; rfl)

variable (hn : n.toNat ≤ 3)
include hn

/-- `bar.wait` ends at once where PHASES is not the value that it tests. -/
theorem execBarWait_ends (hi : barInit (barObj s s.grp.core e.obj) = true) (hb : s.grp.bwait = none)
    (hv : barPhases (barObj s s.grp.core e.obj) ≠ (s.x b).setWidth 32) (ha : acqG (barDone s) n.toNat = .ok () s1) :
    execBarWait d a b n s = .next (clearRemote ((s1.setX d ((barPhases (barObj s s.grp.core e.obj)).setWidth 64)).advance 0) 0) :=
  (sDoIf_true _ hp (by simpa using hn)).trans (sDo_ok hp (by simp [he, hi, hb, hv, ha, done]))

variable (hq : RedQuiet s n.toNat) (hr : relG s n.toNat = .ok () s1)
include hq hr

/-- An arrival that need not wait is made in the state that its release leaves (R311). -/
theorem execBarArr_arrives (hi : barInit (barObj s s.grp.core e.obj) = true) (hw : waitsAt s.grp.bwait (barLoc s.grp.core e.obj) = false)
    (ha : (barArrive s (barId s a) e e.reg).isSome = true) (ha1 : barArrive s1 (barId s a) e e.reg = some s2) :
    execBarArr d a n s = .next (clearRemote (((barDone s2).setX d ((barPhases (barObj s1 s.grp.core e.obj)).setWidth 64)).advance 0) 0) :=
  (gated_runs hp hn hq _).trans (sDo_ok hp (by simp [he, hi, hw, Option.ne_none_iff_isSome.mpr ha, hr, ha1, done]))

theorem execBarArd_leaves (hg : e.reg = true) (hw : waitsAt s.grp.bwait (barLoc s.grp.core e.obj) = false)
    (ha : (barArd s (barId s a) e).isSome = true) (ha1 : barArd s1 (barId s a) e = some s2) :
    execBarArd a n s = .next (clearRemote ((barDone s2).advance 0) 0) :=
  (gated_runs hp hn hq _).trans (sDo_ok hp (by simp [he, hg, hw, Option.ne_none_iff_isSome.mpr ha, hr, ha1]))

end

section
variable (hn : n.toNat ≤ 3) (hq : RedQuiet s n.toNat) (hr : relG s n.toNat = .ok () s1)
include hn hq hr

theorem execBarRarr_nowhere (hs : barSite s (s.x a) (fieldOf (s.x b) 5 0) = none) :
    execBarRarr d a b n s = .next (clearRemote (((barDone s1).setX d 1).advance 0) 0) :=
  (gated_runs hp hn hq _).trans (sDo_ok hp (by simp [hs, hr, done]))

theorem execBarRarr_arrives {c i : Nat} {o1 : BitVec 128} (hs : barSite s (s.x a) (fieldOf (s.x b) 5 0) = some (c, i))
    (hb : (s.core c).badBar.contains i = false) (hw : waitsAt s.grp.bwait (barLoc c i) = false) (ho : barCount (barObj s c i) = some o1) :
    execBarRarr d a b n s = .next (clearRemote (((barDone (barPut s1 c i
      (if barPend o1 ≠ barPend (barObj s c i) then barComplete o1 else o1))).setX d 0).advance 0) 0) :=
  (gated_runs hp hn hq _).trans (sDo_ok hp (by simp only [hs, hb, hw, hr, ho, Acc.bind_ok, done, bne_iff_ne, Bool.false_eq_true, if_false]))

end

/-- An instruction whose body begins with the map entry of an id that names no object. -/
theorem sDo_unmapped {id : Nat} {body : State → Acc Unit} {k : BEntry → State → Acc Unit} (hb : body s = (barEnt s id).bind k)
    (h : s.grp.bmap.length ≤ id ∨ ∃ e, s.grp.bmap[id]? = some e ∧ e.kind = .unmapped) :
    sDo s body = .next (raise s 0 (exc cBARRANGE id) none) :=
  sDo_fault hp (by rw [hb, barEnt_unmapped h, Acc.bind_fault])

end

/-- Settles O30: at a mapped object each form passes its checks and ends as its row says; elsewhere each begins with the map entry, which
faults. -/
theorem barrierInstructions : Obligations.BarrierInstructions := by
  constructor
  · intro d a b n e s s1 s2 k c i hp hn id core o w wd
    refine ⟨fun he => ?_, execBarRarr_nowhere hp hn, fun hq hr hs hb hw o1 ho => execBarRarr_arrives hp hn hq hr hs hb hw ho⟩
    exact ⟨execBarInit_sets hp he, execBarReg_registers hp he, fun hi hq hw ha hr => execBarArr_arrives hp he hn hq hr hi hw ha,
      execBarWait_ends hp he hn, fun hg hq hw ha hr => execBarArd_leaves hp he hn hq hr hg hw ha, execBarPub_publishes hp he,
      execBarAtt_attaches hp he, execBarRdlo_reads hp he, execBarRdhi_reads hp he⟩
  · intro d a b n s hp hn hq id w h
    show execBarInit a b s = w ∧ execBarReg a s = w ∧ execBarArr d a n s = w ∧ execBarWait d a b n s = w ∧ execBarArd a n s = w ∧
      execBarPub a b s = w ∧ execBarAtt a b s = w ∧ execBarRdlo d a s = w ∧ execBarRdhi d a s = w
    exact ⟨sDo_unmapped hp rfl h, sDo_unmapped hp rfl h, (gated_runs hp hn hq _).trans (sDo_unmapped hp rfl h),
      (sDoIf_true _ hp (by simpa using hn)).trans (sDo_unmapped hp rfl h), (gated_runs hp hn hq _).trans (sDo_unmapped hp rfl h),
      sDo_unmapped hp rfl h, sDo_unmapped hp rfl h, sDo_unmapped hp rfl h, sDo_unmapped hp rfl h⟩

end Sys2Proof.Machine
end

section
/-! SUPPORT. Acquire loads, release stores, fences and the promoting acquire (R294 to R300); the state after reset. -/

namespace Sys2Proof.Machine

-- Acquires, releases and fences (R294) -------------------------------------------------------------------------------------

section
variable {d a b : BitVec 5} {n : BitVec 3} {i : BitVec 12} {v : Nat} {t : Tr} {s s1 s2 s3 s4 : State} (hp : Placed s)
include hp

/-- An instruction of any scope with a release of scope `sc` goes on where no reduction is pending (R148). -/
theorem scoped_runs {sc : Nat} (hn : n.toNat ≤ 4) (hq : RedQuiet s sc) (body : State → Out) :
    (if noGroup s then Host.Outcome.fault Fault.noGroup else if n.toNat > 4 then .next (illegal s 0) else redGate s sc body) = body s := by
  rw [noGroup_false hp, redGate_quiet body hp hq]
  exact if_neg (Nat.not_lt.mpr hn)

theorem execLdAcq_reads_then_acquires (hn : n.toNat ≤ 4) (hal : ea12 s a i % 8 = 0) (hf : fabGate s n.toNat = .ok () s)
    (hr : vaRead s 0 (ea12 s a i) 8 = .ok v s1) (hq : acqG s1 n.toNat = .ok () s2) :
    execLdAcq d a n i s = .next (clearRemote ((s2.setX d (BitVec.ofNat 64 v)).advance 0) 0) :=
  (sDoIf_true _ hp (by simpa using hn)).trans (sDo_ok hp (by simp only [alignedTo_ok hal, hf, hr, hq, Acc.bind_ok, done, zextN]))

theorem execStRel_releases_then_writes (hn : n.toNat ≤ 4) (hal : ea12 s a i % 8 = 0) (hq : RedQuiet s n.toNat)
    (hc : storeCheck s (ea12 s a i) 8 = .ok t s1) (hl : n.toNat ≤ 2 → logBlocked s1.grp (t.pa / 128) = false)
    (hr : relG s1 n.toNat = .ok () s2) (hw : vaWrite s2 (ea12 s a i) 8 (s2.x d).toNat = .ok () s3) :
    execStRel d a n i s = .next (clearRemote ((if n.toNat ≤ 2 then logLine s3 (t.pa / 128) else s3).advance 0) 0) := by
  have free : (decide (n.toNat ≤ 2) && logBlocked s1.grp (t.pa / 128)) = false := by
    by_cases h : n.toNat ≤ 2
    · simp [hl h]
    · simp [h]
  exact (scoped_runs hp hn hq _).trans (sDo_ok hp (by simp only [alignedTo_ok hal, hc, free, hr, hw, Acc.bind_ok, Bool.false_eq_true, if_false]))

section
variable (hn : n.toNat ≤ 4) (hq : RedQuiet s 4) (hf : fabGate s n.toNat = .ok () s)
include hn hq hf

theorem execFenceRel_releases (hr : relG s n.toNat = .ok () s1) : execFenceRel n s = .next (clearRemote (s1.advance 0) 0) :=
  (scoped_runs hp hn hq _).trans (sDo_ok hp (by simp [hf, hr]))
theorem execFence_releases_then_acquires (hr : relG s n.toNat = .ok () s1) (ha : acqG s1 n.toNat = .ok () s2) :
    execFence n s = .next (clearRemote (s2.advance 0) 0) :=
  (scoped_runs hp hn hq _).trans (sDo_ok hp (by simp [hf, hr, ha]))
theorem execFenceAcq_acquires (ha : acqG s n.toNat = .ok () s1) : execFenceAcq n s = .next (clearRemote (s1.advance 0) 0) :=
  (scoped_runs hp hn hq _).trans (sDo_ok hp (by simp [hf, ha]))

end

/-- A promoting acquire of a flag in the module's own memory: the promotion, the read at the flag's home, the acquire. -/
theorem execLdAcqp_promotes_then_acquires {k : Nat} (hal : (s.x a).toNat % 8 = 0) (hn : n = 3 ∨ n = 4) (hq : RedQuiet s 4)
    (ht : translate s s.grp.core s.grp.ctxid (s.x a).toNat .load = .ok t s1) (hm : inRemote t.pa = false) (hf : fabGate s1 n.toNat = .ok () s1)
    (hk : (if fieldOf (s1.x b) 37 32 = s1.modid then promoteFor s1 (s1.x b) s1.grp.ctxid (t.pa / 128) (s.x a).toNat else .ok 2 s1) = .ok k s2)
    (hb : (homeRead s2 t.home (t.pa / 128)).bad &&& blocksOf (t.pa % 128) 8 = 0)
    (ha : acqG (homeRead s2 t.home (t.pa / 128)).st n.toNat = .ok () s4) :
    execLdAcqp d a n b s = .next (clearRemote
      ((s4.setX d (BitVec.ofNat 64 (lineRead (homeRead s2 t.home (t.pa / 128)).data (t.pa % 128) 8))).advance 0) 0) := by
  have scope : (n.toNat != 3 && n.toNat != 4) = false := by rcases hn with rfl | rfl <;> rfl
  unfold execLdAcqp
  simp only [noGroup_false hp, scope, Bool.false_eq_true, if_false]
  rw [redGate_quiet _ hp hq]
  refine sDo_ok hp ?_
  simp only [alignedTo_ok hal, ht, hm, hf, beq_iff_eq, hk, hb, ha, Acc.bind_ok, bne_self_eq_false, Bool.false_eq_true, if_false, done, zextN]

end

/-- Settles O14: where its checks pass, each instruction takes its parts one after the other. -/
theorem acquiresAndReleases : Obligations.AcquiresAndReleases := by
  intro d a b n i v s s1 s2 s3 s4 t k hp hn ea w
  refine ⟨execLdAcq_reads_then_acquires hp hn, execStRel_releases_then_writes hp hn, fun hq hf hr => ?_,
    execFenceAcq_acquires hp hn, execLdAcqp_promotes_then_acquires hp⟩
  exact ⟨execFenceRel_releases hp hn hq hf hr, execFence_releases_then_acquires hp hn hq hf hr⟩

-- The state after reset (R363) ---------------------------------------------------------------------------------------------

/-- Settles O50: reset gives each field its value, and every core, die and string is the one that reset makes. -/
theorem resetState : Obligations.ResetState := by
  have core (c : Nat) : State.reset.core c = .reset := List.getElem?_getD_replicate_default_eq _ _ c
  have die (d : Nat) : State.reset.die d = .reset := List.getElem?_getD_replicate_default_eq _ _ d
  have str (n : Nat) : State.reset.str n = .reset := List.getElem?_getD_replicate_default_eq _ _ n
  have ready (f : Nat) (hf : f < 161) : State.reset.ready.getD f 3 = 0 := List.getD_replicate _ hf
  refine ⟨reset_canonical, rfl, rfl, rfl, rfl, rfl, rfl, rfl, rfl, List.length_replicate, List.length_replicate, List.length_replicate,
    List.length_replicate, List.length_replicate, fun c => ?_, fun d => ?_, fun n _ => ?_, ready⟩
  · rw [core]; exact ⟨rfl, rfl⟩
  · rw [die]; exact ⟨rfl, rfl⟩
  · rw [str]; exact ⟨rfl, rfl, rfl⟩

end Sys2Proof.Machine
end

section
/-! SUPPORT. Memory stays canonical (log entry 2): the predicate on each kind of result that a function of the model has, and how it passes
through an update of other parts of the state, a choice, a sequence and a fold. -/
namespace Sys2Proof.Machine

/-- An access leaves memory canonical, whichever way it ends. -/
def Acc.Kept {α : Type} : Acc α → Prop
  | .ok _ s => Canonical s
  | .fault _ s => Canonical s
  | .wait s => Canonical s

/-- An outcome leaves memory canonical, where it is a next state. -/
def Kept : Out → Prop
  | .next t => Canonical t
  | _ => True

/-- A state, where there is one, has memory canonical. -/
def OptKept : Option State → Prop
  | some t => Canonical t
  | none => True

/-- A state beside a value, where there is one, has memory canonical. -/
def OptKept₂ {α : Type} : Option (α × State) → Prop
  | some t => Canonical t.2
  | none => True

/-- A change of any other parts of the state does not touch memory. -/
theorem Canonical.keep {s : State} {cycle clockMHz modid cxlMask fibStrap topo keys phase reason safe ready farCap host msiMask
    msiPend msiSent replies loading ctxs kerns queues serial turns grp others strm iw ipc agenda fresh cores dies ndies spareEcc
    badBlocks freed lost rowTimes ilSeq mighWait migActive migQueued strs links dests nextTag tagOwner outbox remReds corrected
    colls slots devw devOut remWait attSent gangs proms} (h : Canonical s) :
    Canonical ⟨cycle, clockMHz, modid, cxlMask, fibStrap, topo, keys, phase, reason, safe, ready, farCap, host, msiMask, msiPend, msiSent,
      replies, loading, ctxs, kerns, queues, serial, turns, grp, others, strm, iw, ipc, agenda, fresh, cores, dies, ndies,
      s.mem, spareEcc, badBlocks, freed, lost, rowTimes, ilSeq, mighWait, migActive, migQueued, strs, links, dests, nextTag,
      tagOwner, outbox, remReds, corrected, colls, slots, devw, devOut, remWait, attSent, gangs, proms⟩ :=
  h

theorem Canonical.ite {c : Prop} {_ : Decidable c} {s t : State} (hs : Canonical s) (ht : Canonical t) : Canonical (if c then s else t) := by
  split
  · exact hs
  · exact ht
theorem Acc.Kept.ite {α : Type} {c : Prop} {_ : Decidable c} {x y : Acc α} (hx : x.Kept) (hy : y.Kept) : (if c then x else y).Kept := by
  split
  · exact hx
  · exact hy
theorem Kept.ite {c : Prop} {_ : Decidable c} {x y : Out} (hx : Kept x) (hy : Kept y) : Kept (if c then x else y) := by
  split
  · exact hx
  · exact hy
theorem OptKept.ite {c : Prop} {_ : Decidable c} {x y : Option State} (hx : OptKept x) (hy : OptKept y) : OptKept (if c then x else y) := by
  split
  · exact hx
  · exact hy

theorem Acc.ok_kept {α : Type} {a : α} {s : State} (h : Canonical s) : (Acc.ok a s).Kept := h
theorem Acc.fault_kept {α : Type} {e : Exc} {s : State} (h : Canonical s) : (Acc.fault e s : Acc α).Kept := h
theorem Acc.wait_kept {α : Type} {s : State} (h : Canonical s) : (Acc.wait s : Acc α).Kept := h

theorem canonical_of_ok {α : Type} {x : Acc α} {a : α} {s : State} (e : x = .ok a s) (h : x.Kept) : Canonical s := by subst e; exact h
theorem canonical_of_fault {α : Type} {x : Acc α} {f : Exc} {s : State} (e : x = .fault f s) (h : x.Kept) : Canonical s := by subst e; exact h
theorem canonical_of_wait {α : Type} {x : Acc α} {s : State} (e : x = .wait s) (h : x.Kept) : Canonical s := by subst e; exact h
theorem canonical_of_next {x : Out} {s : State} (e : x = .next s) (h : Kept x) : Canonical s := by subst e; exact h
theorem canonical_of_some {x : Option State} {s : State} (e : x = some s) (h : OptKept x) : Canonical s := by subst e; exact h
theorem canonical_of_some₂ {α : Type} {x : Option (α × State)} {a : α × State} (e : x = some a) (h : OptKept₂ x) : Canonical a.2 := by
  subst e; exact h
theorem canonical_of_pair {α : Type} {x : α × State} {a : α} {s : State} (e : x = (a, s)) (h : Canonical x.2) : Canonical s := by
  subst e; exact h

theorem Acc.bind_kept {α β : Type} {x : Acc α} {f : α → State → Acc β} (hx : x.Kept) (hf : ∀ a s, Canonical s → (f a s).Kept) :
    (x.bind f).Kept := by
  cases x with
  | ok a s => exact hf a s hx
  | fault e s => exact hx
  | wait s => exact hx

theorem foldl_canonical {α : Type} {f : State → α → State} (hf : ∀ s a, Canonical s → Canonical (f s a)) {l : List α} {s : State}
    (h : Canonical s) : Canonical (l.foldl f s) :=
  List.foldlRecOn l f h fun b hb a _ => hf b a hb

theorem foldl_kept {α β : Type} {f : Acc β → α → Acc β} (hf : ∀ x a, x.Kept → (f x a).Kept) {l : List α} {x : Acc β} (h : x.Kept) :
    (l.foldl f x).Kept :=
  List.foldlRecOn l f h fun b hb a _ => hf b a hb

theorem foldl_optKept {α : Type} {f : Option State → α → Option State} (hf : ∀ x a, OptKept x → OptKept (f x a)) {l : List α} {x : Option State}
    (h : OptKept x) : OptKept (l.foldl f x) :=
  List.foldlRecOn l f h fun b hb a _ => hf b a hb

theorem OptKept.getD {x : Option State} {s : State} (hx : OptKept x) (h : Canonical s) : Canonical (x.getD s) := by
  cases x with
  | none => exact h
  | some t => exact hx
theorem OptKept.map {x : Option State} {f : State → State} (hx : OptKept x) (hf : ∀ s, Canonical s → Canonical (f s)) : OptKept (x.map f) := by
  cases x with
  | none => trivial
  | some t => exact hf t hx
theorem OptKept.bind {x : Option State} {f : State → Option State} (hx : OptKept x) (hf : ∀ s, Canonical s → OptKept (f s)) :
    OptKept (x.bind f) := by
  cases x with
  | none => trivial
  | some t => exact hf t hx

theorem OptKept.map₂ {α : Type} {x : Option State} {f : State → α × State} (hx : OptKept x) (hf : ∀ s, Canonical s → Canonical (f s).2) :
    OptKept₂ (x.map f) := by
  cases x with
  | none => trivial
  | some t => exact hf t hx
theorem OptKept₂.map {α : Type} {x : Option (α × State)} {f : α × State → State} (hx : OptKept₂ x) (hf : ∀ p, Canonical p.2 → Canonical (f p)) :
    OptKept (x.map f) := by
  cases x with
  | none => trivial
  | some t => exact hf t hx
theorem optKept_bind {α : Type} {x : Option α} {f : α → Option State} (hf : ∀ a, OptKept (f a)) : OptKept (x.bind f) := by
  cases x with
  | none => trivial
  | some a => exact hf a
theorem optKept_map {α : Type} {x : Option α} {f : α → State} (hf : ∀ a, Canonical (f a)) : OptKept (x.map f) := by
  cases x with
  | none => trivial
  | some a => exact hf a

end Sys2Proof.Machine
end

section
/-! SUPPORT. Memory stays canonical in this part of the model, one lemma per function. Lists as arrays and as sparse arrays, lines of 128
bytes, and the ways to read and to change one part of the state: a core, a die, a group by its handle, a context, a queue. -/
namespace Sys2Proof.Machine

variable {s : State} {f : Group → Group} {c n : Nat} {h : W64}

theorem State.updCore_canonical {f : Core → Core} (h : Canonical s) : Canonical (s.updCore c f) := h.keep
theorem State.updDie_canonical {d : Nat} {f : Die → Die} (h : Canonical s) : Canonical (s.updDie d f) := h.keep
theorem State.updNDie_canonical {f : NDie → NDie} (h : Canonical s) : Canonical (s.updNDie n f) := h.keep
theorem State.updStr_canonical {f : Str → Str} (h : Canonical s) : Canonical (s.updStr n f) := h.keep
theorem State.updCtx_canonical {f : Ctx → Ctx} (h : Canonical s) : Canonical (s.updCtx c f) := h.keep
theorem State.updKern_canonical {k : Nat} {f : Kern → Kern} (h : Canonical s) : Canonical (s.updKern k f) := h.keep
theorem State.updQueue_canonical {q : Nat} {f : Queue → Queue} (h : Canonical s) : Canonical (s.updQueue q f) := h.keep
theorem State.updLink_canonical {f : Link → Link} (h : Canonical s) : Canonical (s.updLink n f) := h.keep
theorem State.updDest_canonical {m : Nat} {f : Dest → Dest} (h : Canonical s) : Canonical (s.updDest m f) := h.keep
theorem State.updGrp_canonical (h : Canonical s) : Canonical (s.updGrp f) := h.keep
theorem State.updGroups_canonical {p : Group → Bool} (h : Canonical s) : Canonical (s.updGroups p f) := h.keep
theorem State.updGroup_canonical (hc : Canonical s) : Canonical (s.updGroup h f) := State.updGroups_canonical hc
theorem State.focus_canonical (hc : Canonical s) : Canonical (s.focus h) := by
  unfold State.focus
  split
  · exact hc
  · split
    · exact hc
    · exact hc.keep
theorem State.tick1_canonical (h : Canonical s) : Canonical s.tick1 := h.keep
theorem State.post_canonical {as : List Act} (h : Canonical s) : Canonical (s.post as) := h.keep
theorem State.postE_canonical {e : Event} (h : Canonical s) : Canonical (s.postE e) := State.post_canonical h
theorem Acc.guard_kept {p : Bool} {e : Exc} (h : Canonical s) : (Acc.guard p e s).Kept := Acc.Kept.ite h h

end Sys2Proof.Machine
end

section
/-! SUPPORT. Memory stays canonical in this part of the model, one lemma per function. The homes of chapter 14: the physical address map
(R267, R268), the arrays of HBM4E and far memory with their uncorrectable blocks (R277, R332), the far-tier caches (R282 to R287, R380,
R381), the event ring (R337), the interrupts to the host (R369), and what a write performed at a home wakes (R119, R125). A line number is a
physical address divided by 128. -/
namespace Sys2Proof.Machine

variable {s : State} {data : BitVec 1024} {mask dirty present : BitVec 128} {line v l tag n sl i hn ni unit idx action count addr pa w k a b
    : Nat} {f : Nat → Nat} {note : Note} {r : RedReq} {handle : W64}

theorem defLine_canonical (h : Canonical s) : Canonical (defLine s line) := Canonical.ite h h.keep
theorem touchRow_canonical (h : Canonical s) : Canonical (touchRow s line) := Canonical.ite h h.keep
theorem poison_canonical (h : Canonical s) : Canonical (poison s line) := h.keep
theorem raiseMsi_canonical (h : Canonical s) : Canonical (raiseMsi s v) := by
  unfold raiseMsi
  split <;> exact h.keep
theorem flushMsi_canonical (h : Canonical s) : Canonical (flushMsi s) := foldl_canonical (fun _ _ h1 => raiseMsi_canonical h1) h.keep
theorem ftcSetMeta_canonical {d : Nat} {sst : Nat} {epoch : Nat} (h : Canonical s) : Canonical (ftcSetMeta s l tag v d sst epoch) :=
  Canonical.keep (touchRow_canonical h)
theorem ftcClear_canonical (h : Canonical s) : Canonical (ftcClear s l) := h.keep
theorem ftcRewrite_canonical {n : NDie} (h : Canonical s) : Canonical (ftcRewrite s n sl i) := by
  unfold ftcRewrite
  split <;> exact ftcClear_canonical (ftcSetMeta_canonical h)
theorem lineWrite_canonical (h : Canonical s) : Canonical (lineWrite s hn line mask data) :=
  Canonical.ite (rawWrite_canonical _ _ _ h) (State.updNDie_canonical (rawWrite_canonical _ _ _ h))
theorem touchSlotLine_canonical (h : Canonical s) : Canonical (touchSlotLine s hn line) := touchRow_canonical h
theorem touchSlot_canonical (h : Canonical s) : Canonical (touchSlot s ni sl) := foldl_canonical (fun _ _ h1 => touchRow_canonical h1) h
theorem ftcWriteGood_canonical (h : Canonical s) : Canonical (ftcWriteGood s ni sl i) :=
  Canonical.ite (ftcSetMeta_canonical (lineWrite_canonical h)) h
theorem ftcInvalidate_canonical (h : Canonical s) : Canonical (ftcInvalidate s ni sl i) := ftcSetMeta_canonical h
theorem ftcInstall_canonical {d : Bool} (h : Canonical s) : Canonical (ftcInstall s ni sl tag i d data) :=
  rawWrite_canonical _ _ _ (ftcSetMeta_canonical (ftcClear_canonical h))
theorem homeRead0_canonical (h : Canonical s) : Canonical (homeRead0 s hn line).st := by
  unfold homeRead0
  split
  · dsimp only
    split
    · dsimp only; exact touchRow_canonical h
    · split
      · dsimp only; exact ftcInvalidate_canonical (ftcWriteGood_canonical (touchRow_canonical h))
      · dsimp only; exact touchRow_canonical h
  · dsimp only; exact touchRow_canonical h
theorem noticeWrite_canonical (h : Canonical s) : Canonical (noticeWrite s line) := by
  unfold noticeWrite
  dsimp only
  split
  · split
    · exact Canonical.ite (State.updGroups_canonical h) h
    · exact Canonical.ite (State.updGroups_canonical h.keep) h.keep
  · split
    · exact Canonical.ite (State.updGroups_canonical h.keep) h.keep
    · split
      · exact State.updGroups_canonical h.keep
      · exact h.keep
theorem homeWrite0_canonical (h : Canonical s) : Canonical (homeWrite0 s hn line mask data) := by
  unfold homeWrite0
  dsimp only
  refine noticeWrite_canonical (lineWrite_canonical ?_)
  split
  · split
    · exact ftcInvalidate_canonical (ftcWriteGood_canonical (touchSlotLine_canonical h))
    · exact touchSlotLine_canonical h
  · exact h
theorem recordBy_canonical {put : State → Nat → Nat → BitVec 128 → BitVec 1024 → State} (hput : ∀ a, Canonical a → ∀ a₁ a₂ a₃ a₄, Canonical
    (put a a₁ a₂ a₃ a₄)) (h : Canonical s) : Canonical (recordBy put s unit idx action count addr handle) := by
  unfold recordBy
  dsimp only
  split
  · exact h
  · split
    · split
      · exact Canonical.ite (raiseMsi_canonical (hput _ h.keep _ _ _ _)) (hput _ h.keep _ _ _ _)
      · split
        · exact Canonical.ite (raiseMsi_canonical h.keep) h.keep
        · exact Canonical.ite (raiseMsi_canonical h.keep) h.keep
    · exact h.keep
theorem ftcWriteOutBy_canonical (hnote : ∀ a, Canonical a → ∀ a₁ a₂ a₃ a₄ a₅ a₆, Canonical (note a a₁ a₂ a₃ a₄ a₅ a₆)) (h : Canonical s) :
    Canonical (ftcWriteOutBy note s ni sl i) := by
  unfold ftcWriteOutBy
  dsimp only
  split
  · split
    · refine ftcRewrite_canonical (hnote _ ?_ _ _ _ _ _ _)
      split
      · exact poison_canonical (touchRow_canonical h)
      · exact touchRow_canonical h
    · exact touchRow_canonical h
  · exact ftcWriteGood_canonical (touchRow_canonical h)
theorem homeWbBy_canonical {note : State → Nat → Nat → Nat → Nat → Nat → W64 → State} (hnote : ∀ a, Canonical a → ∀ a₁ a₂ a₃ a₄ a₅ a₆,
    Canonical (note a a₁ a₂ a₃ a₄ a₅ a₆)) (h : Canonical s) : Canonical (homeWbBy note s hn line dirty present data) := by
  unfold homeWbBy
  extract_lets anyD n w l t u x y s1
  have ht : Canonical t := touchSlot_canonical h
  have hu : Canonical u := rawWrite_canonical _ _ _ ht
  have hx : Canonical x := foldl_canonical (fun _ _ h => ftcWriteOutBy_canonical hnote h) ht
  have hy : Canonical y := foldl_canonical (fun _ _ h => ftcSetMeta_canonical h) hx
  have h1 : Canonical s1 := .ite
    (.ite (.ite (.ite (ftcSetMeta_canonical hu) hu) (.ite (ftcInstall_canonical ht) (lineWrite_canonical ht)))
      (.ite (ftcInstall_canonical hy) (lineWrite_canonical ht))) (lineWrite_canonical h)
  exact .ite (noticeWrite_canonical h1) h1
theorem homeAtomicBy_kept (hnote : ∀ a, Canonical a → ∀ a₁ a₂ a₃ a₄ a₅ a₆, Canonical (note a a₁ a₂ a₃ a₄ a₅ a₆)) (h : Canonical s) :
    OptKept₂ (homeAtomicBy note s hn pa w f) := by
  unfold homeAtomicBy
  dsimp only
  split
  · exact trivial
  · split
    · exact homeWbBy_canonical (fun _ h1 _ _ _ _ _ _ => hnote _ h1 _ _ _ _ _ _) (homeRead0_canonical h)
    · exact noticeWrite_canonical (rawWrite_canonical _ _ _ (homeRead0_canonical h))
theorem atomicMissed0_canonical (h : Canonical s) : Canonical (atomicMissed0 s hn pa) := homeRead0_canonical h
theorem redFault_canonical {e : Exc} (h : Canonical s) : Canonical (redFault s r e) := State.updGroup_canonical h
theorem performRedBy_canonical (hnote : ∀ a, Canonical a → ∀ a₁ a₂ a₃ a₄ a₅ a₆, Canonical (note a a₁ a₂ a₃ a₄ a₅ a₆)) (h : Canonical s) :
    Canonical (performRedBy note s hn r) := by
  unfold performRedBy
  split
  · next e => exact canonical_of_some₂ e (homeAtomicBy_kept (fun _ h1 _ _ _ _ _ _ => hnote _ h1 _ _ _ _ _ _) h)
  · exact redFault_canonical (atomicMissed0_canonical h)
theorem serveEntryBy_canonical (hnote : ∀ a, Canonical a → ∀ a₁ a₂ a₃ a₄ a₅ a₆, Canonical (note a a₁ a₂ a₃ a₄ a₅ a₆)) (h : Canonical s) :
    Canonical (serveEntryBy note s hn line) := by
  unfold serveEntryBy
  dsimp only
  split
  · exact h
  · exact foldl_canonical (fun _ _ h1 => performRedBy_canonical (fun _ h2 _ _ _ _ _ _ => hnote _ h2 _ _ _ _ _ _) h1) (State.updNDie_canonical h)
theorem makeRoomBy_canonical (hnote : ∀ a, Canonical a → ∀ a₁ a₂ a₃ a₄ a₅ a₆, Canonical (note a a₁ a₂ a₃ a₄ a₅ a₆)) (h : Canonical s) :
    Canonical (makeRoomBy note k s a b) := by
  induction k generalizing s a b with
  | zero =>
    unfold makeRoomBy
    exact h
  | succ n ih =>
    unfold makeRoomBy
    dsimp only
    split
    · exact h
    · split
      · exact ih (State.updNDie_canonical h)
      · exact ih (serveEntryBy_canonical (fun _ h1 _ _ _ _ _ _ => hnote _ h1 _ _ _ _ _ _) h)
      · exact h
theorem takeEntryBy_canonical (hnote : ∀ a, Canonical a → ∀ a₁ a₂ a₃ a₄ a₅ a₆, Canonical (note a a₁ a₂ a₃ a₄ a₅ a₆)) (h : Canonical s) :
    Canonical (takeEntryBy note s hn line) :=
  makeRoomBy_canonical (fun _ h1 _ _ _ _ _ _ => hnote _ h1 _ _ _ _ _ _) h
theorem atEntryBy_canonical (hnote : ∀ a, Canonical a → ∀ a₁ a₂ a₃ a₄ a₅ a₆, Canonical (note a a₁ a₂ a₃ a₄ a₅ a₆)) (h : Canonical s) :
    Canonical (atEntryBy note s hn line) :=
  serveEntryBy_canonical (fun _ h1 _ _ _ _ _ _ => hnote _ h1 _ _ _ _ _ _) (takeEntryBy_canonical (fun _ h1 _ _ _ _ _ _ => hnote _ h1 _ _ _ _ _ _) h)
theorem eventRecordN_canonical (h : Canonical s) : Canonical (eventRecordN k s unit idx action count addr handle) := by
  induction k generalizing s unit idx action count addr handle with
  | zero =>
    unfold eventRecordN
    exact recordBy_canonical (fun _ h1 _ _ _ _ => homeWrite0_canonical h1) h
  | succ n ih =>
    unfold eventRecordN
    exact recordBy_canonical (fun _ h1 _ _ _ _ => homeWrite0_canonical (atEntryBy_canonical (fun _ h2 _ _ _ _ _ _ => ih h2) h1)) h
theorem eventRecord_canonical (h : Canonical s) : Canonical (eventRecord s unit idx action count addr handle) := eventRecordN_canonical h
theorem noteCorrected_canonical {u : Nat} (h : Canonical s) : Canonical (noteCorrected s u idx action n) := by
  unfold noteCorrected
  dsimp only
  split
  · exact Canonical.ite h.keep (eventRecord_canonical h.keep)
  · exact eventRecord_canonical h.keep
theorem ftcWriteOut_canonical (h : Canonical s) : Canonical (ftcWriteOut s ni sl i) :=
  ftcWriteOutBy_canonical (fun _ h1 _ _ _ _ _ _ => eventRecord_canonical h1) h
theorem ftcDrop_canonical (h : Canonical s) : Canonical (ftcDrop s hn sl i) := Canonical.ite (ftcRewrite_canonical h) (ftcInvalidate_canonical h)
theorem ftcWbi_canonical (h : Canonical s) : Canonical (ftcWbi s hn sl i) := by
  unfold ftcWbi
  dsimp only
  split
  · exact Canonical.ite (ftcRewrite_canonical (ftcWriteOut_canonical h)) (ftcWriteOut_canonical h)
  · exact ftcInvalidate_canonical (ftcWriteOut_canonical h)
theorem homeWb0_canonical (h : Canonical s) : Canonical (homeWb0 s hn line dirty present data) :=
  homeWbBy_canonical (fun _ h1 _ _ _ _ _ _ => eventRecord_canonical h1) h
theorem homeAtomic0_kept (h : Canonical s) : OptKept₂ (homeAtomic0 s hn pa w f) :=
  homeAtomicBy_kept (fun _ h1 _ _ _ _ _ _ => eventRecord_canonical h1) h
theorem performRed_canonical (h : Canonical s) : Canonical (performRed s hn r) :=
  performRedBy_canonical (fun _ h1 _ _ _ _ _ _ => eventRecord_canonical h1) h
theorem serveEntry_canonical (h : Canonical s) : Canonical (serveEntry s hn line) :=
  serveEntryBy_canonical (fun _ h1 _ _ _ _ _ _ => eventRecord_canonical h1) h
theorem makeRoom_canonical (h : Canonical s) : Canonical (makeRoom s hn k) :=
  makeRoomBy_canonical (fun _ h1 _ _ _ _ _ _ => eventRecord_canonical h1) h
theorem takeEntry_canonical (h : Canonical s) : Canonical (takeEntry s hn line) :=
  takeEntryBy_canonical (fun _ h1 _ _ _ _ _ _ => eventRecord_canonical h1) h
theorem atEntry_canonical (h : Canonical s) : Canonical (atEntry s hn line) :=
  atEntryBy_canonical (fun _ h1 _ _ _ _ _ _ => eventRecord_canonical h1) h
theorem homeRead_canonical (h : Canonical s) : Canonical (homeRead s hn line).st := homeRead0_canonical (atEntry_canonical h)
theorem homeWb_canonical (h : Canonical s) : Canonical (homeWb s hn line dirty present data) := homeWb0_canonical (atEntry_canonical h)
theorem homeWrite_canonical (h : Canonical s) : Canonical (homeWrite s hn line mask data) := homeWrite0_canonical (atEntry_canonical h)
theorem homeAtomic_kept (h : Canonical s) : OptKept₂ (homeAtomic s hn pa w f) := homeAtomic0_kept (atEntry_canonical h)
theorem atomicMissed_canonical (h : Canonical s) : Canonical (atomicMissed s hn pa) := atomicMissed0_canonical (atEntry_canonical h)
theorem homePost_canonical (h : Canonical s) : Canonical (homePost s hn r) := State.updNDie_canonical (takeEntry_canonical h)
theorem physWriteN_canonical {c : Nat} (h : Canonical s) : Canonical (physWriteN k s a b c) := by
  induction k generalizing s a b c with
  | zero =>
    unfold physWriteN
    exact h
  | succ n ih =>
    unfold physWriteN
    exact Canonical.ite h (ih (Canonical.ite (homeWrite_canonical h) (Canonical.ite h.keep h)))
theorem physWrite_canonical (h : Canonical s) : Canonical (physWrite s pa n v) := physWriteN_canonical h
theorem physReadN_canonical (h : Canonical s) : Canonical (physReadN k s a b).2.2 := by
  induction k generalizing s a b with
  | zero => exact h
  | succ k ih =>
    unfold physReadN
    split
    · exact h
    · dsimp only
      split
      · exact ih (homeRead_canonical h)
      · exact ih h
theorem physRead_canonical (h : Canonical s) : Canonical (physRead s pa n).2.2 := physReadN_canonical h

end Sys2Proof.Machine
end

section
/-! SUPPORT. Memory stays canonical in this part of the model, one lemma per function. L1 (R269, R270), L2 (R271 to R274), the write
journals (R275), promotions (R297 to R299), and the actions of releases and acquires (Table 15-1). Fills are made at once by the access that
needs them. -/
namespace Sys2Proof.Machine

variable {s : State} {cl : CLine} {lines : List Nat} {d c line n va sc : Nat} {t : Tr} {h : W64}

theorem dropWalks_canonical {p : Nat → Bool} (h : Canonical s) : Canonical (dropWalks s d p) := h.keep
theorem l2Set_canonical {c : CLine} (h : Canonical s) : Canonical (l2Set s d c) := State.updDie_canonical h
theorem l2CleanRaw_canonical (h : Canonical s) : Canonical (l2CleanRaw s d line) := by
  unfold l2CleanRaw
  split
  · exact Canonical.ite h (homeWb_canonical (l2Set_canonical h))
  · exact h
theorem l2Drop_canonical (h : Canonical s) : Canonical (l2Drop s d line) := by
  unfold l2Drop
  split
  · exact Canonical.ite (State.updDie_canonical (homeWb_canonical h)) (State.updDie_canonical h)
  · exact State.updDie_canonical h
theorem l2Room_canonical (h : Canonical s) : Canonical (l2Room s d line) := by
  unfold l2Room
  dsimp only
  split
  · exact h
  · split
    · exact l2Drop_canonical (l2CleanRaw_canonical (State.tick1_canonical h))
    · exact h
theorem l2Put_canonical {c : CLine} (h : Canonical s) : Canonical (l2Put s d c) := l2Set_canonical (Canonical.ite h (l2Room_canonical h))
theorem l2Ensure_canonical {need : BitVec 4} (h : Canonical s) : Canonical (l2Ensure s d t need) :=
  Canonical.ite h (l2Put_canonical (homeRead_canonical h))
theorem l2Merge_canonical {home : Nat} {vol : Bool} {mask : BitVec 128} {data : BitVec 1024} (h : Canonical s) : Canonical (l2Merge s d line
    home vol mask data) := by
  unfold l2Merge
  split <;> exact l2Put_canonical h
theorem journalRaw_canonical (h : Canonical s) : Canonical (journalRaw s c line) := State.updCore_canonical h
theorem l1WbRaw_canonical (h : Canonical s) : Canonical (l1WbRaw s c cl) := journalRaw_canonical (State.updCore_canonical (l2Merge_canonical h))
theorem l1WbAllRaw_canonical (h : Canonical s) : Canonical (l1WbAllRaw s c) := foldl_canonical (fun _ _ h1 => l1WbRaw_canonical h1) h
theorem promoteCores_canonical {cores : List Nat} (h : Canonical s) : Canonical (promoteCores s cores lines) :=
  foldl_canonical (fun _ _ h1 => State.updCore_canonical (foldl_canonical (fun _ _ h2 => l2CleanRaw_canonical h2) h1))
    (State.updGroups_canonical (foldl_canonical (fun _ _ h1 => l1WbAllRaw_canonical h1) h))
theorem homeClean_kept (h : Canonical s) : OptKept (homeClean s d lines) := by
  unfold homeClean
  dsimp only
  split
  · exact trivial
  · exact foldl_canonical (fun _ _ h1 => l2CleanRaw_canonical h1) (Canonical.ite h (promoteCores_canonical h))
theorem journalAdd_kept (h : Canonical s) : OptKept (journalAdd s c line) := by
  unfold journalAdd
  dsimp only
  split
  · exact journalRaw_canonical h
  · exact OptKept.map (homeClean_kept h) (fun _ h1 => journalRaw_canonical (State.updCore_canonical h1))
theorem l1Wb_kept (h : Canonical s) : OptKept (l1Wb s c cl) := journalAdd_kept (State.updCore_canonical (l2Merge_canonical h))
theorem allOf_kept {α : Type} {l : List α} {f : State → α → Option State} (h : Canonical s) (hf : ∀ a, Canonical a → ∀ a₁, OptKept (f a a₁))
    : OptKept (allOf l s f) :=
  foldl_optKept (fun _ _ h1 => OptKept.bind h1 (fun _ h2 => hf _ h2 _)) h
theorem l1WbAll_kept (h : Canonical s) : OptKept (l1WbAll s c) := allOf_kept h (fun _ h1 _ => l1Wb_kept h1)
theorem l1Flush_kept (h : Canonical s) : OptKept (l1Flush s c line) := by
  unfold l1Flush
  split
  · exact OptKept.map (OptKept.ite h (l1Wb_kept h)) (fun _ h1 => State.updCore_canonical h1)
  · exact h
theorem l2Evict_kept (h : Canonical s) : OptKept (l2Evict s d line) := by
  unfold l2Evict
  split
  · exact OptKept.ite (l2Drop_canonical h) (OptKept.map (homeClean_kept h) (fun _ h1 => State.updDie_canonical h1))
  · exact State.updDie_canonical h
theorem l1Room_kept (h : Canonical s) : OptKept₂ (l1Room s c line) := by
  unfold l1Room
  dsimp only
  split
  · exact h
  · exact OptKept.map₂ (allOf_kept (State.tick1_canonical h) (fun _ h1 _ => l1Flush_kept h1)) (fun _ h1 => h1)
theorem l1Fill_kept (h : Canonical s) : OptKept (l1Fill s c t) := by
  unfold l1Fill
  dsimp only
  split
  · exact h
  · split
    · exact State.updCore_canonical h
    · exact OptKept₂.map (l1Room_kept h) (fun _ h1 => State.updCore_canonical h1)
theorem reachLine_kept {off : Nat} (h : Canonical s) : OptKept (reachLine s c t off n) := by
  unfold reachLine
  split
  · exact OptKept.ite h (OptKept.ite trivial (l1Fill_kept (l2Ensure_canonical h)))
  · split
    · exact OptKept.ite trivial (l1Fill_kept (l2Ensure_canonical h))
    · exact OptKept.ite trivial (l2Ensure_canonical h)
theorem coreRead_kept (h : Canonical s) : (coreRead s c t va n).Kept := by
  unfold coreRead
  dsimp only
  split
  · exact h
  · split
    · exact h
    · next e =>
      split
      · exact Acc.Kept.ite (canonical_of_some e (reachLine_kept h)) (canonical_of_some e (reachLine_kept h))
      · split
        · exact Acc.Kept.ite (canonical_of_some e (reachLine_kept h)) (canonical_of_some e (reachLine_kept h))
        · exact canonical_of_some e (reachLine_kept h)
theorem coreWrite_kept {v : Nat} (h : Canonical s) : (coreWrite s c t va n v).Kept := by
  unfold coreWrite
  dsimp only
  split
  · exact h
  · split
    · exact h
    · next e =>
      split
      · split
        · exact canonical_of_some e (reachLine_kept h)
        · exact State.updCore_canonical (canonical_of_some e (reachLine_kept h))
      · split
        · exact canonical_of_some e (reachLine_kept h)
        · split
          · next e3 => exact canonical_of_some e3 (journalAdd_kept (l2Merge_canonical (canonical_of_some e (reachLine_kept h))))
          · exact canonical_of_some e (reachLine_kept h)
      · exact canonical_of_some e (reachLine_kept h)
theorem ilApply_canonical (h : Canonical s) : Canonical (ilApply s d) := by
  unfold ilApply
  dsimp only
  split
  · exact h
  · exact foldl_canonical (fun _ _ h1 => State.updCore_canonical h1) (State.updDie_canonical (dropWalks_canonical h))
theorem ilApplyAll_canonical (h : Canonical s) : Canonical (ilApplyAll s) := foldl_canonical (fun _ _ h1 => ilApply_canonical h1) h
theorem ilAppend_canonical {kind : Nat} {ctx : Nat} (h : Canonical s) : Canonical (ilAppend s kind ctx va) :=
  Canonical.keep (foldl_canonical (fun _ _ h1 => physWrite_canonical (State.updDie_canonical (Canonical.ite (ilApply_canonical h1) h1))) h)
theorem dropLost_canonical (h : Canonical s) : Canonical (dropLost s c) := h.keep
theorem release_kept (hc : Canonical s) : (release s h c sc).Kept := by
  unfold release
  refine .ite hc ?_
  split
  · exact hc
  · next e =>
    have h1 := canonical_of_some e (OptKept.ite (l1WbAll_kept hc) hc)
    refine .ite ?_ h1
    split
    · exact h1
    · next e =>
      extract_lets s3
      have h3 : Canonical s3 := (canonical_of_some e (homeClean_kept h1)).keep
      refine .ite ?_ h3
      split
      · exact dropLost_canonical h3
      · exact .ite h3 h3.keep
theorem l1DropClean_canonical (h : Canonical s) : Canonical (l1DropClean s c) := State.updCore_canonical h
theorem advanceGen_canonical (h : Canonical s) : Canonical (advanceGen s d) :=
  State.updDie_canonical (foldl_canonical (fun _ _ h1 => l2CleanRaw_canonical h1) h)
theorem acquire_kept (hc : Canonical s) : (acquire s h c sc).Kept := by
  unfold acquire
  dsimp only
  split
  · exact hc
  · split
    · exact ilApply_canonical (advanceGen_canonical (Canonical.ite (l1DropClean_canonical hc) hc))
    · exact Canonical.ite (l1DropClean_canonical hc) hc
theorem logLine_canonical (h : Canonical s) : Canonical (logLine s line) :=
  Canonical.ite (Canonical.keep (State.updGrp_canonical h)) (State.updGrp_canonical h)
theorem promoteBegin_kept (hc : Canonical s) : OptKept (promoteBegin s h) := by
  unfold promoteBegin
  split
  · exact hc
  · split
    · exact hc
    · exact OptKept.map (homeClean_kept (State.updGroup_canonical (foldl_canonical (fun _ _ h1 => l1WbRaw_canonical h1) hc)))
        (fun _ h1 => State.updGroup_canonical (State.updCore_canonical h1))

end Sys2Proof.Machine
end

section
/-! SUPPORT. Memory stays canonical in this part of the model, one lemma per function. Translation (R315 to R319), packets and flits of the
Avdon links (R341 to R347), accesses of another module (R346, R348), and global accesses by virtual address. -/
namespace Sys2Proof.Machine

variable {s : State} {data : BitVec 1024} {mask : BitVec 128} {n k core st pa va len cls pop arg key a b c ctx v : Nat} {p : Packet} {tr :
    State → Nat → Acc Tr} {h : W64} {w : Want}

theorem sendOn_canonical (h : Canonical s) : Canonical (sendOn s n p) := State.updLink_canonical h
theorem nextSend_canonical {x : Packet × Nat × State} (h : Canonical s) (e : nextSend s = some x) : Canonical x.2.2 := by
  unfold nextSend at e
  obtain ⟨n, -, hn⟩ := List.exists_of_findSome?_eq_some e
  split at hn
  · split at hn
    · cases hn; exact State.updLink_canonical h
    · cases hn
  · cases hn
theorem flushN_canonical (h : Canonical s) : Canonical (flushN k s) := by
  induction k generalizing s with
  | zero => exact h
  | succ k ih =>
    unfold flushN
    split
    · exact h
    · next e => exact ih (sendOn_canonical (nextSend_canonical h e).keep)
theorem sendWaiting_canonical (h : Canonical s) : Canonical (sendWaiting s) := flushN_canonical h
theorem enqueue_canonical (h : Canonical s) : Canonical (enqueue s p) := sendWaiting_canonical h.keep
theorem sendRequest_canonical (hc : Canonical s) : Canonical (sendRequest s p core h) := by
  unfold sendRequest
  dsimp only
  split
  · split
    · exact State.updDest_canonical hc.keep
    · exact enqueue_canonical (State.updDest_canonical hc.keep)
  · split
    · exact State.updDest_canonical hc.keep
    · exact enqueue_canonical (State.updDest_canonical hc.keep)
theorem sendReply_canonical (h : Canonical s) : Canonical (sendReply s p) := enqueue_canonical h
theorem clearRemote_canonical (h : Canonical s) : Canonical (clearRemote s st) := State.updGrp_canonical h
theorem remoteAsk_kept (h : Canonical s) : (remoteAsk s st p pa va len).Kept := by
  unfold remoteAsk
  split
  · split
    · exact Acc.Kept.ite h (Acc.Kept.ite h h)
    · exact Acc.Kept.ite (State.updGrp_canonical (State.updDest_canonical h)) h
  · exact Acc.Kept.ite h (Acc.Kept.ite h (Acc.Kept.ite h (State.updGrp_canonical (sendRequest_canonical h))))
theorem remoteRead_kept (h : Canonical s) : (remoteRead s st pa va n cls).Kept := Acc.bind_kept (remoteAsk_kept h) (fun _ _ h1 => h1)
theorem postWrite_kept (hc : Canonical s) : (postWrite s pa va mask data cls pop arg core h).Kept :=
  Acc.Kept.ite hc (Acc.Kept.ite hc (sendRequest_canonical hc))
theorem remoteWrite_kept (h : Canonical s) : (remoteWrite s pa va mask data cls pop arg).Kept := Acc.Kept.ite h (postWrite_kept h)
theorem devAsk_kept (h : Canonical s) : (devAsk s key p pa va len).Kept := by
  unfold devAsk
  split
  · split
    · exact Acc.Kept.ite h (Acc.Kept.ite h h)
    · exact Acc.Kept.ite (State.updDest_canonical h) h
  · exact Acc.Kept.ite h (Acc.Kept.ite h (Canonical.keep (sendRequest_canonical h)))
theorem devEnd_kept {α : Type} {x : Acc α} (hx : x.Kept) : (devEnd key x).Kept := by
  unfold devEnd
  split
  · exact hx.keep
  · exact hx.keep
  · exact hx
theorem devPost_kept (h : Canonical s) : (devPost s pa va mask data).Kept := Acc.Kept.ite h (Acc.Kept.ite h.keep (postWrite_kept h))
theorem flushDev_canonical (h : Canonical s) : Canonical (flushDev s) := by
  refine foldl_canonical (fun _ _ h1 => ?_) h.keep
  split
  · exact h1.keep
  · split
    · next e => exact Canonical.keep (canonical_of_wait e (postWrite_kept h1))
    · next e => exact canonical_of_ok e (postWrite_kept h1)
    · next e1 => exact canonical_of_fault e1 (postWrite_kept h1)
theorem flushOutbox_canonical (h : Canonical s) : Canonical (flushOutbox s) :=
  Canonical.ite (sendWaiting_canonical h) (flushDev_canonical (sendWaiting_canonical h))
theorem physAskN_kept (h : Canonical s) : (physAskN k s a b c).Kept := by
  induction k generalizing s a b c with
  | zero =>
    unfold physAskN
    exact h
  | succ n ih =>
    unfold physAskN
    split
    · exact h
    · split
      · dsimp only
        split
        · next e1 => exact Acc.bind_kept (ih (canonical_of_ok e1 (devAsk_kept h))) (fun _ _ h1 => h1)
        · next e2 => exact Acc.bind_kept (ih (canonical_of_fault e2 (devAsk_kept h))) (fun _ _ h1 => h1)
        · next e1 => exact canonical_of_wait e1 (devAsk_kept h)
      · exact Acc.Kept.ite h (Acc.bind_kept (ih (physRead_canonical h)) (fun _ _ h1 => h1))
theorem physAsk_kept (h : Canonical s) : (physAsk s pa n).Kept := devEnd_kept (physAskN_kept h)
theorem walkFrom_canonical {l : List Nat} (h : Canonical s) : Canonical (walkFrom l s k a b).2 := by
  induction l generalizing s k a b with
  | nil => exact h
  | cons lvl rest ih =>
    unfold walkFrom
    dsimp only
    split
    · next e => exact canonical_of_wait e (physAskN_kept h)
    · next e => exact canonical_of_fault e (physAskN_kept h)
    · next e => exact canonical_of_ok e (physAskN_kept h)
    · next e =>
      have h1 := canonical_of_ok e (physAskN_kept h)
      split
      · exact h1
      · split
        · split
          · exact h1
          · exact h1
        · split
          · exact h1
          · exact ih h1
theorem walk_canonical {d : Nat} (h : Canonical s) : Canonical (walk s d ctx va).2 := by
  unfold walk
  dsimp only
  split
  · exact walkFrom_canonical h
  · exact Canonical.keep (walkFrom_canonical h)
theorem tlbFill_canonical {t : TlbEnt} (h : Canonical s) : Canonical (tlbFill s c t) := State.updDie_canonical (State.updCore_canonical h)
theorem findLeaf_canonical (h : Canonical s) : Canonical (findLeaf s c ctx va).2 := by
  unfold findLeaf
  split
  · exact h
  · split
    · exact tlbFill_canonical h
    · dsimp only
      split
      · exact tlbFill_canonical (walk_canonical h)
      · exact walk_canonical h
theorem translate_kept (h : Canonical s) : (translate s c ctx va w).Kept := by
  unfold translate
  dsimp only
  split
  · exact h
  · split
    · exact findLeaf_canonical h
    · exact findLeaf_canonical h
    · exact findLeaf_canonical h
    · split
      · exact findLeaf_canonical h
      · split
        · exact findLeaf_canonical h
        · split
          · exact findLeaf_canonical h
          · exact Acc.Kept.ite (findLeaf_canonical h) (Acc.Kept.ite (findLeaf_canonical h) (findLeaf_canonical h))
theorem vaRead_kept (h : Canonical s) : (vaRead s st va n).Kept :=
  Acc.bind_kept (translate_kept h) (fun _ _ h1 => Acc.Kept.ite (remoteRead_kept h1) (Acc.Kept.ite h1 (coreRead_kept h1)))
theorem vaWrite_kept (h : Canonical s) : (vaWrite s va n v).Kept :=
  Acc.bind_kept (translate_kept h) (fun _ _ h1 => Acc.Kept.ite (remoteWrite_kept h1) (Acc.Kept.ite h1 (coreWrite_kept h1)))
theorem alignedTo_kept (h : Canonical s) : (alignedTo s va n).Kept := Acc.guard_kept h
theorem devReadAt.go_kept (htr : ∀ a, Canonical a → ∀ a₁, (tr a a₁).Kept) (h : Canonical s) : (devReadAt.go tr key k s a b).Kept := by
  induction k generalizing s a b with
  | zero => exact h
  | succ k ih =>
    unfold devReadAt.go
    dsimp only
    refine Acc.Kept.ite h (Acc.bind_kept (htr s h a) fun t s h => ?_)
    have hr : Canonical (homeRead s t.home (t.pa / 128)).st := homeRead_canonical h
    exact Acc.Kept.ite (Acc.bind_kept (devAsk_kept h) fun b s h => Acc.bind_kept (ih h) fun v s h => h)
      (Acc.Kept.ite hr (Acc.bind_kept (ih hr) fun v s h => h))
theorem devReadAt_kept (htr : ∀ a, Canonical a → ∀ a₁, (tr a a₁).Kept) (h : Canonical s) : (devReadAt tr key s va n).Kept :=
  devReadAt.go_kept (fun _ h1 _ => htr _ h1 _) h
theorem devReadBy_kept (htr : ∀ a, Canonical a → ∀ a₁, (tr a a₁).Kept) (h : Canonical s) : (devReadBy tr s va n).Kept :=
  devEnd_kept (devReadAt_kept (fun _ h1 _ => htr _ h1 _) h)
theorem devWriteBy.go_kept (htr : ∀ a, Canonical a → ∀ a₁, (tr a a₁).Kept) (h : Canonical s) : (devWriteBy.go tr k s a b c).Kept := by
  induction k generalizing s a b c with
  | zero =>
    unfold devWriteBy.go
    exact h
  | succ n ih =>
    unfold devWriteBy.go
    split
    · exact h
    · exact Acc.bind_kept (htr _ h _) (fun _ _ h1 => Acc.bind_kept (Acc.Kept.ite (devPost_kept h1) (homeWrite_canonical h1)) (fun _ _ h2 => ih h2))
theorem devWriteBy_kept (htr : ∀ a, Canonical a → ∀ a₁, (tr a a₁).Kept) (h : Canonical s) : (devWriteBy tr s va n v).Kept :=
  devWriteBy.go_kept (fun _ h1 _ => htr _ h1 _) h
theorem devCountBy_kept (htr : ∀ a, Canonical a → ∀ a₁, (tr a a₁).Kept) (h : Canonical s) : (devCountBy tr s va key).Kept := by
  refine Acc.bind_kept (htr _ h _) (fun _ _ h1 => ?_)
  split
  · exact devEnd_kept (Acc.bind_kept (devAsk_kept h1) (fun _ _ h2 => h2))
  · split
    · next e => exact canonical_of_some₂ e (homeAtomic_kept h1)
    · exact atomicMissed_canonical h1
theorem devTr_kept (hc : Canonical s) : (devTr ctx h w s va).Kept := translate_kept hc
theorem devRead_kept (hc : Canonical s) : (devRead s ctx va n h).Kept := devReadBy_kept (fun _ h1 _ => devTr_kept h1) hc
theorem devReadOf_kept (h : Canonical s) : (devReadOf key s ctx va n).Kept := devReadAt_kept (fun _ h1 _ => devTr_kept h1) h
theorem devWrite_kept (hc : Canonical s) : (devWrite s ctx va n v h).Kept := devWriteBy_kept (fun _ h1 _ => devTr_kept h1) hc
theorem devCount_kept (hc : Canonical s) : (devCount s ctx va key h).Kept := devCountBy_kept (fun _ h1 _ => devTr_kept h1) hc

end Sys2Proof.Machine
end

section
/-! SUPPORT. Memory stays canonical in this part of the model, one lemma per function. The named operations over the group in focus:
registers and program counters, token counters (R102 to R105), the sequencer (R86, R90), vector results in flight and latches (R65, R158),
the fault record (R330), taking a trap (R64) and returning from one (R68), aborting and stopping (R95, R110), and ending a stream (R109). -/
namespace Sys2Proof.Machine

variable {s : State} {p q : BitVec 3} {status : EndStatus} {f : FaultInfo} {st pc k c n fr : Nat} {vld : Option VldOp} {info : W32}

theorem State.setX_canonical {r : BitVec 5} {v : W64} (h : Canonical s) : Canonical (s.setX r v) := Canonical.ite h (State.updGrp_canonical h)
theorem State.updStream_canonical {f : StreamSt → StreamSt} (h : Canonical s) : Canonical (s.updStream st f) := State.updGrp_canonical h
theorem State.setPc_canonical {pc : W64} (h : Canonical s) : Canonical (s.setPc st pc) := State.updStream_canonical h
theorem State.advance_canonical (h : Canonical s) : Canonical (s.advance st) := State.setPc_canonical h
theorem State.block_canonical (h : Canonical s) : Canonical (s.block st) := State.updStream_canonical h
theorem State.branch_canonical {x : W64} (h : Canonical s) : Canonical (s.branch st x) := by
  unfold State.branch
  split
  · exact State.setPc_canonical h
  · split
    · exact State.setPc_canonical h
    · exact Canonical.ite (State.setPc_canonical h) (State.updStream_canonical (State.setPc_canonical h))
theorem vecStride_canonical {r : Nat} {d : W32} (h : Canonical s) : Canonical (vecStride s r d) := State.updGrp_canonical h
theorem strideAdd_canonical {lvl : Nat} {k : ℤ} (h : Canonical s) : Canonical (strideAdd s st lvl k) := by
  unfold strideAdd
  dsimp only
  split
  · exact h
  · split
    · exact State.setX_canonical h
    · exact vecStride_canonical h
    · exact State.updGrp_canonical h
    · exact State.updGrp_canonical h
theorem loopStep_canonical (h : Canonical s) : Canonical (loopStep s st) := by
  unfold loopStep
  dsimp only
  split
  · exact h
  · split <;> exact State.updStream_canonical (strideAdd_canonical h)
theorem tokIssue_canonical (h : Canonical s) : Canonical (tokIssue s st p q) := State.updGrp_canonical h
theorem tokDone_canonical (h : Canonical s) : Canonical (tokDone s st q) := State.updGrp_canonical h
theorem tokRelease_canonical (h : Canonical s) : Canonical (tokRelease s st q) := State.updGrp_canonical h
theorem tokCheck_kept (h : Canonical s) : (tokCheck s st p q).Kept := by
  unfold tokCheck
  split
  · exact h
  · exact Acc.Kept.ite h h
theorem landFlight_canonical {f : Flight} (h : Canonical s) : Canonical (landFlight s f) := tokDone_canonical (State.updGrp_canonical h)
theorem retireDue_canonical (h : Canonical s) : Canonical (retireDue s) :=
  foldl_canonical (fun _ _ h1 => landFlight_canonical h1) (State.updGrp_canonical h)
theorem retireAll_canonical (h : Canonical s) : Canonical (retireAll s) :=
  foldl_canonical (fun _ _ h1 => landFlight_canonical h1) (State.updGrp_canonical h)
theorem waitSlot_canonical (h : Canonical s) : Canonical (waitSlot s) :=
  foldl_canonical (fun _ _ h1 => Canonical.ite (retireDue_canonical (State.updGrp_canonical h1)) h1) (retireDue_canonical h)
theorem settleSeq_canonical (h : Canonical s) : Canonical (settleSeq s st) :=
  foldl_canonical (fun _ _ h1 => Canonical.ite h1 (loopStep_canonical (Canonical.ite (waitSlot_canonical h1) h1))) h
theorem settleSeqs_canonical (h : Canonical s) : Canonical (settleSeqs s) := foldl_canonical (fun _ _ h1 => settleSeq_canonical h1) h
theorem readLanes_kept {mask : BitVec 128} (h : Canonical s) : (readLanes s k mask).Kept := by
  unfold readLanes
  dsimp only
  refine Acc.Kept.ite h ?_
  generalize hr : (List.range 128).foldl _ _ = r
  have hc : Canonical r.2.2.2 := by
    rw [← hr]
    refine List.foldlRecOn (motive := fun x : List W32 × Option Exc × Bool × State => Canonical x.2.2.2) _ _ h fun x hx i _ => ?_
    split
    · split
      · next e => exact canonical_of_ok e (vaRead_kept hx)
      · next e => exact canonical_of_fault e (vaRead_kept hx)
      · next e => exact canonical_of_wait e (vaRead_kept hx)
    · exact hx
  refine Acc.Kept.ite hc ?_
  split
  · exact hc
  · exact hc
theorem decideVld_kept (h : Canonical s) : (decideVld s).Kept := by
  unfold decideVld
  split
  · exact h
  · split
    · next e1 => exact clearRemote_canonical (tokDone_canonical (State.updGrp_canonical (canonical_of_ok e1 (readLanes_kept h))))
    · next e2 => exact clearRemote_canonical (State.updGrp_canonical (canonical_of_fault e2 (readLanes_kept h)))
    · next e1 => exact canonical_of_wait e1 (readLanes_kept h)
theorem fetchHome_kept {t : Tr} {va : Nat} (h : Canonical s) : (fetchHome s c t va).Kept := by
  unfold fetchHome
  dsimp only
  split
  · exact h
  · split
    · split
      · exact Acc.Kept.ite h h
      · split
        · exact Acc.Kept.ite (Acc.Kept.ite h h) (Acc.Kept.ite (homeRead_canonical h) (homeRead_canonical h))
        · exact Acc.Kept.ite (homeRead_canonical h) (homeRead_canonical h)
    · split
      · exact Acc.Kept.ite (Acc.Kept.ite h h) (Acc.Kept.ite (homeRead_canonical h) (homeRead_canonical h))
      · exact Acc.Kept.ite (homeRead_canonical h) (homeRead_canonical h)
theorem fetchRemote_kept {pa : Nat} (h : Canonical s) : (fetchRemote s st pa pc).Kept := by
  unfold fetchRemote
  split
  · next e1 => exact canonical_of_fault e1 (remoteRead_kept h)
  · exact remoteRead_kept h
theorem fetchWord_kept (h : Canonical s) : (fetchWord s st pc).Kept :=
  Acc.bind_kept (translate_kept h) (fun _ _ h1 => Acc.bind_kept (Acc.Kept.ite (fetchRemote_kept h1) (fetchHome_kept h1)) (fun _ _ h2 => h2))
theorem retireIfEnded_canonical (h : Canonical s) : Canonical (retireIfEnded s) := by
  unfold retireIfEnded
  split
  · split
    · exact State.postE_canonical (State.updGrp_canonical h)
    · split
      · exact Canonical.ite (State.post_canonical (State.updGroup_canonical (State.updGrp_canonical h))) h
      · exact State.postE_canonical (State.updGrp_canonical h)
  · exact h
theorem endStream_canonical (h : Canonical s) : Canonical (endStream s st) := State.updStream_canonical (Canonical.ite h (State.updGrp_canonical h))
theorem pauseStr_canonical (h : Canonical s) : Canonical (pauseStr s n) := Canonical.ite h (State.updGroups_canonical (State.updStr_canonical h))
theorem unready_canonical {m : Memb} (h : Canonical s) : Canonical (unready s m) := State.updStr_canonical h
theorem cutTile_canonical (h : Canonical s) : Canonical (cutTile s) := by
  unfold cutTile
  split
  · exact h
  · split
    · split
      · exact State.updGrp_canonical h
      · exact Canonical.ite (pauseStr_canonical (State.updGrp_canonical h)) (unready_canonical (State.updGrp_canonical h))
    · exact State.updGrp_canonical h
theorem cutVector_canonical (h : Canonical s) : Canonical (cutVector s) := by
  unfold cutVector
  split
  · exact h
  · exact State.updGrp_canonical (tokRelease_canonical h)
theorem cutCopy_canonical (h : Canonical s) : Canonical (cutCopy s) := by
  unfold cutCopy
  split
  · exact h
  · exact State.updGrp_canonical (tokRelease_canonical h)
theorem withdrawJoin_canonical (h : Canonical s) : Canonical (withdrawJoin s) := h.keep
theorem finishCal_canonical (h : Canonical s) : Canonical (finishCal s) := by
  unfold finishCal
  split
  · exact h
  · exact State.advance_canonical (tokDone_canonical h.keep)
theorem endDraining_canonical (h : Canonical s) : Canonical (endDraining s st) :=
  Canonical.ite (endStream_canonical (Canonical.ite (retireAll_canonical h) h)) h
theorem stopStreams_canonical (h : Canonical s) : Canonical (stopStreams s) :=
  State.updGrp_canonical (Canonical.keep (dropWalks_canonical (withdrawJoin_canonical (finishCal_canonical (cutCopy_canonical
    (State.updGrp_canonical (cutTile_canonical (cutVector_canonical (foldl_canonical (fun _ _ h1 => endDraining_canonical h1) h)))))))))
theorem coreErrors_canonical (h : Canonical s) : Canonical (coreErrors s c n) :=
  Canonical.ite (State.postE_canonical (State.updCore_canonical h)) (State.updCore_canonical h)
theorem noteConsumed_canonical (h : Canonical s) : Canonical (noteConsumed s f) := by
  unfold noteConsumed
  split
  · exact h
  · split
    · exact Canonical.ite (eventRecord_canonical h) (coreErrors_canonical (eventRecord_canonical h))
    · exact eventRecord_canonical h
    · exact eventRecord_canonical h
    · exact Canonical.ite (eventRecord_canonical h) (Canonical.ite (eventRecord_canonical h) (eventRecord_canonical h))
theorem settleVld_canonical (h : Canonical s) : Canonical (settleVld s).2 := by
  unfold settleVld
  split
  · next e1 => exact noteConsumed_canonical (tokRelease_canonical (canonical_of_ok e1 (decideVld_kept h)))
  · next e _ => exact canonical_of_ok e (decideVld_kept h)
  · next e1 => exact canonical_of_fault e1 (decideVld_kept h)
  · next e => exact canonical_of_wait e (decideVld_kept h)
theorem finishStop_canonical (h : Canonical s) : Canonical (finishStop s) := by
  unfold finishStop
  exact State.updGrp_canonical (stopStreams_canonical (retireAll_canonical (Canonical.ite (State.updGrp_canonical (settleVld_canonical h))
    (settleVld_canonical h))))
theorem stopGroup_canonical {fr : List Byte} (h : Canonical s) : Canonical (stopGroup s status info fr) := by
  unfold stopGroup
  dsimp only
  split
  · exact finishStop_canonical (State.postE_canonical (State.updGrp_canonical h))
  · exact State.postE_canonical (State.updGrp_canonical h)
theorem onPartner_canonical {f : State → State} (h : Canonical s) (hf : ∀ a, Canonical a → Canonical (f a)) : Canonical (onPartner s f) :=
  Canonical.ite h (State.focus_canonical (hf _ (State.focus_canonical h)))
theorem stopBoth_canonical {fr : List Byte} (h : Canonical s) : Canonical (stopBoth s status info fr) := by
  unfold stopBoth
  exact onPartner_canonical (stopGroup_canonical h) (fun _ h1 => Canonical.ite (stopGroup_canonical h1) h1)
theorem frameFlush_kept (h : Canonical s) : OptKept (frameFlush s) :=
  allOf_kept h (fun _ h1 _ => OptKept.bind (l1Flush_kept h1) (fun _ h2 => l2Evict_kept h2))
theorem leaveTraps_canonical (h : Canonical s) : Canonical (leaveTraps s) := by
  refine State.updGrp_canonical ?_
  split
  · next e1 => exact State.updGrp_canonical (tokRelease_canonical (canonical_of_ok e1 (decideVld_kept h)))
  · next e _ => exact canonical_of_ok e (decideVld_kept h)
  · next e1 => exact canonical_of_fault e1 (decideVld_kept h)
  · next e => exact canonical_of_wait e (decideVld_kept h)
theorem holdHalf_canonical (h : Canonical s) : Canonical (holdHalf s) :=
  Canonical.ite h (State.updGrp_canonical (stopStreams_canonical (leaveTraps_canonical h)))
theorem enterTrap_canonical {code : Nat} {vtrap : Option VldOp} (h : Canonical s) : Canonical (enterTrap s code st info fr vtrap) := by
  unfold enterTrap
  extract_lets r load s0 s1 lat t s2 pa s3 s4 s5 s6
  have h0 : Canonical s0 := (settleVld_canonical h).keep
  have h1 : Canonical s1 := retireDue_canonical (settleSeqs_canonical (endDraining_canonical h0))
  have h2 : Canonical s2 := stopStreams_canonical h1.keep
  clear_value load s2
  have h3 : Canonical s3 := physWrite_canonical ((frameFlush_kept h2).getD h2)
  have h4 : Canonical s4 := by
    unfold s4
    split
    · exact physWrite_canonical h3
    · exact h3
  have h5 : Canonical s5 := physWrite_canonical h4
  have h6 : Canonical s6 := .ite h5 (physWrite_canonical h5)
  exact onPartner_canonical (physWrite_canonical h6).keep fun _ h => holdHalf_canonical h
theorem trapNow_canonical {p : PendTrap} (h : Canonical s) : Canonical (trapNow s p) := by
  unfold trapNow
  split
  · exact enterTrap_canonical h
  · exact Canonical.ite (enterTrap_canonical h) (stopBoth_canonical h)
theorem takeTrap_canonical {p : PendTrap} (h : Canonical s) : Canonical (takeTrap s p) :=
  Canonical.ite (trapNow_canonical h) (State.updGrp_canonical h)
theorem takeFault_canonical (h : Canonical s) : Canonical (takeFault s f vld) :=
  Canonical.ite (stopBoth_canonical h) (Canonical.ite (stopBoth_canonical h) (takeTrap_canonical h))
theorem deliverWith_canonical {s0 : State} (hs0 : Canonical s0) : Canonical (deliverWith s0 f vld) := by
  unfold deliverWith
  dsimp only
  split
  · exact Canonical.ite hs0 (noteConsumed_canonical hs0)
  · exact State.updGrp_canonical (Canonical.ite hs0 (noteConsumed_canonical hs0))
  · exact State.updGrp_canonical (Canonical.ite hs0 (noteConsumed_canonical hs0))
  · exact takeFault_canonical (Canonical.ite hs0 (noteConsumed_canonical hs0))
theorem deliver_canonical (h : Canonical s) : Canonical (deliver s f) := deliverWith_canonical h
theorem raise_canonical {e : Exc} {el : Option Nat} (h : Canonical s) : Canonical (raise s st e el) := deliver_canonical (clearRemote_canonical h)
theorem illegal_canonical (h : Canonical s) : Canonical (illegal s st) := raise_canonical h
theorem frameRead_kept {a : Nat} (h : Canonical s) : (frameRead k s a).Kept := by
  induction k generalizing s a with
  | zero =>
    unfold frameRead
    exact h
  | succ n ih =>
    unfold frameRead
    exact Acc.bind_kept (vaRead_kept h) (fun _ _ h1 => Acc.bind_kept (ih h1) (fun _ _ h2 => h2))
theorem leaveLoad_canonical (h : Canonical s) : Canonical (leaveLoad s fr) := by
  unfold leaveLoad
  dsimp only
  split
  · split
    · split
      · exact enterTrap_canonical (State.updGrp_canonical h)
      · exact stopBoth_canonical (State.updGrp_canonical h)
    · split
      · exact enterTrap_canonical (State.updGrp_canonical h)
      · exact stopBoth_canonical (State.updGrp_canonical h)
  · exact State.updGrp_canonical h
theorem leaveTrap_canonical (h : Canonical s) : Canonical (leaveTrap s fr) :=
  retireIfEnded_canonical (leaveLoad_canonical (onPartner_canonical (State.updGrp_canonical (foldl_canonical (fun _ _ h1 => Canonical.ite
    (tokDone_canonical h1) h1) h)) (fun _ h1 => Canonical.ite (State.updGrp_canonical h1) h1)))

end Sys2Proof.Machine
end

section
/-! SUPPORT. Memory stays canonical in this part of the model, one lemma per function. Operand forms shared by the families: effective
addresses, immediate fields, local addresses and their checks (R143, R194), and the ways in which an instruction of each stream issues,
waits, faults or completes. -/
namespace Sys2Proof.Machine

variable {s : State} {p q : BitVec 3} {d : BitVec 5} {legal mem : Bool} {names : List Nat} {off n v al st lam : Nat} {body : State → Acc Unit}

theorem scrCheck_kept (h : Canonical s) : (scrCheck s off n).Kept := by
  unfold scrCheck
  dsimp only
  split
  · exact h
  · split
    · exact h
    · split
      · exact h
      · exact Acc.Kept.ite h h
theorem scrGet_kept (h : Canonical s) : (scrGet s off n).Kept := by
  unfold scrGet
  split <;> exact h
theorem State.setScr_canonical (h : Canonical s) : Canonical (s.setScr off n v) := State.updGrp_canonical h
theorem scrRead_kept (h : Canonical s) : (scrRead s off n al).Kept :=
  Acc.bind_kept (Acc.guard_kept h) (fun _ _ h1 => Acc.bind_kept (scrCheck_kept h1) (fun _ _ h2 => scrGet_kept h2))
theorem scrWrite_kept (h : Canonical s) : (scrWrite s off n al v).Kept :=
  Acc.bind_kept (Acc.guard_kept h) (fun _ _ h1 => Acc.bind_kept (scrCheck_kept h1) (fun _ _ h2 => State.setScr_canonical h2))
theorem sAlu_kept {v : W64} (h : Canonical s) : Kept (sAlu s d v) := Kept.ite trivial (State.advance_canonical (State.setX_canonical h))
theorem sDo_kept (h : Canonical s) (hbody : ∀ a, Canonical a → (body a).Kept) : Kept (sDo s body) := by
  unfold sDo
  split
  · exact trivial
  · split
    · next e => exact clearRemote_canonical (canonical_of_ok e (hbody _ h))
    · next e1 => exact raise_canonical (canonical_of_fault e1 (hbody _ h))
    · next e => exact State.block_canonical (canonical_of_wait e (hbody _ h))
theorem sDoIf_kept (h : Canonical s) (hbody : ∀ a, Canonical a → (body a).Kept) : Kept (sDoIf s legal body) :=
  Kept.ite trivial (Kept.ite (sDo_kept h (fun _ h1 => hbody _ h1)) (illegal_canonical h))
theorem done_kept {v : W64} (h : Canonical s) : (done s d v).Kept := State.advance_canonical (State.setX_canonical h)
theorem redGate_kept {sc : Nat} {body : State → Out} (h : Canonical s) (hbody : ∀ a, Canonical a → Kept (body a)) : Kept (redGate s sc body) := by
  unfold redGate
  split
  · exact trivial
  · split
    · exact State.block_canonical h
    · split
      · exact deliver_canonical (State.updGrp_canonical h)
      · exact hbody _ h
theorem tokBoth_canonical (h : Canonical s) : Canonical (tokBoth s st p q) := State.updGrp_canonical h
theorem tDo_kept (h : Canonical s) (hbody : ∀ a, Canonical a → (body a).Kept) : Kept (tDo s st p q body) := by
  unfold tDo
  split
  · exact trivial
  · split
    · next e => exact State.advance_canonical (tokBoth_canonical (clearRemote_canonical (canonical_of_ok e (Acc.bind_kept (tokCheck_kept h)
        (fun _ _ h1 => hbody _ h1)))))
    · next e1 => exact raise_canonical (canonical_of_fault e1 (Acc.bind_kept (tokCheck_kept h) (fun _ _ h1 => hbody _ h1)))
    · next e => exact State.block_canonical (canonical_of_wait e (Acc.bind_kept (tokCheck_kept h) (fun _ _ h1 => hbody _ h1)))
theorem vTick_canonical (h : Canonical s) : Canonical (vTick s) := State.updGrp_canonical h
theorem vGate_kept {mk : Bool} (h : Canonical s) : (vGate s p q names mem mk).Kept :=
  Acc.bind_kept (tokCheck_kept h) (fun _ _ h1 => Acc.Kept.ite h1 h1)
theorem vWait_canonical (h : Canonical s) : Canonical (vWait s) := vTick_canonical (State.block_canonical h)
theorem vExec_kept {body : Group → VRes} (h : Canonical s) : Kept (vExec s p q names lam body) := by
  unfold vExec
  split
  · exact trivial
  · split
    · next e => exact vTick_canonical (State.advance_canonical (State.updGrp_canonical (tokIssue_canonical (canonical_of_ok e (vGate_kept
        (retireDue_canonical h))))))
    · next e1 => exact raise_canonical (canonical_of_fault e1 (vGate_kept (retireDue_canonical h)))
    · next e => exact vWait_canonical (canonical_of_wait e (vGate_kept (retireDue_canonical h)))
theorem vExecIf_kept {body : Group → VRes} (h : Canonical s) : Kept (vExecIf s legal p q names lam body) :=
  Kept.ite trivial (Kept.ite (vExec_kept h) (illegal_canonical h))
theorem vDo_kept (h : Canonical s) (hbody : ∀ a, Canonical a → (body a).Kept) : Kept (vDo s p q names mem body) := by
  unfold vDo
  split
  · exact trivial
  · split
    · next e => exact vTick_canonical (tokBoth_canonical (clearRemote_canonical (canonical_of_ok e (Acc.bind_kept (vGate_kept
        (retireDue_canonical h)) (fun _ _ h1 => hbody _ h1)))))
    · next e1 => exact raise_canonical (canonical_of_fault e1 (Acc.bind_kept (vGate_kept (retireDue_canonical h)) (fun _ _ h1 => hbody _ h1)))
    · next e => exact vWait_canonical (canonical_of_wait e (Acc.bind_kept (vGate_kept (retireDue_canonical h)) (fun _ _ h1 => hbody _ h1)))
theorem vHeld_kept {cap : Group → VSrc} {body : VSrc → State → Acc Unit} (h : Canonical s) (hbody : ∀ (a : VSrc) (a₁ : State), Canonical a₁
    → (body a a₁).Kept) : Kept (vHeld s p q names cap body) := by
  unfold vHeld
  extract_lets s0 put src
  have h0 : Canonical s0 := retireDue_canonical h
  have hsrc : src.Kept := by
    unfold src
    split
    · exact h0
    · exact Acc.bind_kept (vGate_kept h0) fun _ _ h => h
  refine .ite trivial ?_
  clear_value src
  split
  · exact raise_canonical hsrc
  · exact vWait_canonical hsrc
  · next x s1 =>
    have hb := hbody x s1 hsrc
    split
    · next e => exact vTick_canonical (tokBoth_canonical (clearRemote_canonical (canonical_of_ok e hb).keep))
    · next e => exact raise_canonical (canonical_of_fault e hb).keep
    · next e => exact vWait_canonical (canonical_of_wait e hb).keep

end Sys2Proof.Machine
end

section
/-! SUPPORT. Memory stays canonical in this part of the model, one lemma per function. Scalar loads and stores, global (R137 to R142) and
local (R143); full-empty forms (R195); acquire loads, release stores, fences and the promoting acquire (R294 to R300); atomics and
reductions (R144 to R148). -/
namespace Sys2Proof.Machine

variable {s : State} {i : BitVec 12} {n : BitVec 3} {o : BitVec 4} {d x b : BitVec 5} {sc va res line c w : Nat} {f : Nat → Nat} {p : Prom}
    {t : Tr} {h : W64}

theorem sLoad_kept {n : Nat} {ext : Nat → W64} (h : Canonical s) : Kept (sLoad s d x i n ext) :=
  sDo_kept h (fun _ h1 => Acc.bind_kept (alignedTo_kept h1) (fun _ _ h2 => Acc.bind_kept (vaRead_kept h2) (fun _ _ h3 => done_kept h3)))
theorem sStore_kept {n : Nat} (h : Canonical s) : Kept (sStore s d x i n) :=
  sDo_kept h (fun _ h1 => Acc.bind_kept (alignedTo_kept h1) (fun _ _ h2 => Acc.bind_kept (vaWrite_kept h2)
    (fun _ _ h3 => State.advance_canonical h3)))
theorem execLdI8_kept (h : Canonical s) : Kept (execLdI8 d x i s) := sLoad_kept h
theorem execLdN8_kept (h : Canonical s) : Kept (execLdN8 d x i s) := sLoad_kept h
theorem execLdI16_kept (h : Canonical s) : Kept (execLdI16 d x i s) := sLoad_kept h
theorem execLdN16_kept (h : Canonical s) : Kept (execLdN16 d x i s) := sLoad_kept h
theorem execLdI32_kept (h : Canonical s) : Kept (execLdI32 d x i s) := sLoad_kept h
theorem execLdN32_kept (h : Canonical s) : Kept (execLdN32 d x i s) := sLoad_kept h
theorem execLdI64_kept (h : Canonical s) : Kept (execLdI64 d x i s) := sLoad_kept h
theorem execStI8_kept (h : Canonical s) : Kept (execStI8 d x i s) := sStore_kept h
theorem execStI16_kept (h : Canonical s) : Kept (execStI16 d x i s) := sStore_kept h
theorem execStI32_kept (h : Canonical s) : Kept (execStI32 d x i s) := sStore_kept h
theorem execStI64_kept (h : Canonical s) : Kept (execStI64 d x i s) := sStore_kept h
theorem execLdlI32_kept (h : Canonical s) : Kept (execLdlI32 d x i s) :=
  sDo_kept h (fun _ h1 => Acc.bind_kept (scrRead_kept h1) (fun _ _ h2 => done_kept h2))
theorem execLdlI64_kept (h : Canonical s) : Kept (execLdlI64 d x i s) :=
  sDo_kept h (fun _ h1 => Acc.bind_kept (scrRead_kept h1) (fun _ _ h2 => done_kept h2))
theorem execStlI32_kept (h : Canonical s) : Kept (execStlI32 d x i s) :=
  sDo_kept h (fun _ h1 => Acc.bind_kept (scrWrite_kept h1) (fun _ _ h2 => State.advance_canonical h2))
theorem execStlI64_kept (h : Canonical s) : Kept (execStlI64 d x i s) :=
  sDo_kept h (fun _ h1 => Acc.bind_kept (scrWrite_kept h1) (fun _ _ h2 => State.advance_canonical h2))
theorem relG_kept (h : Canonical s) : (relG s sc).Kept := release_kept h
theorem acqG_kept (h : Canonical s) : (acqG s sc).Kept := acquire_kept h
theorem fabGate_kept (h : Canonical s) : (fabGate s sc).Kept := Acc.Kept.ite h h
theorem execLdAcq_kept (h : Canonical s) : Kept (execLdAcq d x n i s) :=
  sDoIf_kept h (fun _ h1 => Acc.bind_kept (alignedTo_kept h1) (fun _ _ h2 => Acc.bind_kept (fabGate_kept h2) (fun _ _ h3 => Acc.bind_kept
    (vaRead_kept h3) (fun _ _ h4 => Acc.bind_kept (acqG_kept h4) (fun _ _ h5 => done_kept h5)))))
theorem storeCheck_kept {n : Nat} (h : Canonical s) : (storeCheck s va n).Kept := by
  refine Acc.bind_kept (translate_kept h) (fun _ _ h1 => ?_)
  split
  · exact Acc.Kept.ite h1 (Acc.Kept.ite h1 h1)
  · exact Acc.Kept.ite h1 (Acc.bind_kept (coreRead_kept h1) (fun _ _ h2 => h2))
theorem execStRel_kept (h : Canonical s) : Kept (execStRel d x n i s) := by
  unfold execStRel
  dsimp only
  split
  · exact trivial
  · split
    · exact illegal_canonical h
    · refine redGate_kept h (fun _ h1 => sDo_kept h1 (fun _ h2 => Acc.bind_kept (alignedTo_kept h2) (fun _ _ h3 => Acc.bind_kept
        (storeCheck_kept h3) (fun _ _ h4 => ?_))))
      split
      · exact h4
      · exact Acc.bind_kept (relG_kept h4) (fun _ _ h5 => Acc.bind_kept (vaWrite_kept h5) (fun _ _ h6 => State.advance_canonical (Canonical.ite
          (logLine_canonical h6) h6)))
theorem sFence_kept {rel : Bool} {acq : Bool} (h : Canonical s) : Kept (sFence s n rel acq) := by
  unfold sFence
  split
  · exact trivial
  · split
    · exact illegal_canonical h
    · exact redGate_kept h (fun _ h1 => sDo_kept h1 (fun _ h2 => Acc.bind_kept (fabGate_kept h2) (fun _ _ h3 => Acc.bind_kept (Acc.Kept.ite
        (relG_kept h3) h3) (fun _ _ h4 => Acc.bind_kept (Acc.Kept.ite (acqG_kept h4) h4) (fun _ _ h5 => State.advance_canonical h5)))))
theorem execFence_kept (h : Canonical s) : Kept (execFence n s) := sFence_kept h
theorem execFenceRel_kept (h : Canonical s) : Kept (execFenceRel n s) := sFence_kept h
theorem execFenceAcq_kept (h : Canonical s) : Kept (execFenceAcq n s) := sFence_kept h
theorem answerProms_canonical (h : Canonical s) : Canonical (answerProms s res) := h.keep
theorem answerProm_canonical {m : Nat} (h : Canonical s) : Canonical (answerProm s p res m) := by
  unfold answerProm
  split
  · exact answerProms_canonical h.keep
  · exact sendReply_canonical h.keep
  · exact h.keep
  · exact h.keep
  · exact h.keep
theorem promoteStep_canonical (hc : Canonical s) : Canonical (promoteStep s h) := by
  unfold promoteStep
  dsimp only
  split
  · exact hc
  · split
    · exact Canonical.ite hc (OptKept.getD (promoteBegin_kept hc) hc)
    · split
      · split
        · exact hc
        · split
          · exact answerProm_canonical (State.updGroup_canonical hc)
          · exact State.updGroup_canonical hc
      · split
        · exact OptKept.getD (promoteBegin_kept hc) hc
        · split
          · exact answerProm_canonical (State.updGroup_canonical (OptKept.getD (promoteBegin_kept hc) hc))
          · exact State.updGroup_canonical (OptKept.getD (promoteBegin_kept hc) hc)
theorem promoteStart_canonical (hc : Canonical s) : Canonical (promoteStart s h p) := State.updGroup_canonical hc.keep
theorem serveProms_canonical {k : Nat} {x : W64} (h : Canonical s) : Canonical (serveProms k s x) := by
  induction k generalizing s x with
  | zero =>
    unfold serveProms
    exact h
  | succ n ih =>
    unfold serveProms
    split
    · exact Canonical.ite h (promoteStep_canonical h)
    · exact h
    · exact ih (answerProm_canonical h)
    · split
      · exact h
      · split
        · exact ih (answerProm_canonical h)
        · split
          · exact Canonical.ite (promoteStep_canonical h) (ih (promoteStep_canonical h))
          · split
            · exact ih (answerProm_canonical h)
            · split
              · exact Canonical.ite (ih (answerProm_canonical h)) h
              · exact Canonical.ite (ih (promoteStart_canonical h)) (ih (answerProm_canonical h))
theorem serve_canonical (hc : Canonical s) : Canonical (serve s h) := serveProms_canonical hc
theorem promEnter_canonical {g : Group} {src : PromSrc} {ctx : Option Nat} (h : Canonical s) : Canonical (promEnter s g src line ctx) :=
  serve_canonical h.keep
theorem promAnswer_kept (h : Canonical s) : (promAnswer s va).Kept := by
  unfold promAnswer
  split
  · exact h
  · split
    · exact h
    · exact h.keep
    · exact h.keep
theorem promoteFor_kept {target : W64} {ctx : Nat} (h : Canonical s) : (promoteFor s target ctx line va).Kept := by
  unfold promoteFor
  split
  · exact promAnswer_kept h
  · split
    · exact h
    · exact Acc.Kept.ite h (promAnswer_kept (promEnter_canonical h))
theorem execLdAcqp_kept (h : Canonical s) : Kept (execLdAcqp d x n b s) := by
  unfold execLdAcqp
  dsimp only
  split
  · exact trivial
  · split
    · exact illegal_canonical h
    · refine redGate_kept h (fun _ h1 => sDo_kept h1 (fun _ h2 => Acc.bind_kept (alignedTo_kept h2) (fun _ _ h3 => Acc.bind_kept
        (translate_kept h3) (fun _ _ h4 => ?_))))
      split
      · split
        · exact h4
        · refine Acc.bind_kept (fabGate_kept h4) (fun _ _ h5 => Acc.bind_kept (remoteAsk_kept h5) (fun _ _ h6 => ?_))
          split
          · exact h6
          · exact Acc.bind_kept (remoteRead_kept h6) (fun _ _ h7 => Acc.bind_kept (acqG_kept h7) (fun _ _ h8 => done_kept h8))
      · refine Acc.bind_kept (fabGate_kept h4) (fun _ _ h5 => Acc.bind_kept (Acc.Kept.ite (promoteFor_kept h5) h5) (fun _ _ h6 => ?_))
        split
        · exact homeRead_canonical h6
        · exact Acc.bind_kept (acqG_kept (homeRead_canonical h6)) (fun _ _ h7 => done_kept h7)
theorem l2Atomic_kept (h : Canonical s) : (l2Atomic s c t va w f).Kept := by
  unfold l2Atomic
  dsimp only
  split
  · exact h
  · next e =>
    split
    · exact l2Ensure_canonical (canonical_of_some e (OptKept.ite trivial (l1Flush_kept h)))
    · split
      · exact l2Ensure_canonical (canonical_of_some e (OptKept.ite trivial (l1Flush_kept h)))
      · split
        · next e2 => exact canonical_of_some e2 (journalAdd_kept (l2Merge_canonical (l2Ensure_canonical (canonical_of_some e
            (OptKept.ite trivial (l1Flush_kept h))))))
        · exact l2Ensure_canonical (canonical_of_some e (OptKept.ite trivial (l1Flush_kept h)))
theorem dieFlush_kept {d : Nat} (h : Canonical s) : OptKept (dieFlush s d line) :=
  OptKept.bind (allOf_kept h (fun _ h1 _ => l1Flush_kept h1)) (fun _ h1 => l2Evict_kept h1)
theorem homeSite_kept (h : Canonical s) : (homeSite s c t va w f).Kept := by
  unfold homeSite
  split
  · exact h
  · next e =>
    split
    · next e1 => exact canonical_of_some₂ e1 (homeAtomic_kept (canonical_of_some e (OptKept.ite trivial (dieFlush_kept h))))
    · exact atomicMissed_canonical (canonical_of_some e (OptKept.ite trivial (dieFlush_kept h)))
theorem execAtom_kept {t : BitVec 3} (h : Canonical s) : Kept (execAtom d x n b o t s) := by
  refine sDoIf_kept h (fun _ h1 => Acc.bind_kept (alignedTo_kept h1) (fun _ _ h2 => Acc.bind_kept (translate_kept h2)
    (fun _ _ h3 => Acc.bind_kept (fabGate_kept h3) (fun _ _ h4 => Acc.bind_kept ?_ (fun _ _ h5 => done_kept h5)))))
  split
  · exact Acc.bind_kept (remoteAsk_kept h4) (fun _ _ h5 => h5)
  · exact Acc.Kept.ite h4 (Acc.Kept.ite (l2Atomic_kept h4) (homeSite_kept h4))
theorem execRed_kept {t : BitVec 3} (h : Canonical s) : Kept (execRed x n b o t s) := by
  unfold execRed
  dsimp only
  refine sDoIf_kept h (fun _ h1 => Acc.bind_kept (alignedTo_kept h1) (fun _ _ h2 => Acc.bind_kept (translate_kept h2)
    (fun _ _ h3 => Acc.bind_kept (fabGate_kept h3) (fun _ _ h4 => ?_))))
  split
  · split
    · exact h4
    · exact Acc.Kept.ite h4 (Acc.Kept.ite h4 (State.advance_canonical (Canonical.keep (sendRequest_canonical h4))))
  · split
    · exact State.advance_canonical (State.updDie_canonical h4)
    · split
      · exact h4
      · split
        · next e => exact State.advance_canonical (homePost_canonical (canonical_of_some e (dieFlush_kept h4)))
        · exact h4
theorem applyRed_kept {r : RedReq} (h : Canonical s) : OptKept (applyRed s r) := by
  unfold applyRed
  dsimp only
  split
  · exact trivial
  · split
    · next e => exact canonical_of_ok e (l2Atomic_kept h)
    · next e1 => exact redFault_canonical (canonical_of_fault e1 (l2Atomic_kept h))
    · exact trivial
theorem State.updFifo_canonical {f : Nat} {k : Fifo → Fifo} (h : Canonical s) : Canonical (s.updFifo f k) := State.updGrp_canonical h
theorem fifoCheck_kept {f : Nat} {off : Nat} (h : Canonical s) : (fifoCheck s f off).Kept := by
  unfold fifoCheck
  split
  · exact h
  · split <;> exact h
theorem execLdfe_kept (h : Canonical s) : Kept (execLdfe d x n i s) := by
  refine sDoIf_kept h (fun _ h1 => Acc.bind_kept (Acc.guard_kept h1) (fun _ _ h2 => ?_))
  split
  · refine Acc.bind_kept (scrCheck_kept h2) (fun _ _ h3 => ?_)
    split
    · exact Acc.bind_kept (scrGet_kept h3) (fun _ _ h4 => Acc.bind_kept (acqG_kept (State.updGrp_canonical h4)) (fun _ _ h5 => done_kept h5))
    · exact h3
  · refine Acc.bind_kept (fifoCheck_kept h2) (fun _ _ h3 => ?_)
    split
    · exact h3
    · exact Acc.Kept.ite (Acc.bind_kept (acqG_kept (State.updFifo_canonical h3)) (fun _ _ h4 => done_kept h4)) h3
theorem execStfe_kept (h : Canonical s) : Kept (execStfe d x n i s) := by
  unfold execStfe
  split
  · exact trivial
  · split
    · exact illegal_canonical h
    · refine redGate_kept h (fun _ h1 => sDo_kept h1 (fun _ h2 => Acc.bind_kept (Acc.guard_kept h2) (fun _ _ h3 => ?_)))
      split
      · exact Acc.bind_kept (scrCheck_kept h3) (fun _ _ h4 => Acc.bind_kept (relG_kept h4) (fun _ _ h5 => Acc.Kept.ite h5
          (State.advance_canonical (State.updGrp_canonical (State.setScr_canonical h5)))))
      · exact Acc.bind_kept (fifoCheck_kept h3) (fun _ _ h4 => Acc.bind_kept (relG_kept h4) (fun _ _ h5 => Acc.Kept.ite
          (State.advance_canonical (State.updFifo_canonical h5)) h5))

end Sys2Proof.Machine
end

section
/-! SUPPORT. Memory stays canonical in this part of the model, one lemma per function. Barriers (chapter 16): the object of Table 16-1,
updates and the completion of a phase (R309), arrivals (R310), and the ten `bar.*` forms (R312). -/
namespace Sys2Proof.Machine

variable {s : State} {e : BEntry} {n : BitVec 3} {b x d : BitVec 5} {out : Bool} {core i id : Nat}

theorem barPut_canonical {o : BitVec 128} (h : Canonical s) : Canonical (barPut s core i o) :=
  Canonical.ite (State.updCore_canonical h) (State.updGroups_canonical (State.updCore_canonical h))
theorem barEnt_kept {b : Nat} (h : Canonical s) : (barEnt s b).Kept := by
  unfold barEnt
  split
  · exact h
  · exact Acc.Kept.ite h (Acc.Kept.ite h h)
theorem State.updBar_canonical {b : Nat} {f : BEntry → BEntry} (h : Canonical s) : Canonical (s.updBar b f) := State.updGrp_canonical h
theorem barBlock_kept {tested : W32} (h : Canonical s) : (barBlock s core i tested).Kept := State.updGrp_canonical h
theorem barDone_canonical (h : Canonical s) : Canonical (barDone s) := State.updGrp_canonical h
theorem execBarInit_kept (h : Canonical s) : Kept (execBarInit x b s) :=
  sDo_kept h (fun _ h1 => Acc.bind_kept (barEnt_kept h1) (fun _ _ h2 => Acc.Kept.ite h2 (State.advance_canonical (barPut_canonical h2))))
theorem execBarReg_kept (h : Canonical s) : Kept (execBarReg x s) :=
  sDo_kept h (fun _ h1 => Acc.bind_kept (barEnt_kept h1) (fun _ _ h2 => Acc.Kept.ite h2 (State.advance_canonical (State.updBar_canonical
    (barPut_canonical h2)))))
theorem barArrive_kept {registered : Bool} (h : Canonical s) : OptKept (barArrive s id e registered) := by
  unfold barArrive
  dsimp only
  split
  · exact trivial
  · split
    · exact trivial
    · exact Canonical.ite (State.updBar_canonical (barPut_canonical h)) (barPut_canonical h)
theorem execBarArr_kept (h : Canonical s) : Kept (execBarArr d x n s) := by
  unfold execBarArr
  dsimp only
  split
  · exact trivial
  · split
    · exact illegal_canonical h
    · refine redGate_kept h (fun _ h1 => sDo_kept h1 (fun _ h2 => Acc.bind_kept (barEnt_kept h2) (fun _ _ h3 => ?_)))
      split
      · exact h3
      · split
        · exact barBlock_kept h3
        · refine Acc.bind_kept (relG_kept h3) (fun _ _ h4 => ?_)
          split
          · next e => exact done_kept (barDone_canonical (canonical_of_some e (barArrive_kept h4)))
          · exact barBlock_kept h4
theorem execBarWait_kept (h : Canonical s) : Kept (execBarWait d x b n s) := by
  unfold execBarWait
  dsimp only
  refine sDoIf_kept h (fun _ h1 => Acc.bind_kept (barEnt_kept h1) (fun _ _ h2 => ?_))
  split
  · exact h2
  · split
    · exact Acc.bind_kept (acqG_kept (barDone_canonical h2)) (fun _ _ h3 => done_kept h3)
    · exact barBlock_kept h2
theorem barLeave_canonical (h : Canonical s) : Canonical (barLeave s id e) := State.updBar_canonical (barPut_canonical h)
theorem barArd_kept (h : Canonical s) : OptKept (barArd s id e) :=
  OptKept.ite (barLeave_canonical h) (OptKept.map (barArrive_kept h) (fun _ h1 => barLeave_canonical h1))
theorem execBarArd_kept (h : Canonical s) : Kept (execBarArd x n s) := by
  unfold execBarArd
  dsimp only
  split
  · exact trivial
  · split
    · exact illegal_canonical h
    · refine redGate_kept h (fun _ h1 => sDo_kept h1 (fun _ h2 => Acc.bind_kept (barEnt_kept h2) (fun _ _ h3 => ?_)))
      split
      · exact h3
      · split
        · exact barBlock_kept h3
        · refine Acc.bind_kept (relG_kept h3) (fun _ _ h4 => ?_)
          split
          · next e => exact State.advance_canonical (barDone_canonical (canonical_of_some e (barArd_kept h4)))
          · exact barBlock_kept h4
theorem execBarPub_kept (h : Canonical s) : Kept (execBarPub x b s) :=
  sDo_kept h (fun _ h1 => Acc.bind_kept (barEnt_kept h1) (fun _ _ h2 => Acc.Kept.ite h2 (State.advance_canonical (barPut_canonical h2))))
theorem execBarAtt_kept (h : Canonical s) : Kept (execBarAtt x b s) := by
  unfold execBarAtt
  dsimp only
  refine sDo_kept h (fun _ h1 => Acc.bind_kept (barEnt_kept h1) (fun _ _ h2 => ?_))
  split
  · exact h2
  · split
    · exact h2
    · exact State.advance_canonical (State.updBar_canonical (barPut_canonical h2))
theorem execBarRarr_kept (h : Canonical s) : Kept (execBarRarr d x b n s) := by
  unfold execBarRarr
  dsimp only
  split
  · exact trivial
  · split
    · exact illegal_canonical h
    · refine redGate_kept h (fun _ h1 => sDo_kept h1 (fun _ h2 => ?_))
      split
      · exact Acc.bind_kept (relG_kept h2) (fun _ _ h3 => done_kept (barDone_canonical h3))
      · split
        · exact h2
        · split
          · exact h2
          · refine Acc.bind_kept (relG_kept h2) (fun _ _ h3 => ?_)
            split
            · exact barBlock_kept h3
            · exact done_kept (barDone_canonical (barPut_canonical h3))
theorem execBarRdlo_kept (h : Canonical s) : Kept (execBarRdlo d x s) :=
  sDo_kept h (fun _ h1 => Acc.bind_kept (barEnt_kept h1) (fun _ _ h2 => done_kept h2))
theorem execBarRdhi_kept (h : Canonical s) : Kept (execBarRdhi d x s) :=
  sDo_kept h (fun _ h1 => Acc.bind_kept (barEnt_kept h1) (fun _ _ h2 => done_kept h2))
theorem barDown_canonical (h : Canonical s) : Canonical (barDown s core i out) := barPut_canonical h
theorem barAdd_canonical {n : Nat} (h : Canonical s) : Canonical (barAdd s core i out n) := Canonical.ite h (barPut_canonical h)

end Sys2Proof.Machine
end

section
/-! SUPPORT. Memory stays canonical in this part of the model, one lemma per function. Vector arithmetic: floating and integer forms (R161,
R162), logic and shifts (R163, R164), constants, moves, selection and permutes (R165 to R168), and reductions (R176, R177). -/
namespace Sys2Proof.Machine

variable {s : State} {t : BitVec 2} {p q k : BitVec 3} {d x b : BitVec 5} {i : BitVec 7} {legal : Bool} {lam op : Nat}

theorem vLanes_kept {f : W32 → W32 → W32 → W32} (h : Canonical s) : Kept (vLanes s legal p q d x b k lam f) := vExecIf_kept h
theorem vFloat_kept (h : Canonical s) : Kept (vFloat s op p q d x b k t) := vLanes_kept h
theorem vInt_kept (h : Canonical s) : Kept (vInt s op p q d x b k t) := vLanes_kept h
theorem execVadd_kept (h : Canonical s) : Kept (execVadd p q d x b k t s) := vFloat_kept h
theorem execVsub_kept (h : Canonical s) : Kept (execVsub p q d x b k t s) := vFloat_kept h
theorem execVmul_kept (h : Canonical s) : Kept (execVmul p q d x b k t s) := vFloat_kept h
theorem execVfma_kept (h : Canonical s) : Kept (execVfma p q d x b k t s) := vFloat_kept h
theorem execVfms_kept (h : Canonical s) : Kept (execVfms p q d x b k t s) := vFloat_kept h
theorem execVmin_kept (h : Canonical s) : Kept (execVmin p q d x b k t s) := vFloat_kept h
theorem execVmax_kept (h : Canonical s) : Kept (execVmax p q d x b k t s) := vFloat_kept h
theorem execVaddInteger_kept (h : Canonical s) : Kept (execVaddInteger p q d x b k t s) := vInt_kept h
theorem execVsubInteger_kept (h : Canonical s) : Kept (execVsubInteger p q d x b k t s) := vInt_kept h
theorem execVmulInteger_kept (h : Canonical s) : Kept (execVmulInteger p q d x b k t s) := vInt_kept h
theorem execVmulh_kept (h : Canonical s) : Kept (execVmulh p q d x b k t s) := vInt_kept h
theorem execVminInteger_kept (h : Canonical s) : Kept (execVminInteger p q d x b k t s) := vInt_kept h
theorem execVmaxInteger_kept (h : Canonical s) : Kept (execVmaxInteger p q d x b k t s) := vInt_kept h
theorem vLogic_kept {f : W32 → W32 → W32} (h : Canonical s) : Kept (vLogic s p q d x b k f) := vLanes_kept h
theorem execVand_kept (h : Canonical s) : Kept (execVand p q d x b k s) := vLogic_kept h
theorem execVor_kept (h : Canonical s) : Kept (execVor p q d x b k s) := vLogic_kept h
theorem execVxor_kept (h : Canonical s) : Kept (execVxor p q d x b k s) := vLogic_kept h
theorem execVshl_kept (h : Canonical s) : Kept (execVshl p q d x b k s) := vLogic_kept h
theorem execVshr_kept (h : Canonical s) : Kept (execVshr p q d x b k s) := vLogic_kept h
theorem execVsra_kept (h : Canonical s) : Kept (execVsra p q d x b k s) := vLogic_kept h
theorem vUnary_kept {f : W32 → W32} (h : Canonical s) : Kept (vUnary s legal p q d x k lam f) := vExecIf_kept h
theorem execVaddi_kept (h : Canonical s) : Kept (execVaddi p q d x k i s) := vUnary_kept h
theorem execVandi_kept (h : Canonical s) : Kept (execVandi p q d x k i s) := vUnary_kept h
theorem execVshli_kept {i : BitVec 5} (h : Canonical s) : Kept (execVshli p q d x k i s) := vUnary_kept h
theorem execVshri_kept {i : BitVec 5} (h : Canonical s) : Kept (execVshri p q d x k i s) := vUnary_kept h
theorem execVli_kept {i : BitVec 15} (h : Canonical s) : Kept (execVli p q d i s) := vExec_kept h
theorem execVlih_kept {i : BitVec 15} (h : Canonical s) : Kept (execVlih p q d i s) := vExec_kept h
theorem execVmov_kept (h : Canonical s) : Kept (execVmov p q d x k s) := vUnary_kept h
theorem execVlane_kept {n : BitVec 6} (h : Canonical s) : Kept (execVlane p q d x k n s) := vExec_kept h
theorem execVsel_kept (h : Canonical s) : Kept (execVsel p q d x b k s) := vExec_kept h
theorem vPermute_kept {f : (Nat → W32) → (Nat → W32) → (Nat → W32) → Nat → W32} (h : Canonical s) : Kept (vPermute s p q d x b k f) := vExec_kept h
theorem execVperm_kept (h : Canonical s) : Kept (execVperm p q d x b k s) := vPermute_kept h
theorem execVshuf_kept (h : Canonical s) : Kept (execVshuf p q d x b k s) := vPermute_kept h
theorem execVrot_kept (h : Canonical s) : Kept (execVrot p q d x b k s) := vPermute_kept h
theorem execVzip_kept (h : Canonical s) : Kept (execVzip p q d x b k s) := vPermute_kept h
theorem vReduce_kept {o : Nat} (h : Canonical s) : Kept (vReduce s o p q d x k t) := vExecIf_kept h
theorem execVradd_kept (h : Canonical s) : Kept (execVradd p q d x k t s) := vReduce_kept h
theorem execVrmax_kept (h : Canonical s) : Kept (execVrmax p q d x k t s) := vReduce_kept h
theorem execVrmin_kept (h : Canonical s) : Kept (execVrmin p q d x k t s) := vReduce_kept h
theorem execVrmaxi_kept (h : Canonical s) : Kept (execVrmaxi p q d x k t s) := vExecIf_kept h

end Sys2Proof.Machine
end

section
/-! SUPPORT. Memory stays canonical in this part of the model, one lemma per function. Vector memory: loads and stores (R182 to R187), the
multi-step gathers, scatters and look-ups (R188), the full-empty forms (R197), `vrescale` (R181) and the accumulator drains (R203). A result
of an interlocked instruction other than `vld` is written in its issue cycle (log entry 25). -/
namespace Sys2Proof.Machine

variable {s : State} {mask m : BitVec 128} {p q k : BitVec 3} {d x : BitVec 5} {h : BitVec 64} {o : BitVec 7} {row write : Bool} {c : VCmd}

theorem execVld_kept (h : Canonical s) : Kept (execVld p q d x k o s) := by
  unfold execVld
  split
  · exact trivial
  · split
    · exact illegal_canonical h
    · split
      · next e => exact vTick_canonical (State.advance_canonical (State.updGrp_canonical (tokIssue_canonical (canonical_of_ok e (vGate_kept
          (retireDue_canonical h))))))
      · next e1 => exact raise_canonical (canonical_of_fault e1 (vGate_kept (retireDue_canonical h)))
      · next e => exact vWait_canonical (canonical_of_wait e (vGate_kept (retireDue_canonical h)))
theorem storeLanesCheck_kept {k : Nat} (h : Canonical s) : (storeLanesCheck s k mask).Kept := by
  unfold storeLanesCheck
  dsimp only
  refine Acc.Kept.ite h ?_
  generalize hr : (List.range 128).foldl _ _ = r
  have hc : Canonical r.2.2 := by
    rw [← hr]
    refine List.foldlRecOn (motive := fun x : Option Exc × Bool × State => Canonical x.2.2) _ _ h fun x hx i _ => ?_
    split
    · split
      · next e => exact canonical_of_ok e (storeCheck_kept hx)
      · next e => exact canonical_of_fault e (storeCheck_kept hx)
      · next e => exact canonical_of_wait e (storeCheck_kept hx)
    · exact hx
  refine Acc.Kept.ite hc ?_
  split
  · exact hc
  · exact hc
theorem storeLanes_kept {k : Nat} {vals : List W32} (h : Canonical s) : (storeLanes s k mask vals).Kept := by
  unfold storeLanes
  split
  · exact h
  · exact foldl_kept (fun _ _ h1 => Acc.Kept.ite (Acc.bind_kept h1 (fun _ _ h2 => vaWrite_kept h2)) h1) h
theorem execVst_kept (h : Canonical s) : Kept (execVst p q d x k o s) := by
  unfold execVst
  split
  · exact trivial
  · split
    · exact illegal_canonical h
    · exact vHeld_kept h (fun _ _ h1 => Acc.bind_kept (storeLanesCheck_kept h1) (fun _ _ h2 => Acc.bind_kept (storeLanes_kept h2)
        (fun _ _ h3 => State.advance_canonical h3)))
theorem endVCmd_canonical {push : BitVec 3} (h : Canonical s) : Canonical (endVCmd s push) :=
  State.advance_canonical (State.updGrp_canonical (tokDone_canonical h))
theorem vMulti_kept {names : List Nat} {mk : State → Nat → Acc (VCmd × Nat)} {fin : State → VCmd → State} (h : Canonical s) (hmk : ∀ a,
    Canonical a → ∀ a₁, (mk a a₁).Kept) (hfin : ∀ a, Canonical a → ∀ a₁, Canonical (fin a a₁)) : Kept (vMulti s p q names mk fin) := by
  unfold vMulti
  extract_lets s0 res p1 e0
  have gate := vGate_kept (p := p1) (q := q) (names := names) (mem := true) (mk := false) (retireDue_canonical h)
  refine .ite trivial ?_
  split
  · next e => exact raise_canonical (canonical_of_fault e gate)
  · next e => exact vWait_canonical (canonical_of_wait e gate)
  · next s1 e =>
    have made := hmk s1 (canonical_of_ok e gate) e0
    split
    · next e => exact raise_canonical (canonical_of_fault e made)
    · next e => exact vWait_canonical (canonical_of_wait e made)
    · next e =>
      extract_lets _ cmd s3
      have h3 : Canonical s3 := (tokIssue_canonical (canonical_of_ok e made)).keep
      exact .ite (vTick_canonical (endVCmd_canonical (hfin _ h3 _))) (vTick_canonical h3.keep)
theorem vIndexed_kept {kind : VKind} (h : Canonical s) : Kept (vIndexed s kind p q d x k o) := by
  unfold vIndexed
  split
  · exact trivial
  · exact Kept.ite (illegal_canonical h) (vMulti_kept h (fun _ h1 _ => h1) (fun _ h1 _ => h1))
theorem execVgather_kept (h : Canonical s) : Kept (execVgather p q d x k o s) := vIndexed_kept h
theorem execVscatter_kept (h : Canonical s) : Kept (execVscatter p q d x k o s) := vIndexed_kept h
theorem execVlut_kept (h : Canonical s) : Kept (execVlut p q d x k o s) := vMulti_kept h (fun _ h1 _ => h1) (fun _ h1 _ => h1)
theorem vElement_kept (h : Canonical s) : (vElement s c).Kept := by
  unfold vElement
  dsimp only
  split
  · exact h
  · split
    · exact Acc.bind_kept (alignedTo_kept h) (fun _ _ h1 => Acc.bind_kept (vaRead_kept h1) (fun _ _ h2 => State.updGrp_canonical h2))
    · exact Acc.bind_kept (alignedTo_kept h) (fun _ _ h1 => vaWrite_kept h1)
    · exact Acc.bind_kept (scrRead_kept h) (fun _ _ h1 => State.updGrp_canonical h1)
    · exact h
theorem vElementFault_canonical {e : Exc} {el : Nat} (h : Canonical s) : Canonical (vElementFault s c e el) :=
  raise_canonical (Canonical.keep (Canonical.ite (State.updGrp_canonical (tokRelease_canonical h)) (cutVector_canonical h)))
theorem execVectorElement_kept (hc : Canonical s) : Kept (execVectorElement h s) := by
  unfold execVectorElement
  dsimp only
  split
  · exact State.focus_canonical hc
  · split
    · exact State.focus_canonical hc
    · split
      · next e2 => exact vElementFault_canonical (canonical_of_fault e2 (vElement_kept (retireDue_canonical (State.focus_canonical hc))))
      · next e1 => exact vWait_canonical (canonical_of_wait e1 (vElement_kept (retireDue_canonical (State.focus_canonical hc))))
      · next e1 =>
        refine vTick_canonical ?_
        split
        · exact endVCmd_canonical (clearRemote_canonical (canonical_of_ok e1 (vElement_kept (retireDue_canonical (State.focus_canonical hc)))))
        · exact State.updGrp_canonical (clearRemote_canonical (canonical_of_ok e1 (vElement_kept (retireDue_canonical (State.focus_canonical hc)))))
theorem execVectorResultWrite_kept (hc : Canonical s) : Kept (execVectorResultWrite h s) :=
  Kept.ite (retireDue_canonical (State.focus_canonical hc)) (State.focus_canonical hc)
theorem execLatchWrite_kept (hc : Canonical s) : Kept (execLatchWrite h s) := execVectorResultWrite_kept hc
theorem execVldChecksDecided_kept (hc : Canonical s) : Kept (execVldChecksDecided h s) := by
  unfold execVldChecksDecided
  dsimp only
  split
  · exact State.focus_canonical hc
  · split
    · exact State.focus_canonical hc
    · split
      · next e1 => exact retireIfEnded_canonical (canonical_of_ok e1 (decideVld_kept (State.focus_canonical hc)))
      · next e1 =>
        split
        · exact State.focus_canonical hc
        · exact deliverWith_canonical (tokRelease_canonical (canonical_of_ok e1 (decideVld_kept (State.focus_canonical hc))))
      · next e2 => exact canonical_of_fault e2 (decideVld_kept (State.focus_canonical hc))
      · next e1 => exact canonical_of_wait e1 (decideVld_kept (State.focus_canonical hc))
theorem execVldReplay_kept (hc : Canonical s) : Kept (execVldReplay h s) := by
  unfold execVldReplay
  dsimp only
  split
  · exact State.focus_canonical hc
  · split
    · exact State.focus_canonical hc
    · split
      · exact vTick_canonical (State.updGrp_canonical (tokIssue_canonical (retireDue_canonical (State.focus_canonical hc))))
      · exact vTick_canonical (retireDue_canonical (State.focus_canonical hc))
theorem feCheck_kept {off : Nat} (h : Canonical s) : (feCheck s off m).Kept := by
  unfold feCheck
  split
  · exact h
  · exact Acc.bind_kept (Acc.guard_kept h) (fun _ _ h1 => Acc.Kept.ite (scrCheck_kept h1) (fifoCheck_kept h1))
theorem execVldfe_kept (h : Canonical s) : Kept (execVldfe p q d x k o s) := by
  unfold execVldfe
  dsimp only
  refine vDo_kept h (fun _ h1 => Acc.bind_kept (feCheck_kept h1) (fun _ _ h2 => ?_))
  split
  · split
    · exact h2
    · split
      · exact h2
      · exact State.advance_canonical (State.updGrp_canonical h2)
  · split
    · exact h2
    · exact Acc.Kept.ite h2 (State.advance_canonical (State.updGrp_canonical (State.updFifo_canonical h2)))
theorem execVstfe_kept (h : Canonical s) : Kept (execVstfe p q d x k o s) := by
  unfold execVstfe
  dsimp only
  refine vDo_kept h (fun _ h1 => Acc.bind_kept (feCheck_kept h1) (fun _ _ h2 => ?_))
  split
  · split
    · exact h2
    · exact State.advance_canonical (State.updGrp_canonical (foldl_canonical (fun _ _ h3 => Canonical.ite (State.setScr_canonical h3) h3) h2))
  · exact Acc.Kept.ite h2 (State.advance_canonical (State.updFifo_canonical h2))
theorem execVrescale_kept {t : BitVec 5} (h : Canonical s) : Kept (execVrescale p q d x k t s) :=
  vHeld_kept h (fun _ _ h1 => Acc.bind_kept (scrRead_kept h1) (fun _ _ h2 => State.advance_canonical (State.updGrp_canonical h2)))
theorem cellSet_canonical {core : Nat} {cell : Nat} {v : W32} (h : Canonical s) : Canonical (cellSet s core cell v) := State.updCore_canonical h
theorem setUnalloc_canonical (h : Canonical s) : Canonical (setUnalloc s) := State.updGrp_canonical h
theorem vaccCheck_kept {b : Nat} {x : Nat} (h : Canonical s) : (vaccCheck s row write b x m).Kept := by
  unfold vaccCheck
  dsimp only
  split
  · exact h
  · split
    · exact Acc.Kept.ite h (Acc.Kept.ite h (setUnalloc_canonical h))
    · split
      · exact h
      · split <;> exact h
theorem vAcc_kept {reads : Bool} {f : W32 → W32 → W32 × Option W32} (h : Canonical s) : Kept (vAcc s row write reads p q d x k f) := by
  refine vDo_kept h fun s h => Acc.bind_kept (vaccCheck_kept h) fun phys s h => ?_
  dsimp only
  split
  · exact h
  · generalize hr : (List.range 128).foldl _ _ = r
    have hc : Canonical r.2 := by
      rw [← hr]
      refine List.foldlRecOn (motive := fun x : List W32 × State => Canonical x.2) _ _ h fun x hx i _ => ?_
      split
      · split
        · exact hx
        · dsimp only
          split
          · exact cellSet_canonical hx
          · exact hx
      · exact hx
    exact State.advance_canonical (Canonical.ite hc hc.keep)
theorem execVaccCol_kept (h : Canonical s) : Kept (execVaccCol p q d x k s) := vAcc_kept h
theorem execVaccColz_kept (h : Canonical s) : Kept (execVaccColz p q d x k s) := vAcc_kept h
theorem execVaccRow_kept (h : Canonical s) : Kept (execVaccRow p q d x k s) := vAcc_kept h
theorem execVaccRowz_kept (h : Canonical s) : Kept (execVaccRowz p q d x k s) := vAcc_kept h
theorem execVaccWcol_kept (h : Canonical s) : Kept (execVaccWcol p q d x k s) := vAcc_kept h
theorem execVaccAcol_kept (h : Canonical s) : Kept (execVaccAcol p q d x k s) := vAcc_kept h

end Sys2Proof.Machine
end

section
/-! SUPPORT. Memory stays canonical in this part of the model, one lemma per function. Strings and sessions (chapter 11): channel maps
(R204), admission of joins and calibrations (R211), members and talkers (R210), leaving a session (Table 11-2, R223), calibration (R221) and
the notices between modules (R205). -/
namespace Sys2Proof.Machine

variable {s : State} {r : BitVec 2} {p q st : BitVec 3} {fields : BitVec 64} {g : Group} {n seq key c core member : Nat} {w : SWait}

theorem onGroup_canonical {h : W64} {f : State → State} (hc : Canonical s) (hf : ∀ a, Canonical a → Canonical (f a)) : Canonical (onGroup s h f) :=
  Canonical.ite hc (State.focus_canonical (hf _ (State.focus_canonical hc)))
theorem remapStr_canonical {failed : BitVec 68} (h : Canonical s) : Canonical (remapStr s n failed) :=
  Canonical.ite (State.updStr_canonical h) (Canonical.keep (State.updStr_canonical h))
theorem addNote_canonical {k : SNote} (h : Canonical s) : Canonical (addNote s n k) := State.updStr_canonical h
theorem tell_canonical {code : Nat} {talker : Nat} (h : Canonical s) : Canonical (tell s n code seq talker key c) :=
  Canonical.ite h (addNote_canonical h)
theorem tellSession_canonical (h : Canonical s) : Canonical (tellSession s n seq) := tell_canonical h
theorem endJoin_canonical (h : Canonical s) : Canonical (endJoin s w) := State.advance_canonical (tokBoth_canonical h)
theorem tellComb_canonical (h : Canonical s) : Canonical (tellComb s n) := Canonical.ite (addNote_canonical h) (tellSession_canonical h)
theorem grant_canonical (h : Canonical s) : Canonical (grant s n w) := by
  unfold grant
  dsimp only
  split
  · refine onGroup_canonical (State.updStr_canonical h) (fun _ h1 => ?_)
    split
    · exact endJoin_canonical (State.updGrp_canonical h1)
    · exact tellSession_canonical (State.updStr_canonical (endJoin_canonical (State.updGrp_canonical h1)))
  · exact State.postE_canonical (State.updStr_canonical (onGroup_canonical (State.updStr_canonical h) (fun _ h1 => tokIssue_canonical h1)))
  · split
    · exact State.updStr_canonical h
    · exact tellSession_canonical (State.updGroups_canonical (State.updStr_canonical (State.updStr_canonical h)))
  · exact addNote_canonical (State.updStr_canonical (State.updStr_canonical h))
theorem letIn_canonical (h : Canonical s) : Canonical (letIn s n) := foldl_canonical (fun _ _ h1 => Canonical.ite (grant_canonical h1) h1) h
theorem askJoin_canonical (h : Canonical s) : Canonical (askJoin s n g key) := addNote_canonical h
theorem arrive_canonical (h : Canonical s) : Canonical (arrive s n w) :=
  Canonical.ite h (Canonical.ite (askJoin_canonical (State.updStr_canonical h)) (State.updStr_canonical h))
theorem execJoinAdmitted_kept {n : BitVec 3} (h : Canonical s) : Kept (execJoinAdmitted n s) := letIn_canonical h
theorem postAdmit_canonical (h : Canonical s) : Canonical (postAdmit s n) := Canonical.ite h h.keep
theorem tileFault_canonical {word : W32} {e : Exc} {el : Option Nat} (h : Canonical s) : Canonical (tileFault s word e el) := by
  unfold tileFault
  split
  · exact h
  · split
    · exact raise_canonical (cutTile_canonical h.keep)
    · exact Canonical.ite (State.updGrp_canonical h) h
theorem tileFaults_canonical {xs : List TileExc} (h : Canonical s) : Canonical (tileFaults s xs) :=
  foldl_canonical (fun _ _ h1 => onGroup_canonical h1 (fun _ h2 => tileFault_canonical h2)) h
theorem talkerLeft_canonical (h : Canonical s) : Canonical (talkerLeft s n) :=
  postAdmit_canonical (tileFaults_canonical (tellSession_canonical (State.updStr_canonical (State.updGroups_canonical (pauseStr_canonical h)))))
theorem strand_canonical (h : Canonical s) : Canonical (strand s n key c) := tileFaults_canonical (State.updGroups_canonical h)
theorem readmit_canonical (h : Canonical s) : Canonical (readmit s n key c) := by
  unfold readmit
  dsimp only
  split
  · exact h
  · split
    · exact h
    · exact letIn_canonical (arrive_canonical (State.updStr_canonical h))
theorem tellLeave_canonical (h : Canonical s) : Canonical (tellLeave s n g key) := Canonical.ite (addNote_canonical h) h
theorem leaveSession_canonical (h : Canonical s) : Canonical (leaveSession s) := by
  unfold leaveSession
  split
  · exact h
  · split
    · exact State.updGrp_canonical h
    · split
      · split
        · exact readmit_canonical (tellLeave_canonical (State.updGrp_canonical h))
        · exact strand_canonical (tell_canonical (State.updStr_canonical (State.updGrp_canonical h)))
      · split
        · exact tellLeave_canonical (State.updGrp_canonical h)
        · exact talkerLeft_canonical (State.updGrp_canonical h)
theorem waitAt_kept (h : Canonical s) : Kept (waitAt s n w) := by
  unfold waitAt
  dsimp only
  split
  · split
    · exact State.block_canonical (arrive_canonical h)
    · split
      · exact grant_canonical (arrive_canonical h)
      · exact State.block_canonical (grant_canonical (arrive_canonical h))
  · exact State.block_canonical (arrive_canonical h)
theorem mAlone_kept {legal : Bool} {body : State → Acc Unit} (h : Canonical s) (hbody : ∀ a, Canonical a → (body a).Kept) : Kept (mAlone s
    legal p q body) := by
  unfold mAlone
  split
  · exact trivial
  · split
    · exact illegal_canonical h
    · exact Kept.ite (State.block_canonical h) (tDo_kept h (fun _ h1 => hbody _ h1))
theorem execMjoin_kept {k : BitVec 6} {v : BitVec 2} (h : Canonical s) : Kept (execMjoin p q st r k v s) := by
  unfold execMjoin
  dsimp only
  split
  · exact trivial
  · split
    · exact illegal_canonical h
    · split
      · exact State.block_canonical h
      · split
        · next e1 => exact raise_canonical (canonical_of_fault e1 (tokCheck_kept h))
        · next e => exact State.block_canonical (canonical_of_wait e (tokCheck_kept h))
        · next e =>
          split
          · exact raise_canonical (canonical_of_ok e (tokCheck_kept h))
          · split
            · exact raise_canonical (canonical_of_ok e (tokCheck_kept h))
            · split
              · split
                · exact raise_canonical (canonical_of_ok e (tokCheck_kept h))
                · exact endJoin_canonical (State.updGrp_canonical (canonical_of_ok e (tokCheck_kept h)))
              · split
                · exact raise_canonical (canonical_of_ok e (tokCheck_kept h))
                · exact waitAt_kept (canonical_of_ok e (tokCheck_kept h))
theorem execMleave_kept (h : Canonical s) : Kept (execMleave p q s) := mAlone_kept h (fun _ h1 => leaveSession_canonical h1)
theorem execMcal_kept (h : Canonical s) : Kept (execMcal p q st r s) := by
  unfold execMcal
  dsimp only
  split
  · exact trivial
  · split
    · exact illegal_canonical h
    · split
      · exact State.block_canonical h
      · split
        · next e1 => exact raise_canonical (canonical_of_fault e1 (tokCheck_kept h))
        · next e => exact State.block_canonical (canonical_of_wait e (tokCheck_kept h))
        · next e =>
          split
          · exact raise_canonical (canonical_of_ok e (tokCheck_kept h))
          · split
            · exact endJoin_canonical (State.updStr_canonical (canonical_of_ok e (tokCheck_kept h)))
            · exact waitAt_kept (canonical_of_ok e (tokCheck_kept h))
theorem setTrims_canonical {ds : List (BitVec 16)} {only : Bool} (h : Canonical s) : Canonical (setTrims s core n ds only) :=
  Canonical.ite h (State.updCore_canonical h)
theorem setDrives_canonical {vs : List (BitVec 16)} (h : Canonical s) : Canonical (setDrives s core n vs) := State.updCore_canonical h
theorem execCalibrationDone_kept {n : BitVec 3} {found : BitVec 68 × List (BitVec 16)} (h : Canonical s) : Kept (execCalibrationDone n found s) := by
  unfold execCalibrationDone
  split
  · exact h
  · refine postAdmit_canonical ?_
    split
    · refine State.updStr_canonical ?_
      split
      · exact Canonical.ite h (remapStr_canonical h)
      · exact setDrives_canonical (setTrims_canonical (Canonical.ite h (remapStr_canonical h)))
    · refine onGroup_canonical (State.updStr_canonical ?_) (fun _ h1 => State.advance_canonical (tokDone_canonical h1))
      split
      · exact Canonical.ite h (remapStr_canonical h)
      · exact setDrives_canonical (setTrims_canonical (Canonical.ite h (remapStr_canonical h)))
theorem execCombFailoverDone_kept {n : BitVec 3} (h : Canonical s) : Kept (execCombFailoverDone n s) :=
  Kept.ite (tellSession_canonical (State.updStr_canonical h)) h
theorem takeJoin_canonical (h : Canonical s) : Canonical (takeJoin s n member key c fields) := by
  unfold takeJoin
  dsimp only
  split
  · split
    · exact h
    · split
      · exact State.updStr_canonical h
      · exact addNote_canonical h
  · exact Canonical.ite (State.updStr_canonical h) (Canonical.ite (letIn_canonical (State.updStr_canonical h)) h)
theorem takeSession_canonical (h : Canonical s) : Canonical (takeSession s n member key c fields) := by
  unfold takeSession
  dsimp only
  split
  · exact Canonical.ite (talkerLeft_canonical (State.updStr_canonical h)) (State.updStr_canonical h)
  · split
    · exact foldl_canonical (fun _ _ h1 => askJoin_canonical h1) (State.updGroups_canonical (State.updStr_canonical (State.updStr_canonical h)))
    · exact State.updGroups_canonical (State.updStr_canonical (State.updStr_canonical h))
  · split
    · exact State.updStr_canonical h
    · exact State.updStr_canonical (State.updGroups_canonical (State.updStr_canonical h))
  · exact strand_canonical (State.updStr_canonical h)
theorem execSessionControlFlit_kept {n : BitVec 3} {kind : BitVec 2} {member : BitVec 14} {key : BitVec 6} {c : BitVec 8} (h : Canonical s)
    : Kept (execSessionControlFlit n kind member key c fields s) := by
  unfold execSessionControlFlit
  dsimp only
  split
  · exact h
  · split
    · exact Canonical.ite (State.updStr_canonical h) h
    · exact takeJoin_canonical h
    · exact Canonical.ite (pauseStr_canonical h) h
    · exact Canonical.ite (takeSession_canonical h) (tellComb_canonical h)

end Sys2Proof.Machine
end

section
/-! SUPPORT. Memory stays canonical in this part of the model, one lemma per function. Tile commands (chapters 11 and 12): their start and
its checks (R236, R237), frames (R213 to R215), elements with re-run, failover, accumulation, status and summary (R216 to R220, R238 to
R240), and their completion. -/
namespace Sys2Proof.Machine

variable {s : State} {m : BitVec 2} {p q : BitVec 3} {x b : BitVec 4} {h : BitVec 64} {dark : BitVec 68} {las : Bool} {hs : List W64} {r :
    MReq} {n : Nat} {act : Option (ℤ × List ℤ)} {c : TileCmd} {w : W64}

theorem regionCheck_kept {al : List Nat} {rs : Regions} (h : Canonical s) : (regionCheck s al rs).Kept := by
  unfold regionCheck
  split
  · exact h
  · split
    · exact h
    · split
      · exact h
      · exact Acc.Kept.ite h h
theorem accCheck_kept {dc : BitVec 128} {nf : Nat} {mf : Nat} (h : Canonical s) : (accCheck s w dc nf mf).Kept := by
  unfold accCheck
  dsimp only
  split
  · exact h
  · split
    · exact h
    · split <;> exact h
theorem tileChecks_kept (h : Canonical s) : (tileChecks s r w).Kept := by
  unfold tileChecks
  dsimp only
  split
  · exact h
  · split
    · exact h
    · refine Acc.bind_kept (regionCheck_kept h) (fun _ _ h1 => Acc.bind_kept (regionCheck_kept h1) (fun _ _ h2 => Acc.bind_kept
        (Acc.Kept.ite h2 (regionCheck_kept h2)) (fun _ _ h3 => ?_)))
      split
      · exact h3
      · exact h3
      · exact Acc.Kept.ite h3 (accCheck_kept h3)
theorem endTile_canonical {push : BitVec 3} (h : Canonical s) : Canonical (endTile s push) := by
  unfold endTile
  split
  · exact State.updGrp_canonical (tokDone_canonical h)
  · exact State.advance_canonical (State.updGrp_canonical (tokDone_canonical h))
theorem beginFrame_canonical {abnd : Nat} {rerun : W32} {div : Nat} (h : Canonical s) : Canonical (beginFrame s abnd rerun div) := by
  unfold beginFrame
  split
  · exact h
  · exact State.updGrp_canonical h
theorem beginTile_canonical (h : Canonical s) : Canonical (beginTile s) := by
  unfold beginTile
  split
  · exact h
  · exact Canonical.ite h (State.updGrp_canonical h)
theorem preambleMoves_canonical (h : Canonical s) : Canonical (preambleMoves s n dark) :=
  Canonical.ite h (Canonical.ite (remapStr_canonical h) (eventRecord_canonical (remapStr_canonical h)))
theorem startTile_canonical {s0 : State} (hs0 : Canonical s0) : Canonical (startTile s0) := by
  unfold startTile
  split
  · exact hs0
  · next r _ =>
    extract_lets s res p stop
    have hs : Canonical s := hs0.keep
    have checked := tokCheck_kept (st := 2) (p := p) (q := r.push) hs
    have hstop {s} (h : Canonical s) : Canonical (stop s) := h.keep
    split
    · next e => exact raise_canonical (hstop (canonical_of_fault e checked))
    · next e => exact State.block_canonical (canonical_of_wait e checked)
    · next s1 e =>
      have h1 := canonical_of_ok e checked
      generalize (if res then some s1.grp.fmtcur else s1.grp.fmtq.head?) = word
      split
      · exact raise_canonical (hstop h1)
      · next w =>
        extract_lets e0
        clear_value e0
        have ready := tileChecks_kept (r := r) (w := w) h1
        split
        · next e => exact raise_canonical (hstop (canonical_of_fault e ready))
        · next e => exact State.block_canonical (canonical_of_wait e ready)
        · next e =>
          extract_lets c s3 s4
          have h2 := canonical_of_ok e ready
          have h3 : Canonical s3 := (tokIssue_canonical (hstop h2)).keep
          clear_value s3
          have h4 : Canonical s4 := h3.keep
          exact .ite (endTile_canonical h3) (.ite (raise_canonical (hstop h2)) h4)
theorem tileReq_kept (h : Canonical s) : Kept (tileReq s r) := by
  unfold tileReq
  split
  · exact trivial
  · split
    · exact illegal_canonical h
    · exact Kept.ite (State.block_canonical h) (startTile_canonical (State.updGrp_canonical h))
theorem execMtile_kept {n : BitVec 6} {c : BitVec 4} (h : Canonical s) : Kept (execMtile p q n m x b c s) := tileReq_kept h
theorem execMbcast_kept {n : BitVec 6} (h : Canonical s) : Kept (execMbcast p q n x b s) := tileReq_kept h
theorem execMtileT_kept {n : BitVec 6} {c : BitVec 4} (h : Canonical s) : Kept (execMtileT p q n m x b c s) := tileReq_kept h
theorem execMsync_kept (h : Canonical s) : Kept (execMsync p q s) := by
  unfold execMsync
  split
  · exact trivial
  · split
    · exact State.block_canonical h
    · split
      · exact State.advance_canonical (tokDone_canonical (State.updGrp_canonical h))
      · split
        · exact tDo_kept h (fun _ h1 => h1)
        · split
          · next e1 => exact State.block_canonical (State.updGrp_canonical (tokIssue_canonical (canonical_of_ok e1 (tokCheck_kept h))))
          · next e2 => exact raise_canonical (canonical_of_fault e2 (tokCheck_kept h))
          · next e1 => exact State.block_canonical (canonical_of_wait e1 (tokCheck_kept h))
theorem execTileCommandStart_kept (hc : Canonical s) : Kept (execTileCommandStart h s) :=
  Kept.ite (startTile_canonical (State.focus_canonical hc)) (State.focus_canonical hc)
theorem localStart_canonical {m : Memb} (h : Canonical s) : Canonical (localStart s m c dark) := by
  unfold localStart
  dsimp only
  split
  · exact tileFaults_canonical (preambleMoves_canonical h)
  · exact beginFrame_canonical (preambleMoves_canonical h)
theorem showPreamble_canonical {pre : List Nat} (h : Canonical s) : Canonical (showPreamble s n pre) :=
  tileFaults_canonical (foldl_canonical (fun _ _ h1 => addNote_canonical h1) h)
theorem tellPause_canonical (h : Canonical s) : Canonical (tellPause s n) := Canonical.ite (addNote_canonical h) h
theorem execFrameStart_kept {pre : List (BitVec 64)} (hc : Canonical s) : Kept (execFrameStart h dark pre s) := by
  unfold execFrameStart
  extract_lets f
  have hf : Canonical f := State.focus_canonical hc
  split
  · exact hf
  · extract_lets n t p s2 ms narrow bad s3
    have h2 : Canonical s2 := preambleMoves_canonical hf
    refine .ite ?_ (.ite hf (.ite (showPreamble_canonical hf) (.ite hf (.ite (Canonical.ite hf (tellPause_canonical hf)) (.ite
      (tileFaults_canonical h2)
      (.ite (tileFaults_canonical (tellPause_canonical h2)) ?_))))))
    · split
      · exact Canonical.ite hf (localStart_canonical hf)
      · exact hf
    · exact foldl_canonical (fun _ _ h => onGroup_canonical h fun _ h => beginFrame_canonical h) h2.keep
theorem execSessionTimeout_kept (hc : Canonical s) : Kept (execSessionTimeout h s) :=
  Kept.ite (tileFaults_canonical (State.focus_canonical hc)) (State.focus_canonical hc)
theorem acceptElement_canonical (h : Canonical s) : Canonical (acceptElement s act).2 := by
  unfold acceptElement
  split
  · exact h
  · extract_lets g rows s1 sats sat entry mode s2 s3
    have h1 : Canonical s1 := by
      refine foldl_canonical (fun _ _ h => ?_) h
      split
      · exact cellSet_canonical h
      · exact h
    have h2 : Canonical s2 := .ite (State.setScr_canonical h1).keep h1
    exact h2.keep
theorem noteRx_canonical {core : Nat} (h : Canonical s) : Canonical (noteRx s core) :=
  Canonical.ite (State.postE_canonical (State.updCore_canonical h)) (State.updCore_canonical h)
theorem failOver_canonical (h : Canonical s) : Canonical (failOver s n) :=
  Canonical.ite (State.updStr_canonical h) (State.postE_canonical (State.updStr_canonical h))
theorem windowFail_canonical {obs : Group → BitVec 2} (h : Canonical s) : Canonical (windowFail s n hs las obs) :=
  State.post_canonical (tileFaults_canonical (State.updGroups_canonical (eventRecord_canonical (Canonical.keep (Canonical.ite
    (tellSession_canonical (State.updStr_canonical h)) (Canonical.ite (failOver_canonical h) h))))))
theorem flagged_canonical {obs : Obs} (h : Canonical s) : Canonical (flagged s n hs c las obs) := by
  unfold flagged
  dsimp only
  split
  · exact windowFail_canonical h
  · split
    · exact failOver_canonical (foldl_canonical (fun _ _ h1 => noteRx_canonical h1) (State.updGroups_canonical h))
    · exact foldl_canonical (fun _ _ h1 => setTrims_canonical h1) (foldl_canonical (fun _ _ h1 => noteRx_canonical h1) (State.updGroups_canonical h))
theorem accepted_canonical {sender : Group} (h : Canonical s) : Canonical (accepted s n hs sender c act) := by
  unfold accepted
  extract_lets s0 r last s1 s2 s3 s4
  have h0 : Canonical s0 := .ite h (noteCorrected_canonical h)
  have hr : Canonical r.2 :=
    List.foldlRecOn (motive := fun x : List TileExc × State => Canonical x.2) _ _ h0 fun x hx i _ =>
      acceptElement_canonical (State.focus_canonical hx)
  have h1 : Canonical s1 := State.focus_canonical hr
  have h2 : Canonical s2 := h1.keep
  have h3 : Canonical s3 := .ite h2 h2.keep
  have h4 : Canonical s4 := foldl_canonical (fun _ _ h => onGroup_canonical h fun _ h => endTile_canonical h) h3
  exact .ite (tileFaults_canonical h1) (postAdmit_canonical (tileFaults_canonical h4))
theorem execTileElement_kept {laser : BitVec 1 × BitVec 68} {obs : List (BitVec 64 × BitVec 2 × List (BitVec 16))} {light : List (BitVec
    16)} (hc : Canonical s) : Kept (execTileElement h laser obs light s) := by
  unfold execTileElement
  extract_lets f n lone ms hs s1 found faults s2 ms2 late sender act s3
  have hf : Canonical f := State.focus_canonical hc
  split
  · exact hf
  · extract_lets las c1
    have h1 : Canonical s1 := foldl_canonical (fun _ _ h => onGroup_canonical h fun _ h => beginTile_canonical h) (.ite hf hf.keep)
    have h2 : Canonical s2 := h1.keep
    have h3 : Canonical s3 := foldl_canonical (fun _ _ h => setTrims_canonical h) h2
    exact .ite hf (.ite (tileFaults_canonical h1) (.ite (flagged_canonical h2) (.ite (tileFaults_canonical h2) (accepted_canonical h3))))

end Sys2Proof.Machine
end

section
/-! SUPPORT. Memory stays canonical in this part of the model, one lemma per function. Cache range operations (R149, R150), far-tier cache
maintenance (R151, R152), bank modes (R196), and the page and TLB instructions (R324 to R326). -/
namespace Sys2Proof.Machine

variable {s : State} {l : BitVec 1} {b x d : BitVec 5} {va n c line : Nat} {p : Piece} {t : Tr} {w : Want}

theorem piecesN_kept {k : Nat} {a : Nat} {b : Nat} {x : Want} (h : Canonical s) : (piecesN k s a b x).Kept := by
  induction k generalizing s a b x with
  | zero =>
    unfold piecesN
    exact h
  | succ n ih =>
    unfold piecesN
    split
    · exact h
    · exact Acc.bind_kept (translate_kept h) (fun _ _ h1 => Acc.bind_kept (ih h1) (fun _ _ h2 => h2))
theorem pieces_kept (h : Canonical s) : (pieces s va n w).Kept := piecesN_kept h
theorem rangeOp_kept {op : State → Piece → Acc Unit} (h : Canonical s) (hop : ∀ a, Canonical a → ∀ a₁, (op a a₁).Kept) : Kept (rangeOp s x b
    w op) := by
  unfold rangeOp
  dsimp only
  refine sDo_kept h (fun _ h1 => ?_)
  split
  · exact State.advance_canonical h1
  · split
    · exact h1
    · refine Acc.bind_kept (pieces_kept h1) (fun _ _ h2 => ?_)
      split
      · exact h2
      · split
        · next e => exact State.advance_canonical (canonical_of_ok e (foldl_kept (fun _ _ h3 => Acc.bind_kept h3 (fun _ _ h4 => hop _ h4 _)) h2))
        · next e1 => exact canonical_of_fault e1 (foldl_kept (fun _ _ h3 => Acc.bind_kept h3 (fun _ _ h4 => hop _ h4 _)) h2)
        · exact h2
theorem orWait_kept {r : Option State} (h : Canonical s) (hr : OptKept r) : (orWait s r).Kept := by
  unfold orWait
  split
  · exact hr
  · exact h
theorem pieceWb1_kept (h : Canonical s) : OptKept (pieceWb1 s p) := allOf_kept h (fun _ h1 _ => l1Wb_kept h1)
theorem pieceInv1_canonical (h : Canonical s) : Canonical (pieceInv1 s p) := foldl_canonical (fun _ _ h1 => State.updCore_canonical h1) h
theorem pieceWbi1_kept (h : Canonical s) : OptKept (pieceWbi1 s p) := allOf_kept h (fun _ h1 _ => l1Flush_kept h1)
theorem pieceWb2_kept (h : Canonical s) : OptKept (pieceWb2 s p) := homeClean_kept h
theorem pieceInv2_canonical (h : Canonical s) : Canonical (pieceInv2 s p) := foldl_canonical (fun _ _ h1 => State.updDie_canonical h1) h
theorem execClineWb_kept (h : Canonical s) : Kept (execClineWb x b l s) :=
  rangeOp_kept h (fun _ h1 _ => orWait_kept h1 (OptKept.bind (pieceWb1_kept h1) (fun _ h2 => OptKept.ite h2 (pieceWb2_kept h2))))
theorem execClineInv_kept (h : Canonical s) : Kept (execClineInv x b l s) :=
  rangeOp_kept h (fun _ h1 _ => Canonical.ite (pieceInv1_canonical h1) (pieceInv2_canonical (pieceInv1_canonical h1)))
theorem execClineWbi_kept (h : Canonical s) : Kept (execClineWbi x b l s) :=
  rangeOp_kept h (fun _ h1 _ => orWait_kept h1 (OptKept.bind (pieceWbi1_kept h1) (fun _ h2 => OptKept.ite h2 (OptKept.map (pieceWb2_kept h2)
    (fun _ h3 => pieceInv2_canonical h3)))))
theorem zeroLine_kept (h : Canonical s) : OptKept (zeroLine s c t line) := OptKept.ite trivial (journalAdd_kept (l2Put_canonical h))
theorem zeroPart_kept {off : Nat} (h : Canonical s) : OptKept (zeroPart s c t line off n) :=
  OptKept.ite trivial (journalAdd_kept (l2Merge_canonical h))
theorem zeroPiece_kept (h : Canonical s) : OptKept (zeroPiece s c p) := allOf_kept h (fun _ h1 _ => OptKept.ite (zeroLine_kept h1) (zeroPart_kept h1))
theorem execClineZero_kept (h : Canonical s) : Kept (execClineZero x b s) :=
  rangeOp_kept h (fun _ h1 _ => orWait_kept h1 (OptKept.bind (pieceWbi1_kept h1) (fun _ h2 => zeroPiece_kept h2)))
theorem ftcPiece_canonical {op : State → Nat → Nat → Nat → State} (h : Canonical s) (hop : ∀ a, Canonical a → ∀ a₁ a₂ a₃, Canonical (op a a₁
    a₂ a₃)) : Canonical (ftcPiece s p op) := by
  unfold ftcPiece
  dsimp only
  split
  · exact h
  · refine foldl_canonical (fun _ _ h1 => ?_) h
    split
    · exact atEntry_canonical h1
    · split
      · exact hop _ (touchSlot_canonical (atEntry_canonical h1)) _ _ _
      · exact touchSlot_canonical (atEntry_canonical h1)
theorem execFtcWb_kept (h : Canonical s) : Kept (execFtcWb x b s) :=
  rangeOp_kept h (fun _ h1 _ => ftcPiece_canonical h1 (fun _ h2 _ _ _ => ftcWriteOut_canonical h2))
theorem execFtcInv_kept (h : Canonical s) : Kept (execFtcInv x b s) :=
  rangeOp_kept h (fun _ h1 _ => ftcPiece_canonical h1 (fun _ h2 _ _ _ => ftcDrop_canonical h2))
theorem execFtcWbi_kept (h : Canonical s) : Kept (execFtcWbi x b s) :=
  rangeOp_kept h (fun _ h1 _ => ftcPiece_canonical h1 (fun _ h2 _ _ _ => ftcWbi_canonical h2))
theorem ftcLook_canonical (h : Canonical s) : Canonical (ftcLook s t) := Canonical.ite h (touchSlot_canonical (atEntry_canonical h))
theorem execFtcProbe_kept (h : Canonical s) : Kept (execFtcProbe d x s) :=
  sDo_kept h (fun _ h1 => Acc.bind_kept (translate_kept h1) (fun _ _ h2 => done_kept (ftcLook_canonical h2)))
theorem execBmodeReset_kept (h : Canonical s) : Kept (execBmodeReset x s) :=
  sDo_kept h (fun _ h1 => Acc.Kept.ite h1 (Acc.Kept.ite h1 (State.advance_canonical (State.updFifo_canonical h1))))
theorem bmodeRange_kept {k : Group → Nat → Group} (h : Canonical s) : Kept (bmodeRange s x b k) := by
  unfold bmodeRange
  dsimp only
  refine sDo_kept h (fun _ h1 => ?_)
  split
  · exact State.advance_canonical h1
  · split
    · exact h1
    · split
      · exact h1
      · exact Acc.bind_kept (scrCheck_kept h1) (fun _ _ h2 => State.advance_canonical (State.updGrp_canonical h2))
theorem execBmodeEmpty_kept (h : Canonical s) : Kept (execBmodeEmpty x b s) := bmodeRange_kept h
theorem execBmodeFull_kept (h : Canonical s) : Kept (execBmodeFull x b s) := bmodeRange_kept h
theorem execBmodeQuery_kept (h : Canonical s) : Kept (execBmodeQuery d x s) := sAlu_kept h
theorem tlbAppend_kept {kind : Nat} (h : Canonical s) : Kept (tlbAppend s d kind va) :=
  redGate_kept h (fun _ h1 => sDo_kept h1 (fun _ h2 => Acc.bind_kept (Acc.guard_kept h2) (fun _ _ h3 => Acc.bind_kept (relG_kept h3)
    (fun _ _ h4 => done_kept (ilAppend_canonical h4)))))
theorem execTlbInv_kept (h : Canonical s) : Kept (execTlbInv d x s) := tlbAppend_kept h
theorem execTlbInvall_kept (h : Canonical s) : Kept (execTlbInvall d s) := tlbAppend_kept h
theorem execTlbSync_kept (h : Canonical s) : Kept (execTlbSync s) := sDo_kept h (fun _ h1 => State.advance_canonical (ilApplyAll_canonical h1))
theorem pgProbe_canonical (h : Canonical s) : Canonical (pgProbe s va).2 := by
  unfold pgProbe
  split
  · exact h
  · dsimp only
    split
    · split <;> exact findLeaf_canonical h
    · exact findLeaf_canonical h
theorem execPgProbe_kept (h : Canonical s) : Kept (execPgProbe d x s) := by
  unfold execPgProbe
  split
  · exact trivial
  · split
    · exact State.block_canonical (findLeaf_canonical h)
    · exact State.advance_canonical (State.setX_canonical (pgProbe_canonical h))
theorem migSubmit_canonical {ctx : Nat} {b : Nat} (h : Canonical s) : Canonical (migSubmit s c ctx b).2 := by
  unfold migSubmit
  extract_lets va dst ctr stat r
  have hr : Canonical r.2 := findLeaf_canonical h
  clear_value r
  split
  · exact h
  · split
    · dsimp only
      split
      · exact hr
      · split
        · exact hr
        · split
          · exact hr
          · simp only [apply_ite Prod.snd]
            exact .ite hr.keep (.ite hr.keep hr)
    · exact hr
    · exact hr
theorem devLoad_kept (h : Canonical s) : (devLoad s va n).Kept :=
  Acc.bind_kept (translate_kept h) (fun _ _ h1 => Acc.Kept.ite (remoteRead_kept h1) (Acc.Kept.ite (homeRead_canonical h1) (homeRead_canonical h1)))
theorem execPgMig_kept (h : Canonical s) : Kept (execPgMig d x s) :=
  sDo_kept h (fun _ h1 => Acc.bind_kept (alignedTo_kept h1) (fun _ _ h2 => Acc.bind_kept (devLoad_kept h2) (fun _ _ h3 => Acc.Kept.ite
    (migSubmit_canonical h3) (done_kept (migSubmit_canonical h3)))))

end Sys2Proof.Machine
end

section
/-! SUPPORT. Memory stays canonical in this part of the model, one lemma per function. Tokens and the format queue from the scalar stream
(R106, R107), the end of a scalar stream and `exit` (R109, R110), launches and signals (R124, R125), traps and the return from them (R67,
R68), `hint.save` (R69), and the system registers (R70). -/
namespace Sys2Proof.Machine

variable {s : State} {v m c : BitVec 1} {res i : BitVec 16} {x d b : BitVec 5} {n : BitVec 6} {r : BitVec 9}

theorem execToksend_kept (h : Canonical s) : Kept (execToksend v m c n s) := by
  unfold execToksend
  dsimp only
  split
  · exact trivial
  · split
    · exact illegal_canonical h
    · exact redGate_kept h (fun _ h1 => sDo_kept h1 (fun _ h2 => Acc.Kept.ite (State.advance_canonical (State.updGrp_canonical h2)) h2))
theorem execTokwait_kept (h : Canonical s) : Kept (execTokwait v m c n s) := by
  refine sDoIf_kept h (fun _ h1 => ?_)
  split
  · exact h1
  · exact Acc.Kept.ite (State.advance_canonical (State.updGrp_canonical h1)) h1
theorem execFmtq_kept (h : Canonical s) : Kept (execFmtq x s) := by
  refine sDoIf_kept h (fun _ h1 => ?_)
  split
  · exact State.advance_canonical (State.updGrp_canonical h1)
  · exact Acc.Kept.ite h1 (State.advance_canonical (State.updGrp_canonical h1))
theorem startDrain_canonical {st : Nat} {q : BitVec 3} (h : Canonical s) : Canonical (startDrain s st res q) := State.updStream_canonical h
theorem sEnd_kept (h : Canonical s) : Kept (sEnd s res) := by
  unfold sEnd
  split
  · exact trivial
  · exact Kept.ite (illegal_canonical h) (redGate_kept h (fun _ h1 => startDrain_canonical h1))
theorem execEndS_kept (h : Canonical s) : Kept (execEndS s) := sEnd_kept h
theorem execRend_kept (h : Canonical s) : Kept (execRend i s) := sEnd_kept h
theorem execExit_kept (h : Canonical s) : Kept (execExit i s) := redGate_kept h (fun _ h1 => stopBoth_canonical (State.updStream_canonical h1))
theorem execLaunch_kept (h : Canonical s) : Kept (execLaunch d x b s) := by
  unfold execLaunch
  dsimp only
  refine redGate_kept h (fun _ h1 => sDo_kept h1 (fun _ h2 => Acc.bind_kept (alignedTo_kept h2) (fun _ _ h3 => Acc.bind_kept (relG_kept h3)
    (fun _ _ h4 => Acc.bind_kept (devLoad_kept h4) (fun _ _ h5 => ?_)))))
  split
  · exact done_kept h5
  · split
    · exact done_kept h5
    · split
      · exact done_kept h5
      · refine Acc.bind_kept (devTr_kept h5) (fun _ _ h6 => ?_)
        split
        · exact h6
        · exact Acc.bind_kept (devWrite_kept h6) (fun _ _ h7 => done_kept (State.updQueue_canonical h7))
theorem sigAddr_kept {va : Nat} {w : Want} (h : Canonical s) : (sigAddr s va w).Kept :=
  Acc.bind_kept (alignedTo_kept h) (fun _ _ h1 => Acc.bind_kept (translate_kept h1) (fun _ _ h2 => Acc.Kept.ite h2 h2))
theorem sigUpdate_kept {f : Nat → Nat} (h : Canonical s) : Kept (sigUpdate s d x f) := by
  unfold sigUpdate
  dsimp only
  refine redGate_kept h (fun _ h1 => sDo_kept h1 (fun _ h2 => Acc.bind_kept (sigAddr_kept h2) (fun _ _ h3 => ?_)))
  split
  · exact homeRead_canonical h3
  · refine Acc.bind_kept (relG_kept (homeRead_canonical h3)) (fun _ _ h4 => ?_)
    split
    · next e => exact done_kept (canonical_of_some₂ e (homeAtomic_kept h4))
    · exact atomicMissed_canonical h4
theorem execSigAdd_kept (h : Canonical s) : Kept (execSigAdd d x b s) := sigUpdate_kept h
theorem execSigSet_kept (h : Canonical s) : Kept (execSigSet d x b s) := sigUpdate_kept h
theorem execSigWait_kept (h : Canonical s) : Kept (execSigWait d x b s) := by
  unfold execSigWait
  dsimp only
  refine sDo_kept h (fun _ h1 => ?_)
  split
  · exact Acc.bind_kept (acqG_kept h1) (fun _ _ h2 => done_kept (State.updGrp_canonical h2))
  · refine Acc.bind_kept (sigAddr_kept h1) (fun _ _ h2 => ?_)
    split
    · exact homeRead_canonical h2
    · split
      · exact Acc.bind_kept (acqG_kept (homeRead_canonical h2)) (fun _ _ h3 => done_kept (State.updGrp_canonical h3))
      · exact State.updGrp_canonical (homeRead_canonical h2)
theorem interruptGroup_canonical {h : W64} {ctx : Nat} {v : W32} (hc : Canonical s) : Canonical (interruptGroup s h ctx v).2 := by
  unfold interruptGroup
  split
  · split
    · exact State.updGroup_canonical hc
    · exact hc
  · exact hc
theorem execSigInt_kept (h : Canonical s) : Kept (execSigInt d x b s) := by
  unfold execSigInt
  dsimp only
  refine sDo_kept h (fun _ h1 => ?_)
  split
  · exact done_kept (interruptGroup_canonical h1)
  · exact Acc.bind_kept (remoteAsk_kept h1) (fun _ _ h2 => done_kept h2)
theorem livenessWords_kept {k : Nat} {a : Nat} (h : Canonical s) : (livenessWords k s a).Kept := by
  induction k generalizing s a with
  | zero =>
    unfold livenessWords
    exact h
  | succ n ih =>
    unfold livenessWords
    split
    · next e =>
      split
      · next e1 => exact canonical_of_ok e1 (ih (canonical_of_ok e (Acc.bind_kept (alignedTo_kept h) (fun _ _ h1 => vaRead_kept h1))))
      · next e1 => exact canonical_of_ok e1 (ih (canonical_of_ok e (Acc.bind_kept (alignedTo_kept h) (fun _ _ h1 => vaRead_kept h1))))
      · next e2 => exact canonical_of_fault e2 (ih (canonical_of_ok e (Acc.bind_kept (alignedTo_kept h) (fun _ _ h1 => vaRead_kept h1))))
      · next e1 => exact canonical_of_wait e1 (ih (canonical_of_ok e (Acc.bind_kept (alignedTo_kept h) (fun _ _ h1 => vaRead_kept h1))))
    · next e1 => exact canonical_of_fault e1 (Acc.bind_kept (alignedTo_kept h) (fun _ _ h1 => vaRead_kept h1))
    · next e => exact canonical_of_wait e (Acc.bind_kept (alignedTo_kept h) (fun _ _ h1 => vaRead_kept h1))
theorem execHintSave_kept {i : BitVec 20} (h : Canonical s) : Kept (execHintSave b i s) := by
  unfold execHintSave
  dsimp only
  refine sDo_kept h (fun _ h1 => ?_)
  split
  · exact State.advance_canonical h1
  · refine Acc.bind_kept (livenessWords_kept h1) (fun _ _ h2 => ?_)
    split
    · exact Canonical.keep (State.advance_canonical (State.updGrp_canonical h2))
    · split
      · exact Canonical.keep (State.advance_canonical (State.updGrp_canonical h2))
      · refine Acc.bind_kept (livenessWords_kept h2) (fun _ _ h3 => ?_)
        split <;> exact Canonical.keep (State.advance_canonical (State.updGrp_canonical h3))
theorem execTrap_kept (h : Canonical s) : Kept (execTrap i s) :=
  Kept.ite trivial (Kept.ite (stopBoth_canonical h) (takeTrap_canonical (State.advance_canonical h)))
theorem execRett_kept (h : Canonical s) : Kept (execRett s) := by
  unfold execRett
  split
  · exact trivial
  · split
    · exact illegal_canonical h
    · split
      · next e =>
        split
        · exact State.block_canonical (canonical_of_ok e (frameRead_kept h))
        · exact leaveTrap_canonical (clearRemote_canonical (canonical_of_ok e (frameRead_kept h)))
      · next e1 => exact raise_canonical (canonical_of_fault e1 (frameRead_kept h))
      · next e => exact State.block_canonical (canonical_of_wait e (frameRead_kept h))
theorem execSysr_kept (h : Canonical s) : Kept (execSysr d r s) := sDoIf_kept h (fun _ h1 => done_kept h1)
theorem execSysw_kept (h : Canonical s) : Kept (execSysw x r s) := sDoIf_kept h (fun _ h1 => State.advance_canonical (State.updGrp_canonical h1))

end Sys2Proof.Machine
end

section
/-! SUPPORT. Memory stays canonical in this part of the model, one lemma per function. The copy stream (chapter 13): address registers and
tensor handles (R252 to R254), copy commands with their checks and elements (R245 to R251, R255 to R262), barrier accounting (R263), signals
(R264), prefetch (R265), and the posting of collectives (R266, R349 to R351). -/
namespace Sys2Proof.Machine

variable {s : State} {i : BitVec 16} {p q : BitVec 3} {x y z : BitVec 4} {f b : BitVec 8} {tr : Bool} {c : CopyCmd} {va n v keep : Nat} {t :
    Tr} {w : Want}

theorem copyReadLine_kept (h : Canonical s) : (copyReadLine s t va n).Kept := by
  unfold copyReadLine
  extract_lets c line off take
  have htake {s cl} (h : Canonical s) : (take s cl).Kept := Acc.Kept.ite h h
  have flushed : OptKept (match l1Find s c line with
      | some cl => if cl.dirty != 0 then l1Wb s c cl else some s
      | none => some s) := by
    split
    · exact .ite (l1Wb_kept h) h
    · exact h
  refine .ite (remoteRead_kept h) (.ite h ?_)
  split
  · exact htake h
  · split
    · exact h
    · next e =>
      extract_lets s2
      have h1 := canonical_of_some e flushed
      have h2 : Canonical s2 := l2Ensure_canonical h1
      refine .ite h1 ?_
      split
      · exact htake h2
      · exact h2
theorem stackRead_kept (h : Canonical s) : (stackRead s t va n).Kept := Acc.Kept.ite (homeRead_canonical h) (homeRead_canonical h)
theorem copyRead_kept {stencil : Bool} (h : Canonical s) : (copyRead s va n stencil).Kept :=
  foldl_kept (fun _ _ h1 => Acc.bind_kept h1 (fun _ _ h2 => Acc.bind_kept (translate_kept h2) (fun _ _ h3 => Acc.bind_kept (Acc.Kept.ite
    (stackRead_kept h3) (copyReadLine_kept h3)) (fun _ _ h4 => Acc.ok_kept h4)))) (Acc.ok_kept h)
theorem copyWriteCheck_kept (h : Canonical s) : (copyWriteCheck s va n).Kept := by
  unfold copyWriteCheck
  dsimp only
  refine Acc.bind_kept (translate_kept h) (fun _ _ h1 => ?_)
  split
  · exact Acc.Kept.ite h1 (Acc.Kept.ite h1 h1)
  · split
    · exact h1
    · refine Acc.bind_kept (orWait_kept h1 (l1Flush_kept h1)) (fun _ _ h2 => ?_)
      split
      · exact Acc.Kept.ite (l2Ensure_canonical h2) (l2Ensure_canonical h2)
      · exact l2Ensure_canonical h2
theorem remoteMerge_kept {pa : Nat} (h : Canonical s) : (remoteMerge s pa va v keep).Kept :=
  Acc.bind_kept (remoteRead_kept h) (fun _ _ h1 => Acc.bind_kept (remoteAsk_kept h1) (fun _ _ h2 => Acc.Kept.ite h2 (State.updGrp_canonical h2)))
theorem copyPutRemote_kept (h : Canonical s) : (copyPutRemote s t va n v keep).Kept := by
  unfold copyPutRemote
  split
  · exact Acc.bind_kept (remoteAsk_kept h) (fun _ _ h1 => h1)
  · exact foldl_kept (fun _ _ h1 => Acc.bind_kept h1 (fun _ _ h2 => remoteMerge_kept h2)) h
theorem copyPutLocal_kept (h : Canonical s) : OptKept (copyPutLocal s t n v keep) := OptKept.ite trivial (journalAdd_kept (l2Merge_canonical h))
theorem copyProbe_kept {ts : List ((Nat × Nat × Nat) × Tr)} (h : Canonical s) : (copyProbe s ts keep).Kept := by
  unfold copyProbe
  split
  · exact Acc.ok_kept h
  · exact foldl_kept (fun _ _ h1 => Acc.bind_kept h1 (fun _ _ h2 => Acc.bind_kept (remoteRead_kept h2) (fun _ _ h3 => Acc.ok_kept h3)))
      (Acc.ok_kept h)
theorem copyPuts_kept {ps : List CopyPart} (h : Canonical s) : (copyPuts s ps).Kept :=
  Acc.bind_kept (foldl_kept (fun _ _ h1 => Acc.bind_kept h1 (fun _ _ h2 => copyPutRemote_kept h2)) h) (fun _ _ h1 => orWait_kept h1
    (allOf_kept h1 (fun _ h2 _ => copyPutLocal_kept h2)))
theorem copyWrite_kept (h : Canonical s) : (copyWrite s va n v keep).Kept := by
  unfold copyWrite
  split
  · exact copyPuts_kept h
  · exact Acc.bind_kept (foldl_kept (fun _ _ h1 => Acc.bind_kept h1 (fun _ _ h2 => Acc.bind_kept (copyWriteCheck_kept h2)
      (fun _ _ h3 => Acc.ok_kept h3))) (Acc.ok_kept h)) (fun _ _ h1 => Acc.bind_kept (copyProbe_kept h1) (fun _ _ h2 => copyPuts_kept
      (Canonical.ite h2 (State.updGrp_canonical h2))))
theorem copyHome_kept (h : Canonical s) : (copyHome s va n).Kept :=
  Acc.bind_kept (translate_kept h) (fun _ _ h1 => Acc.Kept.ite (remoteRead_kept h1) (stackRead_kept h1))
theorem cDo_kept {body : State → Acc Unit} (h : Canonical s) (hbody : ∀ a, Canonical a → (body a).Kept) : Kept (cDo s p q body) :=
  Kept.ite trivial (Kept.ite (State.block_canonical h) (tDo_kept h (fun _ h1 => hbody _ h1)))
theorem endCopy_canonical {push : BitVec 3} (h : Canonical s) : Canonical (endCopy s push) :=
  State.advance_canonical (State.updGrp_canonical (tokDone_canonical h))
theorem cMulti_kept {kind : CKind} {legal : Bool} {mk : State → CopyCmd → Acc CopyCmd} (h : Canonical s) (hmk : ∀ a, Canonical a → ∀ a₁, (mk
    a a₁).Kept) : Kept (cMulti s p q kind legal x y z f mk) := by
  unfold cMulti
  extract_lets g res e0 p1 c0
  have made := Acc.bind_kept (tokCheck_kept (st := 3) (p := p1) (q := q) h) (fun _ s h => hmk s h c0)
  refine .ite trivial (.ite (illegal_canonical h) (.ite (State.block_canonical h) ?_))
  split
  · next e => exact raise_canonical (canonical_of_fault e made)
  · next e => exact State.block_canonical (canonical_of_wait e made)
  · next e =>
    extract_lets s2
    have h2 : Canonical s2 := (tokIssue_canonical (clearRemote_canonical (canonical_of_ok e made))).keep
    clear_value s2
    exact .ite (endCopy_canonical h2) h2.keep
theorem copyPre_kept {bad : Bool} (h : Canonical s) : (copyPre s c bad).Kept := Acc.Kept.ite h (Acc.Kept.ite h h)
theorem copyAlign_kept {xs : List Nat} (h : Canonical s) : (copyAlign s xs).Kept := by
  unfold copyAlign
  split <;> exact h
theorem copyLocal_kept {rs : Regions} {fs : List Nat} (h : Canonical s) : (copyLocal s rs fs).Kept := by
  unfold copyLocal
  dsimp only
  split
  · exact h
  · split
    · exact h
    · exact Acc.Kept.ite h h
theorem CopyCmd.counted_kept {k : Acc Unit} (hk : k.Kept) : (c.counted n k).Kept := Acc.bind_kept hk (fun _ _ h => h)
theorem mkCpy_kept (h : Canonical s) : (mkCpy s c).Kept := by
  unfold mkCpy
  split
  · exact h
  · exact CopyCmd.counted_kept (Acc.bind_kept (copyPre_kept h) (fun _ _ h1 => Acc.bind_kept (copyAlign_kept h1) (fun _ _ h2 => copyLocal_kept h2)))
theorem mkCpyS_kept (h : Canonical s) : (mkCpyS s c).Kept := by
  unfold mkCpyS
  dsimp only
  split
  · exact h
  · exact CopyCmd.counted_kept (Acc.bind_kept (copyPre_kept h) (fun _ _ h1 => Acc.bind_kept (copyAlign_kept h1) (fun _ _ h2 => copyLocal_kept h2)))
theorem mkFill_kept (h : Canonical s) : (mkFill s c).Kept := by
  unfold mkFill
  split
  · exact h
  · exact CopyCmd.counted_kept (Acc.bind_kept (copyPre_kept h) (fun _ _ h1 => Acc.bind_kept (copyAlign_kept h1) (fun _ _ h2 => copyLocal_kept h2)))
theorem mkTile_kept (h : Canonical s) : (mkTile s c).Kept := by
  unfold mkTile
  split
  · exact h
  · exact CopyCmd.counted_kept (Acc.bind_kept (copyPre_kept h) (fun _ _ h1 => Acc.bind_kept (copyAlign_kept h1) (fun _ _ h2 => copyLocal_kept h2)))
theorem mkGather_kept (h : Canonical s) : (mkGather s c).Kept := by
  unfold mkGather
  dsimp only
  split
  · exact h
  · exact CopyCmd.counted_kept (Acc.bind_kept (copyPre_kept h) (fun _ _ h1 => Acc.bind_kept (copyAlign_kept h1) (fun _ _ h2 => copyLocal_kept h2)))
theorem mkWalk_kept (h : Canonical s) : (mkWalk s c).Kept := by
  unfold mkWalk
  dsimp only
  split
  · exact h
  · exact Acc.bind_kept (Acc.guard_kept h) (fun _ _ h1 => Acc.bind_kept (copyRead_kept h1) (fun _ _ h2 => CopyCmd.counted_kept (Acc.bind_kept
      (copyPre_kept h2) (fun _ _ h3 => Acc.bind_kept (copyAlign_kept h3) (fun _ _ h4 => copyLocal_kept h4)))))
theorem mkColl_kept (h : Canonical s) : (mkColl s c).Kept := Acc.Kept.ite h (CopyCmd.counted_kept (Acc.guard_kept h))
theorem copyBar_kept (h : Canonical s) : (copyBar s c).Kept := Acc.Kept.ite (Acc.bind_kept (barEnt_kept h) (fun _ _ h1 => h1)) h
theorem copyDown_canonical {obj : Nat} {out : Bool} (h : Canonical s) : Canonical (copyDown s c obj out n) :=
  Canonical.ite (foldl_canonical (fun _ _ h1 => barDown_canonical h1) h) h
theorem copyScr_canonical {off : Nat} (h : Canonical s) : Canonical (copyScr s c off n v) :=
  Canonical.ite (State.updGrp_canonical (State.setScr_canonical h)) (State.setScr_canonical h)
theorem moveRead_kept {k : Nat} (h : Canonical s) : (moveRead s c k).Kept :=
  Acc.Kept.ite (Acc.Kept.ite h (Acc.Kept.ite h h)) (Acc.Kept.ite (scrGet_kept h) (copyRead_kept h))
theorem movePop_canonical (h : Canonical s) : Canonical (movePop s c) := Canonical.ite (State.updFifo_canonical h) h
theorem moveEl_kept {dst : Nat} {src : Nat} (h : Canonical s) : (moveEl s c dst src).Kept := by
  refine Acc.bind_kept (copyBar_kept h) (fun _ _ h1 => Acc.bind_kept (moveRead_kept h1) (fun _ _ h2 => ?_))
  split
  · exact Acc.Kept.ite h2 (copyDown_canonical (State.updFifo_canonical (movePop_canonical h2)))
  · split
    · exact copyDown_canonical (copyScr_canonical (movePop_canonical h2))
    · split
      · next e => exact copyDown_canonical (movePop_canonical (canonical_of_ok e (copyWrite_kept h2)))
      · next e =>
        split
        · exact movePop_canonical (canonical_of_wait e (copyWrite_kept h2))
        · exact canonical_of_wait e (copyWrite_kept h2)
      · next e1 => exact canonical_of_fault e1 (copyWrite_kept h2)
theorem fillEl_kept (h : Canonical s) : (fillEl s c).Kept := by
  refine Acc.bind_kept (copyBar_kept h) (fun _ _ h1 => ?_)
  split
  · exact copyDown_canonical (copyScr_canonical h1)
  · refine Acc.bind_kept ?_ (fun _ _ h2 => copyDown_canonical h2)
    split
    · refine Acc.bind_kept (translate_kept h1) (fun _ _ h2 => ?_)
      split
      · exact copyWrite_kept h2
      · split
        · exact h2
        · exact orWait_kept h2 (OptKept.bind (l1Flush_kept h2) (fun _ h3 => OptKept.ite (zeroLine_kept h3) (zeroPart_kept h3)))
    · exact copyWrite_kept h1
theorem ctldEl_kept (h : Canonical s) : (ctldEl s c).Kept :=
  Acc.bind_kept (copyBar_kept h) (fun _ _ h1 => Acc.bind_kept (Acc.Kept.ite (Acc.bind_kept (copyRead_kept h1) (fun _ _ h2 => h2)) h1)
    (fun _ _ h2 => copyDown_canonical (copyScr_canonical h2)))
theorem ctstEl_kept (h : Canonical s) : (ctstEl s c).Kept :=
  Acc.bind_kept (copyBar_kept h) (fun _ _ h1 => Acc.bind_kept (Acc.Kept.ite (Acc.bind_kept (scrGet_kept h1)
    (fun _ _ h2 => copyWrite_kept h2)) h1) (fun _ _ h2 => copyDown_canonical h2))
theorem gatherEl_kept (h : Canonical s) : (gatherEl s c).Kept := by
  refine Acc.bind_kept (copyBar_kept h) (fun _ _ h1 => Acc.bind_kept (scrGet_kept h1) (fun _ _ h2 => ?_))
  split
  · exact Acc.bind_kept (copyRead_kept h2) (fun _ _ h3 => copyDown_canonical (copyScr_canonical h3))
  · exact Acc.bind_kept (scrGet_kept h2) (fun _ _ h3 => Acc.bind_kept (copyWrite_kept h3) (fun _ _ h4 => copyDown_canonical h4))
theorem walkRead_kept (h : Canonical s) : (walkRead s va n tr).Kept := by
  refine Acc.bind_kept (translate_kept h) (fun _ _ h1 => ?_)
  split
  · exact Acc.bind_kept (copyReadLine_kept h1) (fun _ _ h2 => h2)
  · exact Acc.Kept.ite (Acc.bind_kept (stackRead_kept h1) (fun _ _ h2 => h2)) h1
theorem walkNext_kept {w : Nat} {st : Nat} (h : Canonical s) : (walkNext s c w st v tr).Kept := by
  unfold walkNext
  split
  · exact h
  · refine Acc.bind_kept (walkRead_kept h) (fun _ _ h1 => Acc.bind_kept (walkRead_kept h1) (fun _ _ h2 => ?_))
    split
    · exact Acc.Kept.ite h2 (walkRead_kept h2)
    · exact h2
theorem walkEl_kept (h : Canonical s) : (walkEl s c).Kept := by
  refine Acc.bind_kept (copyBar_kept h) (fun _ _ h1 => Acc.bind_kept (scrGet_kept h1) (fun _ _ h2 => Acc.bind_kept (walkNext_kept h2)
    (fun _ _ h3 => Acc.bind_kept ?_ (fun _ _ h4 => Canonical.ite (copyDown_canonical (copyScr_canonical h4)) (copyScr_canonical h4)))))
  split
  · exact h3
  · exact walkNext_kept h3
theorem cgEntry_kept {cg : Nat} (h : Canonical s) : (cgEntry s cg).Kept := Acc.bind_kept (physAsk_kept h) (fun _ _ h1 => h1)
theorem collBuffer_kept (h : Canonical s) : (collBuffer s va n w).Kept := Acc.bind_kept (pieces_kept h) (fun _ _ h1 => h1)
theorem collWord_kept (h : Canonical s) : (collWord s va n w).Kept :=
  Acc.Kept.ite h (Acc.bind_kept (alignedTo_kept h) (fun _ _ h1 => collBuffer_kept h1))
theorem collPost_canonical {mods : List Nat} {ws : List W64} (h : Canonical s) : Canonical (collPost s mods ws) :=
  foldl_canonical (fun _ _ h1 => sendReply_canonical h1) h
theorem collEl_kept (h : Canonical s) : (collEl s c).Kept :=
  Acc.bind_kept (copyHome_kept h) (fun _ _ h1 => Acc.bind_kept (cgEntry_kept h1) (fun _ _ h2 => Acc.bind_kept (Acc.guard_kept h2)
    (fun _ _ h3 => Acc.bind_kept (Acc.Kept.ite (collBuffer_kept h3) h3) (fun _ _ h4 => Acc.bind_kept (Acc.Kept.ite (collBuffer_kept h4) h4)
    (fun _ _ h5 => Acc.bind_kept (collWord_kept h5) (fun _ _ h6 => Acc.bind_kept (collWord_kept h6) (fun _ _ h7 => Acc.bind_kept
    (collWord_kept h7) (fun _ _ h8 => Acc.Kept.ite h8 (Canonical.keep (collPost_canonical h8))))))))))
theorem commitEl_kept (h : Canonical s) : (commitEl s c).Kept := by
  refine Acc.bind_kept (copyWrite_kept h) (fun _ _ h1 => ?_)
  split
  · next e => exact copyDown_canonical (canonical_of_ok e (copyBar_kept h1))
  · exact h1
theorem copyEl_kept (h : Canonical s) : (copyEl s c).Kept := by
  unfold copyEl
  split
  · exact commitEl_kept h
  · split
    · exact moveEl_kept h
    · exact moveEl_kept h
    · exact ctldEl_kept h
    · exact ctstEl_kept h
    · exact gatherEl_kept h
    · exact gatherEl_kept h
    · exact walkEl_kept h
    · exact fillEl_kept h
    · exact fillEl_kept h
    · exact collEl_kept h
theorem copyFault_canonical {s0 : State} {e : Exc} (hs0 : Canonical s0) : Canonical (copyFault s0 c e) := by
  refine raise_canonical (Canonical.keep ?_)
  split
  · refine State.updGrp_canonical (tokRelease_canonical ?_)
    split
    · exact Canonical.ite (State.updFifo_canonical hs0) hs0
    · exact hs0
  · refine cutCopy_canonical ?_
    split
    · exact Canonical.ite (State.updFifo_canonical hs0) hs0
    · exact hs0
theorem execCopyElement_kept {h : BitVec 64} (hc : Canonical s) : Kept (execCopyElement h s) := by
  unfold execCopyElement
  dsimp only
  split
  · exact State.focus_canonical hc
  · split
    · exact State.focus_canonical hc
    · split
      · next e2 => exact copyFault_canonical (canonical_of_fault e2 (copyEl_kept (State.focus_canonical hc)))
      · next e1 => exact canonical_of_wait e1 (copyEl_kept (State.focus_canonical hc))
      · next e1 =>
        split
        · exact endCopy_canonical (clearRemote_canonical (canonical_of_ok e1 (copyEl_kept (State.focus_canonical hc))))
        · exact State.updGrp_canonical (clearRemote_canonical (canonical_of_ok e1 (copyEl_kept (State.focus_canonical hc))))
theorem execCpy_kept (h : Canonical s) : Kept (execCpy p q x y z f s) := cMulti_kept h (fun _ h1 _ => mkCpy_kept h1)
theorem execCpyS_kept (h : Canonical s) : Kept (execCpyS p q x y z f s) := cMulti_kept h (fun _ h1 _ => mkCpyS_kept h1)
theorem execCtld_kept (h : Canonical s) : Kept (execCtld p q x y z f s) := cMulti_kept h (fun _ h1 _ => mkTile_kept h1)
theorem execCtst_kept (h : Canonical s) : Kept (execCtst p q x y z f s) := cMulti_kept h (fun _ h1 _ => mkTile_kept h1)
theorem execCgath_kept (h : Canonical s) : Kept (execCgath p q x y z f s) := cMulti_kept h (fun _ h1 _ => mkGather_kept h1)
theorem execCscat_kept (h : Canonical s) : Kept (execCscat p q x y z f s) := cMulti_kept h (fun _ h1 _ => mkGather_kept h1)
theorem execCwalk_kept (h : Canonical s) : Kept (execCwalk p q x y z f s) := cMulti_kept h (fun _ h1 _ => mkWalk_kept h1)
theorem execCzero_kept (h : Canonical s) : Kept (execCzero p q x z f s) := cMulti_kept h (fun _ h1 _ => mkFill_kept h1)
theorem execCfill_kept (h : Canonical s) : Kept (execCfill p q x y z f s) := cMulti_kept h (fun _ h1 _ => mkFill_kept h1)
theorem execCcoll_kept (h : Canonical s) : Kept (execCcoll p q x z s) := cMulti_kept h (fun _ h1 _ => mkColl_kept h1)
theorem caDo_kept {d : BitVec 4} {v : State → W64} (h : Canonical s) : Kept (caDo s p q d v) := cDo_kept h (fun _ h1 => State.updGrp_canonical h1)
theorem execCaLi_kept (h : Canonical s) : Kept (execCaLi p q x i s) := caDo_kept h
theorem execCaLih_kept (h : Canonical s) : Kept (execCaLih p q x i s) := caDo_kept h
theorem execCaAddi_kept (h : Canonical s) : Kept (execCaAddi p q x i s) := caDo_kept h
theorem execCaAdd_kept (h : Canonical s) : Kept (execCaAdd p q x y z s) := caDo_kept h
theorem execCaMov_kept (h : Canonical s) : Kept (execCaMov p q x y s) := caDo_kept h
theorem handleAt_kept {i : BitVec 8} (h : Canonical s) : (handleAt s y i).Kept := Acc.Kept.ite h h
theorem execChLd_kept {i : BitVec 8} (h : Canonical s) : Kept (execChLd p q x y i s) :=
  cDo_kept h (fun _ h1 => Acc.bind_kept (handleAt_kept h1) (fun _ _ h2 => Acc.bind_kept (copyHome_kept h2) (fun _ _ h3 => Acc.Kept.ite h3
    (State.updGrp_canonical h3))))
theorem execChSt_kept {i : BitVec 8} (h : Canonical s) : Kept (execChSt p q x y i s) :=
  cDo_kept h (fun _ h1 => Acc.Kept.ite (copyWrite_kept h1) (Acc.bind_kept (handleAt_kept h1) (fun _ _ h2 => copyWrite_kept h2)))
theorem execCbarIn_kept (h : Canonical s) : Kept (execCbarIn p q x b s) :=
  cDo_kept h (fun _ h1 => Acc.bind_kept (barEnt_kept h1) (fun _ _ h2 => barAdd_canonical h2))
theorem execCbarOut_kept (h : Canonical s) : Kept (execCbarOut p q x b s) :=
  cDo_kept h (fun _ h1 => Acc.bind_kept (barEnt_kept h1) (fun _ _ h2 => barAdd_canonical h2))
theorem execCbarArr_kept (h : Canonical s) : Kept (execCbarArr p q b s) := by
  unfold execCbarArr
  dsimp only
  refine cDo_kept h (fun _ h1 => Acc.bind_kept (barEnt_kept h1) (fun _ _ h2 => ?_))
  split
  · exact h2
  · split
    · exact State.updGrp_canonical h2
    · exact Acc.bind_kept (relG_kept h2) (fun _ _ h3 => State.updGrp_canonical (OptKept.getD (barArrive_kept h3) h3))
theorem csig_kept {f : Nat → Nat} (h : Canonical s) : Kept (csig s p q x f) := by
  unfold csig
  dsimp only
  refine cDo_kept h (fun _ h1 => Acc.bind_kept (sigAddr_kept h1) (fun _ _ h2 => ?_))
  split
  · exact homeRead_canonical h2
  · refine Acc.bind_kept (relG_kept (homeRead_canonical h2)) (fun _ _ h3 => ?_)
    split
    · next e => exact canonical_of_some₂ e (homeAtomic_kept h3)
    · exact atomicMissed_canonical h3
theorem execCsigAdd_kept (h : Canonical s) : Kept (execCsigAdd p q x y s) := csig_kept h
theorem execCsigSet_kept (h : Canonical s) : Kept (execCsigSet p q x y s) := csig_kept h
theorem execCpref_kept {_x : BitVec 4} {_z : BitVec 4} (h : Canonical s) : Kept (execCpref p q _x _z s) := cDo_kept h (fun _ h1 => h1)

end Sys2Proof.Machine
end

section
/-! SUPPORT. Memory stays canonical in this part of the model, one lemma per function. Single-step matrix instructions: descriptors (R234),
optical configuration (R225), status records (R226) and accumulator banks (R200). -/
namespace Sys2Proof.Machine

variable {s : State} {i : BitVec 12} {p q : BitVec 3} {d x b n : BitVec 4} {o k : BitVec 6}

theorem mDo_kept {legal : Bool} {body : State → Acc Unit} (h : Canonical s) (hbody : ∀ a, Canonical a → (body a).Kept) : Kept (mDo s legal p
    q body) := by
  unfold mDo
  split
  · exact trivial
  · split
    · exact illegal_canonical h
    · exact Kept.ite (State.block_canonical h) (tDo_kept h (fun _ h1 => hbody _ h1))
theorem State.setD_canonical {v : BitVec 128} (h : Canonical s) : Canonical (s.setD d v) := State.updGrp_canonical h
theorem execMdset_kept {f : BitVec 4} (h : Canonical s) : Kept (execMdset p q d f i s) := mDo_kept h (fun _ h1 => State.setD_canonical h1)
theorem execMdadd_kept (h : Canonical s) : Kept (execMdadd p q d x i s) := mDo_kept h (fun _ h1 => State.setD_canonical h1)
theorem execMdmov_kept (h : Canonical s) : Kept (execMdmov p q d x s) := mDo_kept h (fun _ h1 => State.setD_canonical h1)
theorem execMdld_kept (h : Canonical s) : Kept (execMdld p q d x i s) :=
  mDo_kept h (fun _ h1 => Acc.bind_kept (scrRead_kept h1) (fun _ _ h2 => State.setD_canonical h2))
theorem execMocfg_kept {t : BitVec 2} (h : Canonical s) : Kept (execMocfg p q o t i s) := mAlone_kept h (fun _ h1 => State.updGrp_canonical h1)
theorem execMstat_kept {st : BitVec 3} {m : BitVec 4} (h : Canonical s) : Kept (execMstat p q o st m s) :=
  mAlone_kept h (fun _ h1 => scrWrite_kept h1)
theorem zeroAcc_canonical {core : Nat} {phys : Nat} {row : Nat → Bool} (h : Canonical s) : Canonical (zeroAcc s core phys row) :=
  State.updCore_canonical h
theorem State.setAmap_canonical {b : Nat} {e : Option AEntry} (h : Canonical s) : Canonical (s.setAmap b e) := State.updGrp_canonical h
theorem accAlloc_canonical {b : Nat} (h : Canonical s) : Canonical (accAlloc s b) :=
  zeroAcc_canonical (State.setAmap_canonical (State.tick1_canonical h))
theorem execMaccAlloc_kept (h : Canonical s) : Kept (execMaccAlloc p q b s) :=
  mAlone_kept h (fun _ h1 => Acc.Kept.ite h1 (Acc.Kept.ite h1 (accAlloc_canonical h1)))
theorem execMaccFree_kept (h : Canonical s) : Kept (execMaccFree p q b s) := mAlone_kept h (fun _ h1 => State.setAmap_canonical h1)
theorem execMaccZero_kept (h : Canonical s) : Kept (execMaccZero p q n b s) := by
  refine mAlone_kept h (fun _ h1 => ?_)
  split
  · exact setUnalloc_canonical h1
  · exact Acc.Kept.ite h1 (zeroAcc_canonical h1)
theorem execMaccShare_kept (h : Canonical s) : Kept (execMaccShare p q k b s) := by
  refine mAlone_kept h (fun _ h1 => ?_)
  split
  · exact h1
  · exact Acc.Kept.ite h1 (State.setAmap_canonical h1)
theorem execMaccAttach_kept (h : Canonical s) : Kept (execMaccAttach p q n k b s) := by
  refine mAlone_kept h (fun _ h1 => ?_)
  split
  · exact h1
  · split
    · exact h1
    · exact State.setAmap_canonical h1

end Sys2Proof.Machine
end

section
/-! SUPPORT. Memory stays canonical in this part of the model, one lemma per function. The life of a group between its placement and its
retirement: ends of streams (R109), interrupts and asynchronous faults taken (R63, R64, R331), pre-emption (R72), saving (R69, R73, R201,
R313) and retirement (R111, R112, R314), with what these do to contexts and kernels (R58, R76). -/
namespace Sys2Proof.Machine

variable {s s0 : State} {h : BitVec 64} {c q seq : Nat}

theorem freeCtx_canonical (h : Canonical s) : Canonical (freeCtx s c) := State.updCtx_canonical (ilApplyAll_canonical (ilAppend_canonical h))
theorem settleCtx_canonical (h : Canonical s) : Canonical (settleCtx s c) := by
  unfold settleCtx
  split
  · exact Canonical.ite (State.updCtx_canonical h) h
  · exact Canonical.ite (freeCtx_canonical h) h
  · exact h
theorem settle_canonical (h : Canonical s) : Canonical (settle s) := foldl_canonical (fun _ _ h1 => settleCtx_canonical h1) h.keep
theorem execStreamEnded_kept {st : BitVec 2} (hc : Canonical s) : Kept (execStreamEnded h st s) := by
  unfold execStreamEnded
  dsimp only
  split
  · exact State.focus_canonical hc
  · split
    · split
      · exact vTick_canonical (retireDue_canonical (State.focus_canonical hc))
      · exact retireIfEnded_canonical (endStream_canonical (retireDue_canonical (State.focus_canonical hc)))
    · exact retireIfEnded_canonical (endStream_canonical (State.focus_canonical hc))
theorem execTrapDelivery_kept (hc : Canonical s) : Kept (execTrapDelivery h s) := by
  unfold execTrapDelivery
  dsimp only
  split
  · exact State.focus_canonical hc
  · split
    · split
      · exact trapNow_canonical (State.updGrp_canonical (State.focus_canonical hc))
      · exact State.focus_canonical hc
    · split
      · exact takeTrap_canonical (State.updGrp_canonical (State.focus_canonical hc))
      · exact State.focus_canonical hc
theorem execAsyncFaultDelivery_kept (hc : Canonical s) : Kept (execAsyncFaultDelivery h s) := by
  unfold execAsyncFaultDelivery
  dsimp only
  split
  · exact State.focus_canonical hc
  · split
    · exact State.focus_canonical hc
    · exact deliver_canonical (State.updGrp_canonical (settleSeq_canonical (State.focus_canonical hc)))
theorem requestPreempt_canonical {h : W64} {for' : Option Nat} (hc : Canonical s) : Canonical (requestPreempt s h for') :=
  State.updGroups_canonical hc
theorem withdrawPreempt_canonical {p : Group → Bool} {susp : Bool} (h : Canonical s) : Canonical (withdrawPreempt s p susp) :=
  State.updGroups_canonical h
theorem execPreemptionDeadline_kept (hc : Canonical s) : Kept (execPreemptionDeadline h s) := by
  unfold execPreemptionDeadline
  dsimp only
  split
  · exact State.updGrp_canonical (Canonical.keep (State.focus_canonical hc))
  · exact State.focus_canonical hc
theorem freeBanks_canonical {h : W64} (hc : Canonical s) : Canonical (freeBanks s c h) := State.updCore_canonical hc
theorem dropBarrier_canonical {id : Nat} (h : Canonical s) : Canonical (dropBarrier s id) := by
  unfold dropBarrier
  split
  · exact h
  · split
    · exact h
    · split
      · next e2 => exact canonical_of_some e2 (barArd_kept h)
      · exact barLeave_canonical h
theorem saveAcc_canonical (h : Canonical s) : Canonical (saveAcc s) := State.updGrp_canonical (State.updGroups_canonical h)
theorem saveBars_canonical (h : Canonical s) : Canonical (saveBars s) :=
  State.updGrp_canonical (State.updGroups_canonical (foldl_canonical (fun _ _ h1 => dropBarrier_canonical h1) h))
theorem abortUnreadable_canonical (hs0 : Canonical s0) : Canonical (abortUnreadable s0) :=
  stopBoth_canonical (noteConsumed_canonical (Canonical.ite hs0 (coreErrors_canonical hs0)))
theorem parkSession_canonical (h : Canonical s) : Canonical (parkSession s) := by
  unfold parkSession
  dsimp only
  split
  · exact h
  · split
    · exact State.updStr_canonical h
    · split
      · exact h
      · exact postAdmit_canonical (State.updStr_canonical (State.updGroups_canonical (tell_canonical h)))
theorem stopForSave_canonical (h : Canonical s) : Canonical (stopForSave s) := by
  unfold stopForSave
  split
  · exact State.updGrp_canonical h
  · exact stopStreams_canonical (retireDue_canonical (settleSeqs_canonical h))
theorem saveRelease_kept (h : Canonical s) : OptKept (saveRelease s) := by
  unfold saveRelease
  split
  · next e => exact State.updGrp_canonical (canonical_of_ok e (release_kept h))
  · exact trivial
  · next e1 =>
    split
    · next e2 => exact State.updGrp_canonical (canonical_of_ok e2 (release_kept (canonical_of_fault e1 (release_kept h))))
    · exact trivial
    · next e3 => exact State.updGrp_canonical (canonical_of_fault e3 (release_kept (canonical_of_fault e1 (release_kept h))))
theorem convZero_canonical (h : Canonical s) : Canonical (convZero s) := State.updGrp_canonical h
theorem hintedState_canonical (h : Canonical s) : Canonical (hintedState s) := State.updGrp_canonical h
theorem saveBody_canonical (hs0 : Canonical s0) : Canonical (saveBody s0) := by
  unfold saveBody
  dsimp only
  split
  · exact abortUnreadable_canonical (hintedState_canonical (convZero_canonical hs0))
  · exact parkSession_canonical (State.updGrp_canonical (freeBanks_canonical (saveBars_canonical (saveAcc_canonical (hintedState_canonical
      (convZero_canonical hs0))))))
theorem saveVld_canonical (h : Canonical s) : Canonical (saveVld s).2 := by
  unfold saveVld
  dsimp only
  split
  · exact settleVld_canonical h
  · exact takeFault_canonical (onPartner_canonical (State.updGrp_canonical (settleVld_canonical h)) (fun _ h1 => State.updGrp_canonical h1))
theorem saveNow_canonical {h : W64} (hc : Canonical s) : Canonical (saveNow h s) := by
  unfold saveNow
  extract_lets s1 p allOver off unread
  clear_value p
  have h1 : Canonical s1 := onPartner_canonical (stopForSave_canonical hc) fun _ h => stopForSave_canonical h
  have released : OptKept ((saveRelease s1).bind (fun s2 =>
      match p with
      | none => some s2
      | some g => (saveRelease (s2.focus g.handle)).map (fun s3 => s3.focus h))) := by
    refine (saveRelease_kept h1).bind fun s2 h2 => ?_
    split
    · exact h2
    · exact (saveRelease_kept (State.focus_canonical h2)).map fun _ h => State.focus_canonical h
  refine .ite (retireIfEnded_canonical (onPartner_canonical h1.keep fun _ h => h.keep)) ?_
  split
  · exact h1
  · next e =>
    have h2 := canonical_of_some e released
    refine settle_canonical ?_
    split
    · exact saveBody_canonical h2
    · exact .ite (onPartner_canonical h2 fun _ h => abortUnreadable_canonical h)
        (onPartner_canonical (saveBody_canonical h2) fun _ h => .ite (saveBody_canonical h) h)
theorem execGroupSave_kept (hc : Canonical s) : Kept (execGroupSave h s) := by
  unfold execGroupSave
  dsimp only
  split
  · exact State.focus_canonical hc
  · split
    · exact onPartner_canonical (State.updGrp_canonical (State.focus_canonical hc)) (fun _ h1 => State.updGrp_canonical h1)
    · split
      · exact saveVld_canonical (onPartner_canonical (State.updGrp_canonical (State.focus_canonical hc)) (fun _ h1 => State.updGrp_canonical h1))
      · split
        · exact saveNow_canonical (saveVld_canonical (onPartner_canonical (State.updGrp_canonical (State.focus_canonical hc))
            (fun _ h1 => State.updGrp_canonical h1)))
        · split
          · exact saveVld_canonical (State.focus_canonical (saveVld_canonical (onPartner_canonical (State.updGrp_canonical
              (State.focus_canonical hc)) (fun _ h1 => State.updGrp_canonical h1))))
          · exact saveNow_canonical (State.focus_canonical (saveVld_canonical (State.focus_canonical (saveVld_canonical (onPartner_canonical
              (State.updGrp_canonical (State.focus_canonical hc)) (fun _ h1 => State.updGrp_canonical h1))))))
theorem queueStore_canonical {ctx : Nat} {va : Nat} {n : Nat} {al : Nat} {v : Nat} (h : Canonical s) : Canonical (queueStore s q ctx va n al v) := by
  unfold queueStore
  split
  · exact eventRecord_canonical h
  · split
    · next e => exact canonical_of_ok e (devWrite_kept h)
    · next e1 => exact eventRecord_canonical (canonical_of_fault e1 (devWrite_kept h))
    · next e => exact canonical_of_wait e (devWrite_kept h)
theorem updPkt_canonical {f : Pkt → Pkt} (h : Canonical s) : Canonical (updPkt s q seq f) := State.updQueue_canonical h
theorem postComplete_canonical (h : Canonical s) : Canonical (postComplete s q seq) := by
  unfold postComplete
  split
  · exact Canonical.ite (State.postE_canonical h) h
  · exact h
theorem State.dropGroup_canonical {h : W64} (hc : Canonical s) : Canonical (s.dropGroup h) := hc.keep
theorem retireBody_canonical (h : Canonical s) : Canonical (retireBody s) := by
  refine settle_canonical (postComplete_canonical ?_)
  split
  · refine State.dropGroup_canonical (updPkt_canonical ?_)
    split
    · exact State.updCtx_canonical (freeBanks_canonical (foldl_canonical (fun _ _ h1 => dropBarrier_canonical h1) (leaveSession_canonical h)))
    · exact queueStore_canonical (State.updCtx_canonical (freeBanks_canonical (foldl_canonical (fun _ _ h1 => dropBarrier_canonical h1)
        (leaveSession_canonical h))))
  · refine State.updGrp_canonical (updPkt_canonical ?_)
    split
    · exact State.updCtx_canonical (freeBanks_canonical (foldl_canonical (fun _ _ h1 => dropBarrier_canonical h1) (leaveSession_canonical h)))
    · exact queueStore_canonical (State.updCtx_canonical (freeBanks_canonical (foldl_canonical (fun _ _ h1 => dropBarrier_canonical h1)
        (leaveSession_canonical h))))
theorem execGroupRetire_kept (hc : Canonical s) : Kept (execGroupRetire h s) := by
  unfold execGroupRetire
  extract_lets f t s1 g
  have hf : Canonical f := State.focus_canonical hc
  have h1 : Canonical s1 := (retireAll_canonical (.ite (finishStop_canonical hf) hf)).keep
  refine .ite hf (.ite hf (.ite h1 (.ite (retireBody_canonical h1) ?_)))
  split
  · next e => exact canonical_of_wait e (release_kept h1)
  · next e => exact canonical_of_fault e (release_kept h1)
  · next e => exact retireBody_canonical (canonical_of_ok e (release_kept h1))

end Sys2Proof.Machine
end

section
/-! SUPPORT. Memory stays canonical in this part of the model, one lemma per function. The commands of the host on contexts (R56 to R58) and
on kernels (R75 to R79, R84), and group interrupts of the host (R125). -/
namespace Sys2Proof.Machine

variable {s : State} {kid : BitVec 12} {c : BitVec 8} {res : Nat}

theorem answerCtx_canonical (h : Canonical s) : Canonical (answerCtx s res) := h.keep
theorem ctxDesc_kept {c : Nat} (h : Canonical s) : (ctxDesc s c).Kept := Acc.bind_kept (physAsk_kept h) (fun _ _ h1 => Acc.Kept.ite h1 h1)
theorem execCtxOpen_kept (h : Canonical s) : Kept (execCtxOpen c s) := by
  unfold execCtxOpen
  dsimp only
  split
  · exact answerCtx_canonical h
  · split
    · next e => exact answerCtx_canonical (State.updCtx_canonical (canonical_of_ok e (ctxDesc_kept h)))
    · next e => exact canonical_of_wait e (ctxDesc_kept h)
    · next e => exact answerCtx_canonical (canonical_of_ok e (ctxDesc_kept h))
    · next e1 => exact answerCtx_canonical (canonical_of_fault e1 (ctxDesc_kept h))
theorem execCtxSuspend_kept (h : Canonical s) : Kept (execCtxSuspend c s) := by
  unfold execCtxSuspend
  dsimp only
  split
  · exact answerCtx_canonical (settleCtx_canonical (State.updCtx_canonical (foldl_canonical (fun _ _ h1 => requestPreempt_canonical h1) h)))
  · exact answerCtx_canonical h
  · exact answerCtx_canonical h
  · exact answerCtx_canonical h
theorem moveImages_canonical {c : Nat} {old : Ctx} {x : Ctx} (h : Canonical s) : Canonical (moveImages s c old x) := State.updGroups_canonical h
theorem execCtxResume_kept (h : Canonical s) : Kept (execCtxResume c s) := by
  unfold execCtxResume
  dsimp only
  split
  · exact answerCtx_canonical h
  · split
    · next e1 => exact answerCtx_canonical (State.updCtx_canonical (withdrawPreempt_canonical (moveImages_canonical (canonical_of_ok e1
        (ctxDesc_kept h)))))
    · next e1 => exact canonical_of_wait e1 (ctxDesc_kept h)
    · next e1 => exact answerCtx_canonical (canonical_of_ok e1 (ctxDesc_kept h))
    · next e2 => exact answerCtx_canonical (canonical_of_fault e2 (ctxDesc_kept h))
  · split
    · next e1 => exact answerCtx_canonical (State.updCtx_canonical (withdrawPreempt_canonical (moveImages_canonical (canonical_of_ok e1
        (ctxDesc_kept h)))))
    · next e1 => exact canonical_of_wait e1 (ctxDesc_kept h)
    · next e1 => exact answerCtx_canonical (canonical_of_ok e1 (ctxDesc_kept h))
    · next e2 => exact answerCtx_canonical (canonical_of_fault e2 (ctxDesc_kept h))
  · exact answerCtx_canonical h
theorem rejectPkts_canonical {p : Nat → Queue → Pkt → Bool} {status : Nat} (h : Canonical s) : Canonical (rejectPkts s p status) :=
  foldl_canonical (fun _ _ h1 => foldl_canonical (fun _ _ h2 => Canonical.ite (postComplete_canonical h2) h2) h1) h.keep
theorem closeGroup_canonical {h : W64} {status : EndStatus} {fr : List Byte} (hc : Canonical s) : Canonical (closeGroup s h status fr) := by
  refine onGroup_canonical hc (fun _ h1 => ?_)
  split
  · exact stopGroup_canonical h1
  · exact stopGroup_canonical h1
  · exact State.postE_canonical (State.updGrp_canonical h1)
  · exact h1
theorem execCtxClose_kept (h : Canonical s) : Kept (execCtxClose c s) := by
  unfold execCtxClose
  dsimp only
  split
  · exact answerCtx_canonical h
  · exact answerCtx_canonical h
  · exact answerCtx_canonical (settle_canonical (foldl_canonical (fun _ _ h1 => closeGroup_canonical h1) (rejectPkts_canonical (Canonical.keep
      (State.updCtx_canonical h)))))
theorem answerKern_canonical {reason : Nat} (h : Canonical s) : Canonical (answerKern s res reason) := h.keep
theorem execKernelLoad_kept (h : Canonical s) : Kept (execKernelLoad c kid s) :=
  Kept.ite (answerKern_canonical h) (State.postE_canonical (State.updKern_canonical h.keep))
theorem execKernelUnload_kept (h : Canonical s) : Kept (execKernelUnload c kid s) := by
  unfold execKernelUnload
  dsimp only
  split
  · exact answerKern_canonical (settle_canonical (State.updKern_canonical h))
  · exact answerKern_canonical h
  · exact answerKern_canonical h
theorem readObject_kept {c : Nat} {base : Nat} (h : Canonical s) : (readObject s c base).Kept :=
  devEnd_kept (Acc.bind_kept (devReadOf_kept h) (fun _ _ h1 => Acc.bind_kept (devReadOf_kept h1) (fun _ _ h2 => Acc.bind_kept
    (devReadOf_kept h2) (fun _ _ h3 => Acc.bind_kept (foldl_kept (fun _ _ h4 => Acc.bind_kept h4 (fun _ _ h5 => Acc.bind_kept
    (devReadOf_kept h5) (fun _ _ h6 => Acc.ok_kept h6))) (Acc.ok_kept h3)) (fun _ _ h4 => Acc.ok_kept h4)))))
theorem execKernelLoadReadDone_kept (h : Canonical s) : Kept (execKernelLoadReadDone s) := by
  unfold execKernelLoadReadDone
  dsimp only
  split
  · exact h
  · split
    · exact answerKern_canonical (State.updKern_canonical h.keep)
    · split
      · next e1 => split <;> exact answerKern_canonical (State.updKern_canonical (Canonical.keep (canonical_of_ok e1 (readObject_kept h))))
      · next e2 => exact answerKern_canonical (State.updKern_canonical (Canonical.keep (canonical_of_fault e2 (readObject_kept h))))
      · next e1 => exact canonical_of_wait e1 (readObject_kept h)
theorem execGintv_kept {v : BitVec 64} (h : Canonical s) : Kept (execGintv v s) :=
  Kept.ite h (Kept.ite h.keep (State.updGroup_canonical h.keep))

end Sys2Proof.Machine
end

section
/-! SUPPORT. Memory stays canonical in this part of the model, one lemma per function. Gang launches (R359 to R362): the messages between
the members, the decision of the leader, and the abort of a gang at this member. -/
namespace Sys2Proof.Machine

variable {s : State} {g : BitVec 32} {m : BitVec 6} {lacked : Nat} {id : W32}

theorem gangSend_canonical {m : Nat} {arg : Nat} (h : Canonical s) : Canonical (gangSend s m arg id lacked) := enqueue_canonical h
theorem updGang_canonical {f : Gang → Gang} (h : Canonical s) : Canonical (updGang s id f) := h.keep
theorem hearGang_canonical (h : Canonical s) : Canonical (hearGang s id) := Canonical.ite h h.keep
theorem abortGang_canonical {g : Gang} (h : Canonical s) : Canonical (abortGang s g lacked) :=
  postComplete_canonical (foldl_canonical (fun _ _ h1 => closeGroup_canonical h1) (updPkt_canonical (updGang_canonical h)))
theorem gangDecide_canonical {g : Gang} {commit : Bool} {send : Bool} (h : Canonical s) : Canonical (gangDecide s g commit lacked send) := by
  unfold gangDecide
  split
  · exact updGang_canonical (foldl_canonical (fun _ _ h1 => gangSend_canonical h1) (updGang_canonical h))
  · exact abortGang_canonical (foldl_canonical (fun _ _ h1 => gangSend_canonical h1) (updGang_canonical h))
theorem gangTry_canonical (h : Canonical s) : Canonical (gangTry s id) := by
  unfold gangTry
  split
  · exact Canonical.ite (gangDecide_canonical h) h
  · exact h
theorem gangStart_canonical {q : Nat} {p : Pkt} (h : Canonical s) : Canonical (gangStart s q p) := by
  unfold gangStart
  dsimp only
  split
  · exact Canonical.ite (gangDecide_canonical h.keep) (gangTry_canonical h.keep)
  · exact gangSend_canonical h.keep
theorem execGangReadyReceived_kept (h : Canonical s) : Kept (execGangReadyReceived g m s) := by
  unfold execGangReadyReceived
  dsimp only
  split
  · exact Kept.ite (gangTry_canonical (updGang_canonical (hearGang_canonical h))) (hearGang_canonical h)
  · exact hearGang_canonical h
theorem execGangCommitReceived_kept (h : Canonical s) : Kept (execGangCommitReceived g s) := by
  unfold execGangCommitReceived
  split
  · exact Kept.ite (updGang_canonical h) h
  · exact h
theorem execGangAbortReceived_kept {lacked : BitVec 6} (h : Canonical s) : Kept (execGangAbortReceived g lacked s) := by
  unfold execGangAbortReceived
  dsimp only
  split
  · split
    · exact updGang_canonical (hearGang_canonical h)
    · exact Kept.ite (gangDecide_canonical (hearGang_canonical h)) (abortGang_canonical (hearGang_canonical h))
    · exact hearGang_canonical h
  · exact hearGang_canonical h
theorem execGangQueryReceived_kept (h : Canonical s) : Kept (execGangQueryReceived g m s) := by
  unfold execGangQueryReceived
  dsimp only
  split
  · split
    · exact updGang_canonical (hearGang_canonical h)
    · exact gangSend_canonical (hearGang_canonical h)
    · exact Canonical.ite (updGang_canonical (hearGang_canonical h)) (hearGang_canonical h)
  · exact hearGang_canonical h
theorem execGangLeaderTimeout_kept (h : Canonical s) : Kept (execGangLeaderTimeout g s) := by
  unfold execGangLeaderTimeout
  split
  · exact Kept.ite (gangDecide_canonical h) h
  · exact h
theorem execGangQueryTimeout_kept (h : Canonical s) : Kept (execGangQueryTimeout g s) := by
  unfold execGangQueryTimeout
  split
  · exact Kept.ite (gangSend_canonical (updGang_canonical h)) h
  · exact h
theorem execGangAnswerTimeout_kept (h : Canonical s) : Kept (execGangAnswerTimeout g s) := by
  unfold execGangAnswerTimeout
  split
  · split
    · exact Kept.ite (abortGang_canonical (gangSend_canonical h)) h
    · exact h
  · exact h
theorem execGangDecisionExpiry_kept (h : Canonical s) : Kept (execGangDecisionExpiry g s) := by
  unfold execGangDecisionExpiry
  split
  · exact Kept.ite h.keep h
  · exact h

end Sys2Proof.Machine
end

section
/-! SUPPORT. Memory stays canonical in this part of the model, one lemma per function. Work queues: descriptors and commands (R113 to R115),
doorbells (R116), the taking and checking of packets (R117 to R119), the capture of launch values (R80, R81, R83, R84) and completion
(R123). -/
namespace Sys2Proof.Machine

variable {s : State} {q : BitVec 15} {c n k seq : Nat} {p : Pkt}

theorem queueWord_canonical {q : Nat} (h : Canonical s) : Canonical (queueWord s q) := physWrite_canonical h
theorem setQueue_canonical {q : Nat} {f : Queue → Queue} (h : Canonical s) : Canonical (setQueue s q f) :=
  queueWord_canonical (State.updQueue_canonical h)
theorem answerQueue_canonical {res : Nat} (h : Canonical s) : Canonical (answerQueue s res) := h.keep
theorem queueRead_kept {va : Nat} (h : Canonical s) : (queueRead s c va n).Kept := Acc.Kept.ite h (devRead_kept h)
theorem armTrigs_kept {v : Nat} {x : Pkt} (h : Canonical s) : (armTrigs c v k s x).Kept := by
  induction k with
  | zero => exact h
  | succ k ih =>
    refine Acc.bind_kept ih fun p s h => Acc.Kept.ite h ?_
    dsimp only
    split
    · next e =>
      have h1 := canonical_of_ok e (translate_kept h)
      exact Acc.Kept.ite h1 h1
    · next e => exact canonical_of_fault e (translate_kept h)
    · next e => exact canonical_of_wait e (translate_kept h)
theorem putPkt_canonical (h : Canonical s) : Canonical (putPkt s n p) := postComplete_canonical (setQueue_canonical h)
theorem execPacketTake_kept (h : Canonical s) : Kept (execPacketTake q s) := by
  unfold execPacketTake
  dsimp only
  split
  · exact h
  · split
    · exact putPkt_canonical h
    · split
      · next e1 => exact setQueue_canonical (canonical_of_fault e1 (queueRead_kept h))
      · next e => exact canonical_of_wait e (queueRead_kept h)
      · next e =>
        split
        · exact canonical_of_ok e (queueRead_kept h)
        · split
          · exact putPkt_canonical (canonical_of_ok e (queueRead_kept h))
          · split
            · next e1 => exact putPkt_canonical (canonical_of_ok e1 (armTrigs_kept (canonical_of_ok e (queueRead_kept h))))
            · next e2 => exact canonical_of_fault e2 (armTrigs_kept (canonical_of_ok e (queueRead_kept h)))
            · next e1 => exact canonical_of_wait e1 (armTrigs_kept (canonical_of_ok e (queueRead_kept h)))
theorem execParameterBlockRead_kept (h : Canonical s) : Kept (execParameterBlockRead q s) := by
  unfold execParameterBlockRead
  dsimp only
  split
  · exact h
  · split
    · exact h
    · split
      · exact settle_canonical (postComplete_canonical (updPkt_canonical h))
      · split
        · exact settle_canonical (postComplete_canonical (updPkt_canonical h))
        · split
          · next e2 => exact settle_canonical (postComplete_canonical (updPkt_canonical (canonical_of_fault e2 (queueRead_kept h))))
          · next e1 => exact canonical_of_wait e1 (queueRead_kept h)
          · next e1 =>
            split
            · exact settle_canonical (postComplete_canonical (gangStart_canonical (updPkt_canonical (canonical_of_ok e1 (queueRead_kept h)))))
            · exact settle_canonical (postComplete_canonical (updPkt_canonical (updPkt_canonical (canonical_of_ok e1 (queueRead_kept h)))))
theorem markSummed_canonical {q : Nat} (h : Canonical s) : Canonical (markSummed s q seq) := State.updQueue_canonical h
theorem finishPkt_kept {q : Nat} {status : Nat} (h : Canonical s) : (finishPkt s q p status).Kept := by
  unfold finishPkt
  extract_lets c sum skip fin count drain
  have hskip {s} (h : Canonical s) : Canonical (skip s) := eventRecord_canonical h
  have hfin {s} (h : Canonical s) : (fin s).Kept := Canonical.ite (raiseMsi_canonical h) h
  have hcount {s} (h : Canonical s) : (count s).Kept := by
    refine .ite (hfin h) (.ite (hfin (hskip h)) ?_)
    split
    · next e => exact hfin (canonical_of_ok e (devCount_kept h))
    · next e => exact hfin (hskip (canonical_of_fault e (devCount_kept h)))
    · next e => exact canonical_of_wait e (devCount_kept h)
  have hdrain {s} (h : Canonical s) : (drain s).Kept := by
    refine .ite h ?_
    split
    · exact h
    · next e =>
      exact hcount (canonical_of_some e (allOf_kept h fun s h _ => (l1WbAll_kept h).bind fun s h => (homeClean_kept h).map fun s h => h.keep))
  exact .ite (hcount h) (.ite (hdrain h) (.ite h (hdrain (markSummed_canonical (.ite h (queueStore_canonical h))))))
theorem dropPkt_canonical {q : Nat} (h : Canonical s) : Canonical (dropPkt s q seq) := by
  unfold dropPkt
  dsimp only
  split
  · exact setQueue_canonical (Canonical.keep (State.updQueue_canonical h))
  · exact Canonical.keep (State.updQueue_canonical h)
theorem execPacketComplete_kept {n : BitVec 16} (h : Canonical s) : Kept (execPacketComplete q n s) := by
  unfold execPacketComplete
  split
  · exact h
  · split
    · exact h
    · split
      · next e1 => exact settle_canonical (dropPkt_canonical (canonical_of_ok e1 (finishPkt_kept h)))
      · next e2 => exact canonical_of_fault e2 (finishPkt_kept h)
      · next e1 => exact canonical_of_wait e1 (finishPkt_kept h)
theorem execQueueEnable_kept (h : Canonical s) : Kept (execQueueEnable q s) := by
  unfold execQueueEnable
  dsimp only
  split
  · exact answerQueue_canonical h
  · split
    · next e => exact canonical_of_wait e (physAsk_kept h)
    · next e1 => exact answerQueue_canonical (canonical_of_fault e1 (physAsk_kept h))
    · next e =>
      split
      · exact answerQueue_canonical (canonical_of_ok e (physAsk_kept h))
      · exact answerQueue_canonical (setQueue_canonical (canonical_of_ok e (physAsk_kept h)))
theorem flushQueue_kept {a : Nat} (h : Canonical s) : (flushQueue k s a).Kept := by
  induction k generalizing s a with
  | zero =>
    unfold flushQueue
    exact h
  | succ n ih =>
    unfold flushQueue
    dsimp only
    split
    · exact Acc.bind_kept (finishPkt_kept h) (fun _ _ h1 => ih (State.updQueue_canonical h1))
    · split
      · exact h
      · split
        · next e1 => exact ih (State.updQueue_canonical (canonical_of_ok e1 (queueRead_kept h)))
        · next e2 => exact ih (State.updQueue_canonical (canonical_of_fault e2 (queueRead_kept h)))
        · next e1 => exact canonical_of_wait e1 (queueRead_kept h)
theorem execQueueDisable_kept (h : Canonical s) : Kept (execQueueDisable q s) := by
  unfold execQueueDisable
  dsimp only
  split
  · exact answerQueue_canonical h
  · split
    · next e => exact canonical_of_wait e (flushQueue_kept h)
    · next e1 => exact canonical_of_fault e1 (flushQueue_kept h)
    · next e => exact answerQueue_canonical (setQueue_canonical (canonical_of_ok e (flushQueue_kept h)))
theorem execQueuePause_kept (h : Canonical s) : Kept (execQueuePause q s) := by
  unfold execQueuePause
  dsimp only
  split
  · exact answerQueue_canonical (setQueue_canonical h)
  · exact answerQueue_canonical h
  · exact answerQueue_canonical h
theorem execQueueResume_kept (h : Canonical s) : Kept (execQueueResume q s) := by
  unfold execQueueResume
  dsimp only
  split
  · exact answerQueue_canonical (setQueue_canonical h)
  · exact answerQueue_canonical h
  · exact answerQueue_canonical h
theorem execQueueReset_kept (h : Canonical s) : Kept (execQueueReset q s) := by
  unfold execQueueReset
  dsimp only
  split
  · exact answerQueue_canonical (setQueue_canonical h)
  · exact answerQueue_canonical h
theorem execQdb_kept {tail : BitVec 16} (h : Canonical s) : Kept (execQdb q tail s) :=
  Kept.ite h (Kept.ite (setQueue_canonical h) (State.updQueue_canonical h))
theorem execSpillExpiry_kept (h : Canonical s) : Kept (execSpillExpiry q s) := State.updQueue_canonical h

end Sys2Proof.Machine
end

section
/-! SUPPORT. Memory stays canonical in this part of the model, one lemma per function. The package work distributor: choice among queues
(R120), pre-emption for a higher priority (R121), placement (R71, R82, R122, R190, R192, R210), the start of a group (R81, R94, R99) and its
resumption (R74). -/
namespace Sys2Proof.Machine

variable {s : State} {cores : List Nat} {b q core : Nat} {p : Pkt} {h : W64}

theorem assignBank_canonical {target : BankMode} (h : Canonical s) : Canonical (assignBank s b target) :=
  State.postE_canonical (State.updGrp_canonical (State.updCore_canonical (State.tick1_canonical h)))
theorem assignBanks_canonical (h : Canonical s) : Canonical (assignBanks s) :=
  foldl_canonical (fun _ _ h1 => assignBank_canonical h1) (State.updGrp_canonical h)
theorem assignBar_canonical {id : Nat} {o : BitVec 128} {e : BEntry} (h : Canonical s) : Canonical (assignBar s id o e) :=
  State.updGrp_canonical (State.updCore_canonical (State.tick1_canonical h))
theorem arriveCore_canonical (h : Canonical s) : Canonical (arriveCore s) := by
  unfold arriveCore
  dsimp only
  split
  · next e => exact canonical_of_ok e (acquire_kept (State.updCore_canonical (Canonical.ite h (ilApply_canonical h))))
  · next e1 => exact canonical_of_fault e1 (acquire_kept (State.updCore_canonical (Canonical.ite h (ilApply_canonical h))))
  · next e => exact canonical_of_wait e (acquire_kept (State.updCore_canonical (Canonical.ite h (ilApply_canonical h))))
theorem startGroup_canonical {half : Nat} {off : Nat} {partner : W64} {pt : List Nat} (hc : Canonical s) : Canonical (startGroup s q p core
    half off h partner pt) :=
  foldl_canonical (fun _ _ h1 => assignBar_canonical h1) (foldl_canonical (fun _ _ h1 => accAlloc_canonical h1) (assignBanks_canonical
    (arriveCore_canonical (State.updCtx_canonical (State.tick1_canonical hc.keep)))))
theorem restoreAcc_canonical (h : Canonical s) : Canonical (restoreAcc s b) := by
  unfold restoreAcc
  split
  · exact h
  · exact foldl_canonical (fun _ _ h1 => State.updCore_canonical h1) (State.setAmap_canonical (accAlloc_canonical (State.setAmap_canonical h)))
theorem unpark_canonical (h : Canonical s) : Canonical (unpark s) := by
  unfold unpark
  split
  · exact h
  · exact Canonical.ite (readmit_canonical h) h
theorem resumeGroup_canonical (hc : Canonical s) : Canonical (resumeGroup s h core) := by
  unfold resumeGroup
  exact unpark_canonical (State.updGrp_canonical (foldl_canonical (fun _ _ h1 => assignBar_canonical h1) (State.updGrp_canonical
    (foldl_canonical (fun _ _ h1 => restoreAcc_canonical h1) (assignBanks_canonical (arriveCore_canonical (State.updGrp_canonical
    (updPkt_canonical (State.focus_canonical hc)))))))))
theorem tableEntry_kept (h : Canonical s) : (tableEntry s q p).Kept := by
  unfold tableEntry
  split
  · exact h
  · exact Acc.Kept.ite h (Acc.bind_kept (queueRead_kept h) (fun _ _ h1 => updPkt_canonical h1))
theorem dispatchFresh_kept (h : Canonical s) : OptKept (dispatchFresh s q p cores) := by
  unfold dispatchFresh
  dsimp only
  split
  · exact retireIfEnded_canonical (Canonical.keep (updPkt_canonical (startGroup_canonical h)))
  · exact retireIfEnded_canonical (Canonical.keep (updPkt_canonical (startGroup_canonical (startGroup_canonical h))))
  · exact trivial
theorem dispatchSaved_kept {g : Group} (h : Canonical s) : OptKept (dispatchSaved s g cores) := by
  unfold dispatchSaved
  split
  · exact retireIfEnded_canonical (resumeGroup_canonical h)
  · exact retireIfEnded_canonical (resumeGroup_canonical (resumeGroup_canonical h))
  · exact trivial
theorem askPreempt_canonical {prio : Nat} {dies : List Nat} {pair : Bool} {n : Need} (h : Canonical s) : Canonical (askPreempt s q prio dies
    pair n) := by
  unfold askPreempt
  dsimp only
  split
  · exact h
  · split
    · exact requestPreempt_canonical h
    · exact h
theorem tryWork_canonical {w : Work} (h : Canonical s) : Canonical (tryWork s q w).2 := by
  have hp (s1 : State) (cores : List Nat) (h : Canonical s1) : OptKept (match w with
      | .fresh p => dispatchFresh s1.tick1.tick1 q p cores
      | .resume g => dispatchSaved s1.tick1.tick1 g cores) := by
    split
    · exact dispatchFresh_kept (State.tick1_canonical (State.tick1_canonical h))
    · exact dispatchSaved_kept (State.tick1_canonical (State.tick1_canonical h))
  have he : (match w with
    | .fresh p => tableEntry s q p
    | .resume _ => .ok 0 s).Kept := by
    split
    · exact tableEntry_kept h
    · exact h
  unfold tryWork
  dsimp only
  split
  · next e =>
    have h1 := canonical_of_fault e he
    split
    · exact settle_canonical (postComplete_canonical (updPkt_canonical h1))
    · exact h1
  · next e => exact canonical_of_wait e he
  · next v s1 e =>
    have h1 := canonical_of_ok e he
    split
    · next e2 => exact withdrawPreempt_canonical (canonical_of_some e2 (optKept_bind fun _ => hp _ _ h1))
    · dsimp only
      have h2 : Canonical (match (generalizing := false) w with
        | .fresh p => updPkt s1 q p.seq (fun p => { p with spillFrom := some (p.spillFrom.getD s.cycle) })
        | .resume _ => s1) := by
        split
        · exact updPkt_canonical h1
        · exact h1
      exact Canonical.ite h2 (askPreempt_canonical h2)
theorem clearDeficits_canonical (h : Canonical s) : Canonical (clearDeficits s) := h.keep
theorem visit_canonical {k : Nat} {a : Nat} {l : List Nat} (h : Canonical s) : Canonical (visit k s a l) := by
  induction k generalizing s a l with
  | zero => exact h
  | succ n ih =>
    unfold visit
    extract_lets t stay q s1 s2 pass
    have h2 : Canonical s2 := Canonical.keep (Canonical.ite h h.keep : Canonical s1)
    have hpass {s} (h : Canonical s) : Canonical (pass s) := ih h.keep
    refine .ite h ?_
    split
    · exact h2
    · exact .ite (hpass h2) (.ite (tryWork_canonical h2).keep (hpass (tryWork_canonical h2)))
theorem execGroupDispatch_kept (h : Canonical s) : Kept (execGroupDispatch s) := by
  unfold execGroupDispatch
  split
  · exact h
  · exact clearDeficits_canonical (visit_canonical (clearDeficits_canonical (rejectPkts_canonical h)))

end Sys2Proof.Machine
end

section
/-! SUPPORT. Memory stays canonical in this part of the model, one lemma per function. Promotion requests of the host and of other modules
(R298, R299, R301, R302). A request of the module's own `ld.acqp` is made by the instruction itself (`execLdAcqp`). -/
namespace Sys2Proof.Machine

variable {s : State} {h : BitVec 64}

theorem execProma_kept {v : BitVec 64} (h : Canonical s) : Kept (execProma v s) := by
  unfold execProma
  split
  · exact h
  · split
    · exact h.keep
    · exact Kept.ite (answerProms_canonical h) (State.postE_canonical h.keep)
theorem execPromoteRequest_kept {line : BitVec 45} {c : BitVec 8} {src : BitVec 7} {tag : BitVec 16} (hc : Canonical s) : Kept
    (execPromoteRequest h line c src tag s) := by
  unfold execPromoteRequest
  dsimp only
  split
  · exact answerProm_canonical hc
  · exact Canonical.ite (answerProm_canonical hc) (promEnter_canonical hc)
theorem execPromotion_kept (hc : Canonical s) : Kept (execPromotion h s) := by
  unfold execPromotion
  dsimp only
  split
  · exact Canonical.ite (settle_canonical (State.dropGroup_canonical (serve_canonical hc))) (serve_canonical hc)
  · exact serve_canonical hc

end Sys2Proof.Machine
end

section
/-! SUPPORT. Memory stays canonical in this part of the model, one lemma per function. Invalidation requests of the host (R321 to R323),
translation walks (R317, R319), and migrations: their submission by the host (R326) and the steps of the engines (Table 17-3). -/
namespace Sys2Proof.Machine

variable {s : State} {sync : BitVec 1} {va : BitVec 41} {c : BitVec 8} {m : Migr} {pa n hn e : Nat}

theorem answerIl_canonical {res : Nat} (h : Canonical s) : Canonical (answerIl s res) := h.keep
theorem ilRequest_kept {kind : Nat} {ctx : Nat} {va : Nat} (h : Canonical s) : Kept (ilRequest s kind ctx va sync) :=
  answerIl_canonical (Canonical.ite (ilApplyAll_canonical (ilAppend_canonical h)) (ilAppend_canonical h))
theorem execIlcmdInvalidatePage_kept (h : Canonical s) : Kept (execIlcmdInvalidatePage c va sync s) := ilRequest_kept h
theorem execIlcmdInvalidateContext_kept (h : Canonical s) : Kept (execIlcmdInvalidateContext c sync s) := ilRequest_kept h
theorem execIlcmdInvalidateAll_kept (h : Canonical s) : Kept (execIlcmdInvalidateAll sync s) := ilRequest_kept h
theorem execIlcmdSync_kept (h : Canonical s) : Kept (execIlcmdSync s) := answerIl_canonical (ilApplyAll_canonical h)
theorem execInvalidationAppend_kept {kind : BitVec 2} (h : Canonical s) : Kept (execInvalidationAppend kind c va s) :=
  Kept.ite h (ilAppend_canonical h)
theorem execPageWalk_kept {core : BitVec 7} {va : BitVec 64} (h : Canonical s) : Kept (execPageWalk core c va s) := Kept.ite h (findLeaf_canonical h)
theorem execMigh_kept {v : BitVec 64} (h : Canonical s) : Kept (execMigh v s) := by
  unfold execMigh
  dsimp only
  split
  · exact h
  · split
    · next e => exact Canonical.keep (canonical_of_wait e (physAsk_kept h.keep))
    · next e1 => exact Canonical.keep (canonical_of_fault e1 (physAsk_kept h.keep))
    · next e =>
      split
      · exact Canonical.keep (canonical_of_ok e (physAsk_kept h.keep))
      · split
        · exact Canonical.keep (canonical_of_ok e (physAsk_kept h.keep))
        · split <;> exact Canonical.keep (migSubmit_canonical (canonical_of_ok e (physAsk_kept h.keep)))
theorem rangeL1_kept (h : Canonical s) : OptKept (rangeL1 s pa n) := allOf_kept h (fun _ h1 _ => allOf_kept h1 (fun _ h2 _ => l1Flush_kept h2))
theorem rangeJournals_canonical (h : Canonical s) : Canonical (rangeJournals s pa n) := h.keep
theorem rangeL2_kept (h : Canonical s) : OptKept (rangeL2 s pa n) :=
  OptKept.map (allOf_kept h (fun _ h1 _ => homeClean_kept h1)) (fun _ h1 => rangeJournals_canonical h1)
theorem rangeDrain_kept (h : Canonical s) : OptKept (rangeDrain s pa n) := OptKept.bind (rangeL1_kept h) (fun _ h1 => rangeL2_kept h1)
theorem rangeDrop_canonical (h : Canonical s) : Canonical (rangeDrop s pa n) := Canonical.keep (rangeJournals_canonical h)
theorem rangeFlush_kept (h : Canonical s) : OptKept (rangeFlush s pa n) := OptKept.map (rangeDrain_kept h) (fun _ h1 => rangeDrop_canonical h1)
theorem ftcRange_canonical (h : Canonical s) : Canonical (ftcRange s hn pa n) := by
  unfold ftcRange
  split
  · exact h
  · exact foldl_canonical (fun _ _ h1 => Canonical.ite h1 (ftcInvalidate_canonical (ftcWriteGood_canonical (makeRoom_canonical h1)))) h
theorem serveRange_canonical (h : Canonical s) : Canonical (serveRange s pa n) :=
  foldl_canonical (fun _ _ h1 => foldl_canonical (fun _ _ h2 => serveEntry_canonical h2) h1) h
theorem settleRange_canonical (h : Canonical s) : Canonical (settleRange s hn pa n) := ftcRange_canonical (serveRange_canonical h)
theorem leafCas_kept {new : Nat} (h : Canonical s) : (leafCas s m new).Kept := by
  unfold leafCas
  dsimp only
  split
  · split
    · next e1 => exact canonical_of_ok e1 (devEnd_kept (devAsk_kept h))
    · next e2 => exact canonical_of_fault e2 (devEnd_kept (devAsk_kept h))
    · next e1 => exact canonical_of_wait e1 (devEnd_kept (devAsk_kept h))
  · split
    · next e => exact canonical_of_some₂ e (homeAtomic_kept h)
    · exact atomicMissed_canonical h
theorem updMigr_canonical {f : Migr → Migr} (h : Canonical s) : Canonical (updMigr s e n f) := h.keep
theorem migInvalidate_canonical (h : Canonical s) : Canonical (migInvalidate s m) := ilApplyAll_canonical (ilAppend_canonical h)
theorem touchRange_canonical (h : Canonical s) : Canonical (touchRange s pa n) :=
  Canonical.ite h (foldl_canonical (fun _ _ h1 => touchRow_canonical h1) h)
theorem noticeRange_canonical (h : Canonical s) : Canonical (noticeRange s pa n) := foldl_canonical (fun _ _ h1 => noticeWrite_canonical h1) h
theorem followPage_canonical {leaf : W64} (h : Canonical s) : Canonical (followPage s m leaf) := Canonical.keep (State.updGroups_canonical h)
theorem migFinish_kept (h : Canonical s) : Kept (migFinish s e n m) := by
  unfold migFinish
  split
  · split
    · next e2 => exact updMigr_canonical (canonical_of_ok e2 (devWrite_kept h))
    · next e3 => exact updMigr_canonical (eventRecord_canonical (canonical_of_fault e3 (devWrite_kept h)))
    · next e2 => exact canonical_of_wait e2 (devWrite_kept h)
  · split
    · exact h.keep
    · split
      · exact h
      · split
        · next e1 => exact Canonical.keep (canonical_of_ok e1 (devCount_kept h))
        · next e2 => exact Canonical.keep (eventRecord_canonical (canonical_of_fault e2 (devCount_kept h)))
        · next e1 => exact canonical_of_wait e1 (devCount_kept h)
theorem migCopy_canonical (h : Canonical s) : Canonical (migCopy s m).2 :=
  noticeRange_canonical (copyPage_canonical _ _ _ (settleRange_canonical (settleRange_canonical h)))
theorem migFetch_kept (h : Canonical s) : (migFetch s m).Kept := by
  unfold migFetch
  dsimp only
  split
  · next e => exact homeWrite_canonical (canonical_of_ok e (devEnd_kept (devAsk_kept h)))
  · next e1 => exact canonical_of_fault e1 (devEnd_kept (devAsk_kept h))
  · next e => exact canonical_of_wait e (devEnd_kept (devAsk_kept h))
theorem execMigrationStep_kept {e : BitVec 1} {n : BitVec 4} (h : Canonical s) : Kept (execMigrationStep e n s) := by
  unfold execMigrationStep
  extract_lets e n abort
  split
  · exact h
  · extract_lets size swap stable r
    have hswap {new follow f} (hf : ∀ s, Canonical s → Canonical (follow s)) : Kept (swap new follow f) := by
      unfold swap
      split
      · next e => exact updMigr_canonical (hf _ (migInvalidate_canonical (canonical_of_ok e (leafCas_kept h))))
      · next e => exact updMigr_canonical (canonical_of_ok e (leafCas_kept h))
      · next e => exact canonical_of_fault e (leafCas_kept h)
      · next e => exact canonical_of_wait e (leafCas_kept h)
    clear_value swap stable
    have habort {s} (h : Canonical s) : Kept (abort s) := updMigr_canonical h
    split
    · exact hswap fun _ h => h
    · split
      · next e => exact updMigr_canonical (settleRange_canonical (canonical_of_some e (rangeFlush_kept h)))
      · exact h
    · refine .ite (hswap fun _ h => h) (.ite ?_ (.ite (updMigr_canonical (migCopy_canonical h)) (habort (migCopy_canonical h))))
      split
      · next e => exact updMigr_canonical (canonical_of_ok e (migFetch_kept h))
      · next e => exact habort (canonical_of_ok e (migFetch_kept h))
      · next e => exact habort (canonical_of_fault e (migFetch_kept h))
      · next e => exact canonical_of_wait e (migFetch_kept h)
    · exact hswap fun _ h => followPage_canonical h
    · refine .ite (updMigr_canonical (rangeDrop_canonical h)) ?_
      split
      · next e => exact updMigr_canonical (canonical_of_some e (rangeFlush_kept h))
      · exact h
    · exact migFinish_kept h

end Sys2Proof.Machine
end

section
/-! SUPPORT. Memory stays canonical in this part of the model, one lemma per function. The host's side of the module: its registers (R367,
R368, Table 20-1), its reads and writes of memory (R306, R332), the configuration of the far-tier caches (R282), attestation (R366), and the
modes of the fibre ports (R368). -/
namespace Sys2Proof.Machine

variable {s : State} {n : BitVec 2} {pa : BitVec 52} {v : W64}

theorem State.updHost_canonical {f : HostRegs → HostRegs} (h : Canonical s) : Canonical (s.updHost f) := h.keep
theorem State.postFront_canonical {e : Event} (h : Canonical s) : Canonical (s.postFront e) := h.keep
theorem hostError_canonical {pa : Nat} (h : Canonical s) : Canonical (hostError s pa) := eventRecord_canonical h.keep
theorem writeCtxcmd_canonical (h : Canonical s) : Canonical (writeCtxcmd s v) := by
  unfold writeCtxcmd
  split
  · exact h
  · split
    · exact answerCtx_canonical (State.updHost_canonical h)
    · exact State.postFront_canonical (State.updHost_canonical h)
    · exact State.postFront_canonical (State.updHost_canonical h)
    · exact State.postFront_canonical (State.updHost_canonical h)
    · exact State.postFront_canonical (State.updHost_canonical h)
    · exact answerCtx_canonical (State.updHost_canonical h)
theorem writeKcmd_canonical (h : Canonical s) : Canonical (writeKcmd s v) := by
  unfold writeKcmd
  split
  · exact h
  · split
    · exact answerKern_canonical (State.updHost_canonical h)
    · exact State.postFront_canonical (State.updHost_canonical h)
    · exact State.postFront_canonical (State.updHost_canonical h)
    · exact answerKern_canonical (State.updHost_canonical h)
theorem writeQcmd_canonical (h : Canonical s) : Canonical (writeQcmd s v) := by
  unfold writeQcmd
  split
  · exact h
  · split
    · exact answerQueue_canonical (State.updHost_canonical h)
    · exact State.postFront_canonical (State.updHost_canonical h)
    · exact State.postFront_canonical (State.updHost_canonical h)
    · exact State.postFront_canonical (State.updHost_canonical h)
    · exact State.postFront_canonical (State.updHost_canonical h)
    · exact State.postFront_canonical (State.updHost_canonical h)
    · exact answerQueue_canonical (State.updHost_canonical h)
theorem writeIlcmd_canonical (h : Canonical s) : Canonical (writeIlcmd s v) := by
  unfold writeIlcmd
  dsimp only
  split
  · exact h
  · split
    · exact answerIl_canonical (State.updHost_canonical h)
    · split
      · exact State.postFront_canonical (State.updHost_canonical h)
      · exact State.postFront_canonical (State.updHost_canonical h)
      · exact State.postFront_canonical (State.updHost_canonical h)
      · split
        · exact State.postFront_canonical (State.updHost_canonical h)
        · exact answerIl_canonical (State.updHost_canonical h)
theorem execHostRegisterWrite_kept {off : BitVec 12} {v : BitVec 64} (h : Canonical s) : Kept (execHostRegisterWrite off v s) := by
  refine .ite (hostError_canonical h) (.ite h (.ite h.keep (.ite h (.ite h.keep (.ite h.keep (.ite h ?_))))))
  split
  · exact h.keep
  · exact writeCtxcmd_canonical h
  · exact Canonical.ite h h.keep
  · exact writeKcmd_canonical h
  · exact h.keep
  · exact writeQcmd_canonical h
  · exact h.keep
  · exact h.keep
  · exact h.keep
  · exact h.keep
  · exact h.keep
  · exact h.keep
  · exact writeIlcmd_canonical h
  · exact h.keep
  · exact h.keep
  · exact h.keep
  · exact h.keep
  · exact h.keep
  · exact h.keep
  · exact h.keep
  · exact h
theorem hostAccess_kept {off : Nat} {n : Nat} {w : Option W64} (h : Canonical s) : Kept (hostAccess off n w s) := by
  unfold hostAccess
  split
  · exact hostError_canonical h
  · split
    · exact hostError_canonical h
    · exact execHostRegisterWrite_kept h
    · exact h.keep
theorem msiEntry_kept {port : BitVec 2} {v : BitVec 11} {masked : Bool} (h : Canonical s) : Kept (msiEntry port v masked s) :=
  flushMsi_canonical h.keep
theorem execHostMemoryRead_kept {n : BitVec 8} (h : Canonical s) : Kept (execHostMemoryRead pa n s) := by
  unfold execHostMemoryRead
  dsimp only
  split
  · exact hostError_canonical h
  · split
    · exact h
    · exact Kept.ite (hostError_canonical (physRead_canonical h)) (Canonical.keep (physRead_canonical h))
theorem hostBytes_canonical {k : Nat} {a : Nat} {l : List Byte} (h : Canonical s) : Canonical (hostBytes k s a l) := by
  induction k generalizing s a l with
  | zero =>
    unfold hostBytes
    exact h
  | succ n ih =>
    unfold hostBytes
    exact Canonical.ite h (ih (physWrite_canonical h))
theorem execHostMemoryWrite_kept {bytes : List (BitVec 8)} (h : Canonical s) : Kept (execHostMemoryWrite pa bytes s) :=
  Kept.ite h (Kept.ite (hostError_canonical h) (Kept.ite h (hostBytes_canonical h)))
theorem execFtccfg_kept {v : BitVec 64} (h : Canonical s) : Kept (execFtccfg n v s) := by
  unfold execFtccfg
  dsimp only
  split
  · exact h
  · split
    · exact State.updNDie_canonical h
    · exact State.postE_canonical (State.updNDie_canonical (Canonical.ite h (foldl_canonical (fun _ _ h1 => ftcWriteOut_canonical
        (makeRoom_canonical h1)) h)))
theorem execFtcChangeDone_kept (h : Canonical s) : Kept (execFtcChangeDone n s) := by
  unfold execFtcChangeDone
  dsimp only
  split
  · exact h
  · split
    · exact State.updNDie_canonical (Canonical.ite h (ftcLeave_canonical _ _ _ _ h))
    · exact Canonical.keep (touchRange_canonical (State.updNDie_canonical (Canonical.ite h (ftcLeave_canonical _ _ _ _ h))))
theorem execAttaddr_kept {v : BitVec 64} (h : Canonical s) : Kept (execAttaddr v s) := Kept.ite h (State.updHost_canonical h)
theorem execAttestationReportDone_kept {rep : List (BitVec 8)} (h : Canonical s) : Kept (execAttestationReportDone rep s) := by
  unfold execAttestationReportDone
  dsimp only
  split
  · exact h
  · split
    · exact Canonical.ite h.keep (State.updHost_canonical h.keep)
    · split
      · next e => exact canonical_of_wait e (physAsk_kept h)
      · next e1 => exact canonical_of_fault e1 (physAsk_kept h)
      · next e =>
        split
        · exact Canonical.keep (physWrite_canonical (canonical_of_ok e (physAsk_kept h)))
        · exact State.updHost_canonical (Canonical.keep (physWrite_canonical (canonical_of_ok e (physAsk_kept h))))
theorem execFibmodeApply_kept {port : BitVec 1} (h : Canonical s) : Kept (execFibmodeApply port s) :=
  Kept.ite h (postAdmit_canonical (tellComb_canonical (State.updStr_canonical h)))

end Sys2Proof.Machine
end

section
/-! SUPPORT. Memory stays canonical in this part of the model, one lemma per function. What the memory system does on its own: write queues
(R276), posted reductions (R148), fills (R271), refresh (R278), conversions of local banks (R192), far writes (R285), and the loss of
storage and corrected errors (R334). -/
namespace Sys2Proof.Machine

variable {s : State} {line : BitVec 45} {bank : BitVec 5} {core : BitVec 7}

theorem execWriteQueueRequest_kept {n : BitVec 2} (h : Canonical s) : Kept (execWriteQueueRequest n s) := by
  unfold execWriteQueueRequest
  dsimp only
  split
  · exact h
  · split
    · exact makeRoom_canonical h
    · exact performRed_canonical (State.updNDie_canonical (makeRoom_canonical h))
theorem execL2ReductionApplied_kept {die : BitVec 4} (h : Canonical s) : Kept (execL2ReductionApplied die s) := by
  unfold execL2ReductionApplied
  split
  · exact h
  · exact OptKept.getD (applyRed_kept (State.updDie_canonical h)) h
theorem execCacheFill_kept {l2 : BitVec 1} {unit : BitVec 7} {victim : BitVec 45} (h : Canonical s) : Kept (execCacheFill l2 unit line victim s) := by
  unfold execCacheFill
  dsimp only
  split
  · split
    · exact h
    · split
      · exact h
      · split
        · exact h
        · split
          · next e2 => exact l2Ensure_canonical (canonical_of_some e2 (OptKept.ite h (l2Evict_kept h)))
          · exact h
  · split
    · exact h
    · split
      · exact h
      · split
        · exact h
        · split
          · exact h
          · exact OptKept.getD (OptKept.bind (OptKept.ite h (l1Flush_kept h)) (fun _ h1 => l1Fill_kept h1)) h
theorem execRefresh_kept {stack : BitVec 4} {row : BitVec 40} (h : Canonical s) : Kept (execRefresh stack row s) := Kept.ite h h.keep
theorem execBankFillDone_kept (h : Canonical s) : Kept (execBankFillDone core bank s) := by
  unfold execBankFillDone
  dsimp only
  split
  · exact h
  · exact Kept.ite h (State.postE_canonical (State.updCore_canonical h))
theorem execBankWritebackDone_kept (h : Canonical s) : Kept (execBankWritebackDone core bank s) := by
  unfold execBankWritebackDone
  dsimp only
  split
  · exact h
  · split
    · exact h
    · exact OptKept.getD (OptKept.map (allOf_kept h (fun _ h1 _ => l1Flush_kept h1)) (fun _ h1 => State.updCore_canonical h1)) h
theorem execFarWriteCompletion_kept (h : Canonical s) : Kept (execFarWriteCompletion line s) := h.keep
theorem execStorageLost_kept {far : BitVec 1} {idx : BitVec 4} (h : Canonical s) : Kept (execStorageLost far idx s) :=
  Kept.ite h (eventRecord_canonical h.keep)
theorem execCorrectableError_kept {u : BitVec 8} {idx : BitVec 16} {count : BitVec 32} (h : Canonical s) : Kept (execCorrectableError u idx
    count s) :=
  noteCorrected_canonical h

end Sys2Proof.Machine
end

section
/-! SUPPORT. Memory stays canonical in this part of the model, one lemma per function. The reduction slots of the collective engine (R356):
what the other members post and contribute is kept in them, and the switch ALU combines contributions in the order of R355. -/
namespace Sys2Proof.Machine

theorem keepMsg_canonical {s : State} {x : CollMsg} (h : Canonical s) : Canonical (keepMsg s x) := h.keep

end Sys2Proof.Machine
end

section
/-! SUPPORT. Memory stays canonical in this part of the model, one lemma per function. Avdon links: their states (R340, Table 19-1), flits
and replay (R341 to R344), routes and reroutes (R339, R345), and safe mode (R363). -/
namespace Sys2Proof.Machine

variable {s : State} {n : BitVec 4} {p : Packet}

theorem enterSafe_canonical {reason : Nat} (h : Canonical s) : Canonical (enterSafe s reason) := h.keep
theorem withReroutes_canonical {s' : State} (hs' : Canonical s') : Canonical (withReroutes s s') := hs'.keep
theorem execRouteWrite_kept {n : BitVec 6} {v : BitVec 64} (h : Canonical s) : Kept (execRouteWrite n v s) :=
  Kept.ite h (flushOutbox_canonical (withReroutes_canonical (State.updHost_canonical h)))
theorem execRerouteResend_kept {m : BitVec 6} (h : Canonical s) : Kept (execRerouteResend m s) := by
  unfold execRerouteResend
  dsimp only
  split
  · exact h
  · exact Kept.ite h (foldl_canonical (fun _ _ h1 => enqueue_canonical h1) (State.updDest_canonical h))
theorem linkReady_canonical {n : Nat} {v : Nat} (h : Canonical s) : Canonical (linkReady s n v) := h.keep
theorem linkLost_canonical {n : Nat} {st : LinkState} (h : Canonical s) : Canonical (linkLost s n st) :=
  eventRecord_canonical (withReroutes_canonical (linkReady_canonical (State.updLink_canonical h)))
theorem execLinkTrained_kept {waves : BitVec 5} {neighbour : BitVec 6} (h : Canonical s) : Kept (execLinkTrained n waves neighbour s) := by
  unfold execLinkTrained
  dsimp only
  split
  · exact h
  · split
    · exact State.postE_canonical h
    · split
      · exact enterSafe_canonical h
      · split
        · exact enterSafe_canonical h
        · exact flushOutbox_canonical (withReroutes_canonical (linkReady_canonical (State.updLink_canonical h)))
theorem execLinkTrainingFailed_kept (h : Canonical s) : Kept (execLinkTrainingFailed n s) :=
  Kept.ite h (Kept.ite (linkLost_canonical (State.updLink_canonical h)) (State.updLink_canonical h))
theorem execWavelengthLost_kept (h : Canonical s) : Kept (execWavelengthLost n s) := by
  unfold execWavelengthLost
  dsimp only
  split
  · exact h
  · exact Kept.ite (State.updLink_canonical h) (Kept.ite (State.updLink_canonical h) (linkLost_canonical h))
theorem execLightLost_kept (h : Canonical s) : Kept (execLightLost n s) := by
  unfold execLightLost
  dsimp only
  split
  · exact h
  · exact h
  · exact linkLost_canonical h
theorem execLinkManagementReset_kept (h : Canonical s) : Kept (execLinkManagementReset n s) :=
  Kept.ite h (withReroutes_canonical (linkReady_canonical (State.updLink_canonical h)))
theorem execLinkLightDetected_kept (h : Canonical s) : Kept (execLinkLightDetected n s) := Kept.ite h (State.updLink_canonical h)
theorem sendNote_canonical {n : Nat} {k : SNote} (h : Canonical s) : Canonical (sendNote s n k) :=
  foldl_canonical (fun _ _ h1 => sendReply_canonical h1) h
theorem sendNotes_canonical (h : Canonical s) : Canonical (sendNotes s) :=
  foldl_canonical (fun _ _ h1 => Canonical.ite h1 (foldl_canonical (fun _ _ h2 => sendNote_canonical h2) (State.updStr_canonical h1))) h
theorem takeAck_canonical {n : Nat} {ack : Nat} (h : Canonical s) : Canonical (takeAck s n ack) :=
  Canonical.ite h (flushOutbox_canonical (State.updLink_canonical h))
theorem resendAll_canonical {n : Nat} (h : Canonical s) : Canonical (resendAll s n) :=
  Canonical.ite h (Canonical.ite (linkLost_canonical h) (State.updLink_canonical h))
theorem execNakReceive_kept {seq : BitVec 12} (h : Canonical s) : Kept (execNakReceive n seq s) :=
  Kept.ite h (resendAll_canonical (takeAck_canonical h))
theorem execAckTimeout_kept (h : Canonical s) : Kept (execAckTimeout n s) :=
  Kept.ite h (Kept.ite (linkLost_canonical h) (resendAll_canonical (State.updLink_canonical h)))
theorem takeMatch_canonical (h : Canonical s) : Canonical (takeMatch s p) := by
  unfold takeMatch
  dsimp only
  split
  · exact keepMsg_canonical h
  · exact Canonical.ite (State.postE_canonical h.keep) h.keep
theorem takePush_canonical (h : Canonical s) : Canonical (takePush s p) := Canonical.ite (keepMsg_canonical h) h
theorem takePull_canonical (h : Canonical s) : Canonical (takePull s p) := Canonical.ite h (sendReply_canonical h)
theorem takePacket_canonical {n : Nat} (h : Canonical s) : Canonical (takePacket s n p) := by
  unfold takePacket
  split
  · exact enterSafe_canonical h
  · split
    · exact enqueue_canonical h
    · split
      · exact State.postE_canonical h
      · exact State.postE_canonical h
      · exact State.postE_canonical h
      · exact State.postE_canonical h
      · exact State.postE_canonical h
      · exact State.postE_canonical h
      · exact takePush_canonical h
      · exact takePull_canonical h
      · exact takeMatch_canonical h
      · split
        · exact State.postE_canonical h
        · exact State.postE_canonical h
        · exact State.postE_canonical h
        · exact State.postE_canonical h
        · exact h
      · exact State.postE_canonical h
      · exact Canonical.ite (eventRecord_canonical h) (State.postE_canonical h)
theorem discardFlit_canonical {n : Nat} (h : Canonical s) : Canonical (discardFlit s n) := State.updLink_canonical h
theorem execFlitReceive_kept {flit : BitVec 512} (h : Canonical s) : Kept (execFlitReceive n flit s) := by
  unfold execFlitReceive
  dsimp only
  split
  · exact h
  · split
    · exact discardFlit_canonical (noteCorrected_canonical h)
    · split
      · exact takeAck_canonical h
      · exact resendAll_canonical (takeAck_canonical h)
      · split
        · exact discardFlit_canonical (takeAck_canonical h)
        · split
          · exact takePacket_canonical (State.updLink_canonical (takeAck_canonical h))
          · exact State.updLink_canonical (takeAck_canonical h)

end Sys2Proof.Machine
end

section
/-! SUPPORT. Memory stays canonical in this part of the model, one lemma per function. Requests of other modules performed at this home
(R346, R347), the answers to this module's own (R346, R348), and interrupts by handle that arrive from elsewhere (R125). -/
namespace Sys2Proof.Machine

variable {s : State} {p : Packet}

theorem remoteAtomic_canonical (h : Canonical s) : Canonical (remoteAtomic s p).2.2 := by
  unfold remoteAtomic
  dsimp only
  split
  · exact h
  · split
    · next e =>
      have h1 := canonical_of_some₂ e (homeAtomic_kept h)
      exact h1
    · exact atomicMissed_canonical h
theorem performRemote_canonical (h : Canonical s) : Canonical (performRemote s p).2 := by
  unfold performRemote
  split
  · dsimp only
    split
    · exact h
    · split <;> exact physRead_canonical h
  · dsimp only
    split
    · exact h
    · exact homeWrite_canonical h
  · exact remoteAtomic_canonical h
  · exact remoteAtomic_canonical h
theorem execRemoteRequest_kept (h : Canonical s) : Kept (execRemoteRequest p s) := by
  unfold execRemoteRequest
  dsimp only
  split
  · exact State.postE_canonical h
  · split
    · exact State.postE_canonical h
    · split
      · exact eventRecord_canonical h
      · split
        · exact h
        · split
          · exact sendReply_canonical h
          · split
            · exact h.keep
            · exact sendReply_canonical (Canonical.ite (State.updDest_canonical (performRemote_canonical h)) (performRemote_canonical h))
theorem remoteRedFault_canonical {r : RedReq} {status : Nat} (h : Canonical s) : Canonical (remoteRedFault s r status) := State.updGroup_canonical h
theorem execRemoteReply_kept (h : Canonical s) : Kept (execRemoteReply p s) := by
  unfold execRemoteReply
  split
  · exact h
  · refine Canonical.keep (State.updGroup_canonical ?_)
    split
    · split
      · exact State.updDest_canonical h.keep
      · exact remoteRedFault_canonical (State.updDest_canonical h.keep)
    · exact State.updDest_canonical h.keep
theorem execInterruptPacket_kept {h : BitVec 64} {v : BitVec 32} {c : BitVec 8} {src : BitVec 6} {tag : BitVec 16} (hc : Canonical s) : Kept
    (execInterruptPacket h v c src tag s) :=
  sendReply_canonical (interruptGroup_canonical hc)

end Sys2Proof.Machine
end

section
/-! SUPPORT. Memory stays canonical in this part of the model, one lemma per function. The collective engine at this member (R304, R352 to
R357): matching, buckets, the order in which contributions combine, and failures. What the other members post and contribute arrives in
packets and is kept in the slots (R356, log entries 16, 93). -/
namespace Sys2Proof.Machine

variable {s : State} {seq : BitVec 32} {cg : BitVec 8} {c : Coll} {e : Exc} {va n status b z : Nat}

theorem Coll.tr_kept (h : Canonical s) : (c.tr s va).Kept := by
  unfold Coll.tr
  split <;> exact h
theorem Coll.drain_kept (h : Canonical s) : OptKept (c.drain s va n) := allOf_kept h (fun _ h1 _ => rangeDrain_kept h1)
theorem dropClean_canonical {pa : Nat} (h : Canonical s) : Canonical (dropClean s pa n) := h.keep
theorem updColl_canonical {f : Coll → Coll} (h : Canonical s) : Canonical (updColl s c f) := h.keep
theorem collEnd_canonical (h : Canonical s) : Canonical (collEnd s c status) := by
  unfold collEnd
  extract_lets v s1 s2
  have written := devWriteBy_kept (tr := c.tr) (va := c.blk.stat) (n := 8) (v := v) (fun _ h _ => Coll.tr_kept h) h
  have h1 : Canonical s1 := by
    refine .ite h ?_
    split
    · next e => exact canonical_of_ok e written
    · next e => exact canonical_of_fault e written
    · next e => exact canonical_of_wait e written
  exact .ite h1.keep (eventRecord_canonical h1.keep)
theorem collTell_canonical {cause : Nat} {detail : Nat} (h : Canonical s) : Canonical (collTell s c cause detail) :=
  foldl_canonical (fun _ _ h1 => sendReply_canonical h1) h
theorem collFail_canonical (h : Canonical s) : Canonical (collFail s c status e) := State.updGroup_canonical (collEnd_canonical h)
theorem collFailHere_canonical (h : Canonical s) : Canonical (collFailHere s c status e) := collTell_canonical (collFail_canonical h)
theorem collFailTold_canonical (h : Canonical s) : Canonical (collFailTold s c status e) := collTell_canonical (collFail_canonical h)
theorem execCollectiveMatch_kept {posts : List (BitVec 64 × BitVec 64)} (h : Canonical s) : Kept (execCollectiveMatch cg seq posts s) := by
  unfold execCollectiveMatch
  split
  · exact h
  · split
    · exact h
    · split
      · exact collFailHere_canonical h
      · split
        · exact collEnd_canonical (updColl_canonical h.keep)
        · exact updColl_canonical h.keep
theorem execCollectiveMatchTimeout_kept (h : Canonical s) : Kept (execCollectiveMatchTimeout cg seq s) := by
  unfold execCollectiveMatchTimeout
  split
  · exact h
  · exact Kept.ite h (collFailHere_canonical h)
theorem bucketDrain_kept (h : Canonical s) : OptKept (bucketDrain s c b) :=
  OptKept.bind (OptKept.ite (Coll.drain_kept h) h) (fun _ h1 => allOf_kept h1 (fun _ h2 _ => Coll.drain_kept h2))
theorem bucketFired_kept (h : Canonical s) : (bucketFired s c b).Kept :=
  Acc.Kept.ite h (Acc.bind_kept (devReadBy_kept (fun _ h1 _ => Coll.tr_kept h1) h) (fun _ _ h1 => h1))
theorem collRead_kept (h : Canonical s) : (collRead s c va n z).Kept :=
  Acc.bind_kept (devReadBy_kept (fun _ h1 _ => Coll.tr_kept h1) h) (fun _ _ h1 => h1)
theorem ownPart_kept (h : Canonical s) : (ownPart s c b).Kept := Acc.Kept.ite h (Acc.bind_kept (collRead_kept h) (fun _ _ h1 => h1))
theorem pushPart_canonical {l : List W32} (h : Canonical s) : Canonical (pushPart s c b l) :=
  foldl_canonical (fun _ _ h1 => foldl_canonical (fun _ _ h2 => sendReply_canonical h2) h1) (keepMsg_canonical h)
theorem execCollectiveBucketStart_kept {b : BitVec 32} (h : Canonical s) : Kept (execCollectiveBucketStart cg seq b s) := by
  unfold execCollectiveBucketStart
  dsimp only
  split
  · exact h
  · split
    · exact h
    · split
      · next e2 => exact collFailHere_canonical (canonical_of_fault e2 (bucketFired_kept h))
      · next e1 => exact canonical_of_wait e1 (bucketFired_kept h)
      · next e1 => exact canonical_of_ok e1 (bucketFired_kept h)
      · next e1 =>
        split
        · exact canonical_of_ok e1 (bucketFired_kept h)
        · next e2 =>
          split
          · next e4 => exact collFailHere_canonical (canonical_of_fault e4 (ownPart_kept (canonical_of_some e2 (bucketDrain_kept
              (canonical_of_ok e1 (bucketFired_kept h))))))
          · next e3 => exact canonical_of_wait e3 (ownPart_kept (canonical_of_some e2 (bucketDrain_kept (canonical_of_ok e1 (bucketFired_kept h)))))
          · next e3 => exact updColl_canonical (pushPart_canonical (canonical_of_ok e3 (ownPart_kept (canonical_of_some e2 (bucketDrain_kept
              (canonical_of_ok e1 (bucketFired_kept h)))))))
theorem collWrite_kept {vs : List Nat} (h : Canonical s) : (collWrite s c va z vs).Kept :=
  Acc.bind_kept (devWriteBy_kept (fun _ h1 _ => Coll.tr_kept h1) h) (fun _ _ h1 => foldl_canonical (fun _ _ h2 => dropClean_canonical h2) h1)
theorem bucketWrite_kept {xs : List (List W32)} (h : Canonical s) : (bucketWrite s c b xs).Kept := by
  refine Acc.bind_kept ?_ (fun _ _ h1 => ?_)
  · split
    · exact h
    · refine Acc.bind_kept ?_ (fun _ _ h1 => Acc.bind_kept (foldl_kept (fun _ _ h2 => Acc.bind_kept h2 (fun _ _ h3 => collWrite_kept h3)) h1)
        (fun _ _ h2 => updColl_canonical h2))
      split
      · exact h
      · exact ownPart_kept h
  · split
    · exact h1
    · exact Acc.Kept.ite h1 (Acc.bind_kept (devCountBy_kept (fun _ h2 _ => Coll.tr_kept h2) h1) (fun _ _ h2 => h2))
theorem execCollectiveBucketDone_kept {b : BitVec 32} {xs : List (List (BitVec 32))} (h : Canonical s) : Kept (execCollectiveBucketDone cg
    seq b xs s) := by
  unfold execCollectiveBucketDone
  dsimp only
  split
  · exact h
  · split
    · exact h
    · split
      · next e2 => exact collFailHere_canonical (canonical_of_fault e2 (bucketWrite_kept h))
      · next e1 => exact canonical_of_wait e1 (bucketWrite_kept h)
      · next e1 =>
        split
        · exact collEnd_canonical (canonical_of_ok e1 (bucketWrite_kept h))
        · exact updColl_canonical (canonical_of_ok e1 (bucketWrite_kept h))
theorem execCollectiveFailure_kept {cause : BitVec 8} {m : BitVec 6} (h : Canonical s) : Kept (execCollectiveFailure cg seq cause m s) := by
  unfold execCollectiveFailure
  split
  · exact h
  · split
    · exact collFailTold_canonical h
    · exact collFailTold_canonical h
    · exact collFailTold_canonical h
    · split
      · exact collFailHere_canonical h
      · exact collFailTold_canonical h
    · exact h

end Sys2Proof.Machine
end

section
/-! SUPPORT. Memory stays canonical in this part of the model, one lemma per function. Reset and readiness (R363 to R367), power (R370), and
faults of cores with the takeover by a spare (R335, R336). -/
namespace Sys2Proof.Machine

variable {s : State} {f : BitVec 8} {k : Nat} {h : W64}

theorem execPackageReset_kept {modid : BitVec 6} {cxl : BitVec 8} {fibre : BitVec 4} {sigs : BitVec 2} : Kept (execPackageReset modid cxl
    fibre sigs s) :=
  Canonical.ite reset_canonical.keep (enterSafe_canonical reset_canonical.keep)
theorem readyNow_canonical (h : Canonical s) : Canonical (readyNow s k) := by
  unfold readyNow
  split
  · exact postAdmit_canonical (foldl_canonical (fun _ _ h1 => State.postE_canonical h1) h.keep)
  · split
    · exact postAdmit_canonical (foldl_canonical (fun _ _ h1 => State.postE_canonical h1) h.keep)
    · exact foldl_canonical (fun _ _ h1 => State.postE_canonical h1) h.keep
theorem execFunctionReady_kept (h : Canonical s) : Kept (execFunctionReady f s) :=
  Kept.ite h (readyNow_canonical (flushMsi_canonical h.keep))
theorem startString_canonical {n : Nat} (h : Canonical s) : Canonical (startString s n) :=
  tellComb_canonical (Canonical.keep (State.updStr_canonical h))
theorem startFunction_canonical (h : Canonical s) : Canonical (startFunction s k) := by
  unfold startFunction
  refine .ite h.keep (.ite h.keep (.ite (dropBytes_canonical _ _ h.keep) (.ite (dropBytes_canonical _ _ h.keep) ?_)))
  exact .ite h.keep (.ite (startString_canonical h) (.ite h.keep (.ite h.keep
    (.ite (startString_canonical h.keep) (.ite h.keep h)))))
theorem execFunctionRestore_kept (h : Canonical s) : Kept (execFunctionRestore f s) := by
  unfold execFunctionRestore
  dsimp only
  split
  · exact h
  · split
    · split
      · exact Canonical.keep (startFunction_canonical (Canonical.ite h (talkerLeft_canonical h)))
      · exact Kept.ite (Canonical.keep (startFunction_canonical h)) h
    · exact Kept.ite h (withReroutes_canonical (Canonical.keep (startFunction_canonical h)))
theorem execManagementInstall_kept {serial : BitVec 64} {neigh : List (BitVec 7)} (h : Canonical s) : Kept (execManagementInstall serial neigh s) :=
  h.keep
theorem fencePort_canonical {p : Nat} (h : Canonical s) : Canonical (fencePort s p) := Canonical.ite h (eventRecord_canonical h.keep)
theorem execPowerLimitThrottle_kept (h : Canonical s) : Kept (execPowerLimitThrottle s) := by
  unfold execPowerLimitThrottle
  split
  · exact h.keep
  · split
    · exact h
    · exact foldl_canonical (fun _ _ h1 => fencePort_canonical h1) (foldl_canonical (fun _ _ h1 => Canonical.ite h1 (linkLost_canonical h1)) h)
theorem stopForMove_canonical (hc : Canonical s) : Canonical (stopForMove s h) := by
  refine onGroup_canonical hc (fun _ h1 => State.updGrp_canonical ?_)
  split
  · exact State.updGrp_canonical h1
  · exact stopStreams_canonical (retireDue_canonical (settleSeqs_canonical (leaveTraps_canonical h1)))
theorem resumeMoved_canonical {s0 : State} (hs0 : Canonical s0) : Canonical (resumeMoved s0 h) :=
  onGroup_canonical (State.updGroup_canonical (State.updGroups_canonical hs0)) (fun _ h1 => retireIfEnded_canonical h1)
theorem abortMoved_canonical (hc : Canonical s) : Canonical (abortMoved s h) := onGroup_canonical hc (fun _ h1 => abortUnreadable_canonical h1)
theorem execCoreFault_kept {core : BitVec 7} {unreadable : List (BitVec 64)} (h : Canonical s) : Kept (execCoreFault core unreadable s) := by
  unfold execCoreFault
  dsimp only
  split
  · exact h
  · split
    · exact State.updCore_canonical h
    · split
      · exact State.updCore_canonical h
      · next e =>
        split
        · exact State.postE_canonical (eventRecord_canonical (State.updDie_canonical (foldl_canonical (fun _ _ h1 => abortMoved_canonical h1)
            (State.updCore_canonical (canonical_of_some e (l1WbAll_kept (foldl_canonical (fun _ _ h1 => stopForMove_canonical h1) h)))))))
        · exact Canonical.keep (foldl_canonical (fun _ _ h1 => State.updGroup_canonical (requestPreempt_canonical h1)) (eventRecord_canonical
            (Canonical.keep (foldl_canonical (fun _ _ h1 => abortMoved_canonical h1) (State.updCore_canonical (canonical_of_some e
            (l1WbAll_kept (foldl_canonical (fun _ _ h1 => stopForMove_canonical h1) h))))))))
theorem execSpareTakeoverDone_kept {die : BitVec 4} (h : Canonical s) : Kept (execSpareTakeoverDone die s) := by
  unfold execSpareTakeoverDone
  dsimp only
  split
  · exact h
  · refine foldl_canonical (fun _ _ h1 => resumeMoved_canonical h1) ?_
    split
    · next e1 => exact canonical_of_ok e1 (acquire_kept (State.updCore_canonical (State.updDie_canonical h)))
    · next e2 => exact canonical_of_fault e2 (acquire_kept (State.updCore_canonical (State.updDie_canonical h)))
    · next e1 => exact canonical_of_wait e1 (acquire_kept (State.updCore_canonical (State.updDie_canonical h)))

end Sys2Proof.Machine
end

section
/-! SUPPORT. Memory stays canonical in this part of the model, one lemma per function. Scalar register and immediate operations (R127 to
R133), branches and jumps (R134, R135). -/
namespace Sys2Proof.Machine

variable {s : State} {i o : BitVec 15} {d x b : BitVec 5} {n : BitVec 6}

theorem execAdd_kept (h : Canonical s) : Kept (execAdd d x b s) := sAlu_kept h
theorem execSub_kept (h : Canonical s) : Kept (execSub d x b s) := sAlu_kept h
theorem execAnd_kept (h : Canonical s) : Kept (execAnd d x b s) := sAlu_kept h
theorem execOr_kept (h : Canonical s) : Kept (execOr d x b s) := sAlu_kept h
theorem execXor_kept (h : Canonical s) : Kept (execXor d x b s) := sAlu_kept h
theorem execAndn_kept (h : Canonical s) : Kept (execAndn d x b s) := sAlu_kept h
theorem execShl_kept (h : Canonical s) : Kept (execShl d x b s) := sAlu_kept h
theorem execShrN_kept (h : Canonical s) : Kept (execShrN d x b s) := sAlu_kept h
theorem execShrI_kept (h : Canonical s) : Kept (execShrI d x b s) := sAlu_kept h
theorem execCmpltI_kept (h : Canonical s) : Kept (execCmpltI d x b s) := sAlu_kept h
theorem execCmpltN_kept (h : Canonical s) : Kept (execCmpltN d x b s) := sAlu_kept h
theorem execMinI_kept (h : Canonical s) : Kept (execMinI d x b s) := sAlu_kept h
theorem execMaxI_kept (h : Canonical s) : Kept (execMaxI d x b s) := sAlu_kept h
theorem execMinN_kept (h : Canonical s) : Kept (execMinN d x b s) := sAlu_kept h
theorem execMaxN_kept (h : Canonical s) : Kept (execMaxN d x b s) := sAlu_kept h
theorem execMul_kept (h : Canonical s) : Kept (execMul d x b s) := sAlu_kept h
theorem execMulhiI_kept (h : Canonical s) : Kept (execMulhiI d x b s) := sAlu_kept h
theorem execMulhiN_kept (h : Canonical s) : Kept (execMulhiN d x b s) := sAlu_kept h
theorem execQuoI_kept (h : Canonical s) : Kept (execQuoI d x b s) := sAlu_kept h
theorem execQuoN_kept (h : Canonical s) : Kept (execQuoN d x b s) := sAlu_kept h
theorem execRmdI_kept (h : Canonical s) : Kept (execRmdI d x b s) := sAlu_kept h
theorem execRmdN_kept (h : Canonical s) : Kept (execRmdN d x b s) := sAlu_kept h
theorem execSel_kept {c : BitVec 5} (h : Canonical s) : Kept (execSel d x b c s) := sAlu_kept h
theorem execClz_kept (h : Canonical s) : Kept (execClz d x s) := sAlu_kept h
theorem execCtz_kept (h : Canonical s) : Kept (execCtz d x s) := sAlu_kept h
theorem execPopc_kept (h : Canonical s) : Kept (execPopc d x s) := sAlu_kept h
theorem execBswap_kept (h : Canonical s) : Kept (execBswap d x s) := sAlu_kept h
theorem execAddi_kept (h : Canonical s) : Kept (execAddi d x i s) := sAlu_kept h
theorem execAndi_kept (h : Canonical s) : Kept (execAndi d x i s) := sAlu_kept h
theorem execOri_kept (h : Canonical s) : Kept (execOri d x i s) := sAlu_kept h
theorem execXori_kept (h : Canonical s) : Kept (execXori d x i s) := sAlu_kept h
theorem execCmpltiI_kept (h : Canonical s) : Kept (execCmpltiI d x i s) := sAlu_kept h
theorem execCmpltiN_kept (h : Canonical s) : Kept (execCmpltiN d x i s) := sAlu_kept h
theorem execShli_kept (h : Canonical s) : Kept (execShli d x n s) := sAlu_kept h
theorem execShriN_kept (h : Canonical s) : Kept (execShriN d x n s) := sAlu_kept h
theorem execShriI_kept (h : Canonical s) : Kept (execShriI d x n s) := sAlu_kept h
theorem execImmLo_kept {i : BitVec 20} (h : Canonical s) : Kept (execImmLo d i s) := sAlu_kept h
theorem execImmCat_kept {i : BitVec 20} (h : Canonical s) : Kept (execImmCat d i s) := sAlu_kept h
theorem execPcadd_kept {i : BitVec 20} (h : Canonical s) : Kept (execPcadd d i s) := sAlu_kept h
theorem execNop_kept (h : Canonical s) : Kept (execNop s) := Kept.ite trivial (State.advance_canonical h)
theorem sBranch_kept {taken : Bool} (h : Canonical s) : Kept (sBranch s taken o) :=
  Kept.ite trivial (Canonical.ite (State.branch_canonical h) (State.advance_canonical h))
theorem execBeq_kept (h : Canonical s) : Kept (execBeq x b o s) := sBranch_kept h
theorem execBne_kept (h : Canonical s) : Kept (execBne x b o s) := sBranch_kept h
theorem execBltI_kept (h : Canonical s) : Kept (execBltI x b o s) := sBranch_kept h
theorem execBgeI_kept (h : Canonical s) : Kept (execBgeI x b o s) := sBranch_kept h
theorem execBltN_kept (h : Canonical s) : Kept (execBltN x b o s) := sBranch_kept h
theorem execBgeN_kept (h : Canonical s) : Kept (execBgeN x b o s) := sBranch_kept h
theorem execJmp_kept {o : BitVec 20} (h : Canonical s) : Kept (execJmp d o s) := Kept.ite trivial (State.branch_canonical (State.setX_canonical h))
theorem execJmpr_kept (h : Canonical s) : Kept (execJmpr d x i s) := by
  unfold execJmpr
  exact sDo_kept h (fun _ h1 => Acc.Kept.ite h1 (State.branch_canonical (State.setX_canonical h1)))

end Sys2Proof.Machine
end

section
/-! SUPPORT. Memory stays canonical in this part of the model, one lemma per function. The nested-loop sequencer (R86 to R92): `loop.*` of
the scalar stream and of the vector, matrix and copy streams, and the step at the end of an iteration. What the prefixes govern is looked up
when the stream reaches a word (log entry 13). Then `nop`, `end` and `rend` of those streams (R45, R109). -/
namespace Sys2Proof.Machine

variable {s : State} {l p q : BitVec 3} {c : BitVec 4} {n : BitVec 8} {st lvl : Nat}

theorem issued_canonical (h : Canonical s) : Canonical (issued s st) := Canonical.ite (vTick_canonical h) h
theorem loopBeg_kept {len : Nat} (h : Canonical s) : Kept (loopBeg s st lvl len) := by
  unfold loopBeg
  dsimp only
  split
  · exact trivial
  · split
    · split
      · exact illegal_canonical h
      · split
        · exact issued_canonical (State.setPc_canonical h)
        · exact issued_canonical (State.advance_canonical (State.updStream_canonical h))
    · split
      · exact illegal_canonical h
      · split
        · exact issued_canonical (State.setPc_canonical h)
        · exact issued_canonical (State.advance_canonical (State.updStream_canonical h))
theorem loopPrefix_kept {cnt : Nat} (h : Canonical s) : Kept (loopPrefix s st lvl cnt) :=
  Kept.ite trivial (Kept.ite (illegal_canonical h) (issued_canonical (State.advance_canonical h)))
theorem execLoopBeg_kept (h : Canonical s) : Kept (execLoopBeg l n s) := loopBeg_kept h
theorem execLoopFirst_kept (h : Canonical s) : Kept (execLoopFirst l c s) := loopPrefix_kept h
theorem execLoopLast_kept (h : Canonical s) : Kept (execLoopLast l c s) := loopPrefix_kept h
theorem execLoopIdx_kept {d : BitVec 5} (h : Canonical s) : Kept (execLoopIdx d l s) := sDoIf_kept h (fun _ h1 => done_kept h1)
theorem execLoopBegXn_kept (h : Canonical s) : Kept (execLoopBegXn l n s) := loopBeg_kept h
theorem execLoopFirstXn_kept (h : Canonical s) : Kept (execLoopFirstXn l c s) := loopPrefix_kept h
theorem execLoopLastXn_kept (h : Canonical s) : Kept (execLoopLastXn l c s) := loopPrefix_kept h
theorem execLoopIterationEnd_kept (h : Canonical s) : Kept (execLoopIterationEnd s) := by
  unfold execLoopIterationEnd
  dsimp only
  split
  · exact trivial
  · split
    · exact h
    · split
      · exact Kept.ite (vWait_canonical (retireDue_canonical h)) (loopStep_canonical (retireDue_canonical h))
      · exact loopStep_canonical h
theorem execNopXn_kept (h : Canonical s) : Kept (execNopXn p q s) :=
  Kept.ite (vDo_kept h (fun _ h1 => State.advance_canonical h1)) (tDo_kept h (fun _ h1 => h1))
theorem endXn_kept {res : BitVec 16} (h : Canonical s) : Kept (endXn s p q res) := by
  unfold endXn
  dsimp only
  split
  · exact trivial
  · split
    · exact illegal_canonical h
    · split
      · exact State.block_canonical h
      · split
        · next e => exact issued_canonical (startDrain_canonical (tokIssue_canonical (canonical_of_ok e (tokCheck_kept (Canonical.ite
            (retireDue_canonical h) h)))))
        · next e1 => exact raise_canonical (canonical_of_fault e1 (tokCheck_kept (Canonical.ite (retireDue_canonical h) h)))
        · next e =>
          split
          · exact vWait_canonical (canonical_of_wait e (tokCheck_kept (Canonical.ite (retireDue_canonical h) h)))
          · exact State.block_canonical (canonical_of_wait e (tokCheck_kept (Canonical.ite (retireDue_canonical h) h)))
theorem execEndXn_kept (h : Canonical s) : Kept (execEndXn p q s) := endXn_kept h
theorem execRendXn_kept {i : BitVec 16} (h : Canonical s) : Kept (execRendXn p q i s) := endXn_kept h

end Sys2Proof.Machine
end

section
/-! SUPPORT. Memory stays canonical in this part of the model, one lemma per function. Vector compares, masks, the mask stack and uniform
branches (R172 to R175), and conversions (R169). -/
namespace Sys2Proof.Machine

variable {s : State} {o : BitVec 15} {p q x y k : BitVec 3}

theorem execVcmp_kept {y : BitVec 5} {b : BitVec 5} {t : BitVec 2} {c : BitVec 2} (h : Canonical s) : Kept (execVcmp p q x y b k t c s) :=
  vExecIf_kept h
theorem kOp_kept {f : Group → BitVec 128} (h : Canonical s) : Kept (kOp s p q x f) := vExecIf_kept h
theorem execKand_kept (h : Canonical s) : Kept (execKand p q x y k s) := kOp_kept h
theorem execKor_kept (h : Canonical s) : Kept (execKor p q x y k s) := kOp_kept h
theorem execKxor_kept (h : Canonical s) : Kept (execKxor p q x y k s) := kOp_kept h
theorem execKandn_kept (h : Canonical s) : Kept (execKandn p q x y k s) := kOp_kept h
theorem execKmov_kept (h : Canonical s) : Kept (execKmov p q x k s) := kOp_kept h
theorem execKnot_kept (h : Canonical s) : Kept (execKnot p q x k s) := kOp_kept h
theorem kStack_kept {bad : Nat} {res : Group → BitVec 128} {stk : Group → List (BitVec 128)} (h : Canonical s) : Kept (kStack s p q x bad
    res stk) := by
  unfold kStack
  split
  · exact trivial
  · split
    · exact illegal_canonical h
    · split
      · next e => exact vExec_kept (State.updGrp_canonical (canonical_of_ok e (Acc.bind_kept (vGate_kept (retireDue_canonical h))
          (fun _ _ h1 => Acc.guard_kept h1))))
      · next e1 => exact raise_canonical (canonical_of_fault e1 (Acc.bind_kept (vGate_kept (retireDue_canonical h))
          (fun _ _ h1 => Acc.guard_kept h1)))
      · next e => exact vWait_canonical (canonical_of_wait e (Acc.bind_kept (vGate_kept (retireDue_canonical h)) (fun _ _ h1 => Acc.guard_kept h1)))
theorem execKpush_kept (h : Canonical s) : Kept (execKpush p q x k s) := kStack_kept h
theorem execKpop_kept (h : Canonical s) : Kept (execKpop p q x s) := kStack_kept h
theorem execKelse_kept (h : Canonical s) : Kept (execKelse p q x s) := kStack_kept h
theorem vBranch_kept {taken : Group → Bool} (h : Canonical s) : Kept (vBranch s p q o taken) :=
  vDo_kept h (fun _ h1 => Canonical.ite (State.branch_canonical h1) (State.advance_canonical h1))
theorem execVbrAny_kept (h : Canonical s) : Kept (execVbrAny p q k o s) := vBranch_kept h
theorem execVbrAll_kept (h : Canonical s) : Kept (execVbrAll p q k o s) := vBranch_kept h
theorem execVbrNone_kept (h : Canonical s) : Kept (execVbrNone p q k o s) := vBranch_kept h
theorem execVj_kept (h : Canonical s) : Kept (execVj p q o s) := vBranch_kept h
theorem execVcvt_kept {d : BitVec 5} {x : BitVec 5} {f : BitVec 7} (h : Canonical s) : Kept (execVcvt p q d x k f s) := vExecIf_kept h

end Sys2Proof.Machine
end

section
/-! SUPPORT. Memory stays canonical in this part of the model, one lemma per function. `vquant` (R178 to R180): a row of FP32 elements in
scratch quantised into blocks (R24, R25). -/
namespace Sys2Proof.Machine

variable {s : State} {d : QDesc}

theorem qCheck_kept (h : Canonical s) : (qCheck s d).Kept := by
  unfold qCheck
  split
  · exact h
  · split
    · exact h
    · split
      · exact h
      · exact foldl_kept (fun _ _ h1 => Acc.bind_kept h1 (fun _ _ h2 => scrCheck_kept h2)) h
theorem setBmapBit_canonical {off : Nat} {i : Nat} {v : Bool} (h : Canonical s) : Canonical (setBmapBit s off i v) := State.setScr_canonical h
theorem qClose_canonical {c : VCmd} (h : Canonical s) : Canonical (qClose s d c) :=
  State.setScr_canonical (foldl_canonical (fun _ _ h1 => setBmapBit_canonical h1) (State.setScr_canonical h))
theorem execVquant_kept {p : BitVec 3} {q : BitVec 3} {d : BitVec 5} {x : BitVec 5} {k : BitVec 3} {m : BitVec 1} {st : BitVec 3} (h :
    Canonical s) : Kept (execVquant p q d x k m st s) := by
  unfold execVquant
  refine vMulti_kept h (fun _ h1 _ => Acc.bind_kept (qCheck_kept h1) (fun _ _ h2 => Acc.bind_kept ?_ (fun _ _ h3 => h3)))
    (fun _ h1 _ => State.updGrp_canonical h1)
  split <;> exact h2
theorem execVquantGroup_kept {h : BitVec 64} (hc : Canonical s) : Kept (execVquantGroup h s) := by
  unfold execVquantGroup
  extract_lets f t
  have hf : Canonical f := State.focus_canonical hc
  have ht : Canonical t := retireDue_canonical hf
  split
  · exact hf
  · extract_lets qd ge new s1 c1 s2
    refine .ite hf ?_
    split
    · exact vElementFault_canonical ht
    · have h1 : Canonical s1 := .ite (qClose_canonical ht) ht
      have h2 : Canonical s2 := qClose_canonical h1
      exact .ite (vTick_canonical (endVCmd_canonical h2.keep)) (vTick_canonical h1.keep)

end Sys2Proof.Machine
end

section
/-! SUPPORT. Memory stays canonical in this part of the model, one lemma per function. The transcendental unit (R170, R171). `vrcp` and
`vrsqrt` round the exact result. The other functions return one of the two FP32 values that bracket the exact result: the model encloses the
exact result in an interval, takes the FP32 values around it, and leaves the choice to `Config.transUp` (log entry 8). Fixed-point numbers
have 256 fraction bits. -/
namespace Sys2Proof.Machine

variable {s : State} {p q k : BitVec 3} {d x : BitVec 5}

theorem execVexp2_kept (h : Canonical s) : Kept (execVexp2 p q d x k s) := vUnary_kept h
theorem execVlog2_kept (h : Canonical s) : Kept (execVlog2 p q d x k s) := vUnary_kept h
theorem execVrcp_kept (h : Canonical s) : Kept (execVrcp p q d x k s) := vUnary_kept h
theorem execVrsqrt_kept (h : Canonical s) : Kept (execVrsqrt p q d x k s) := vUnary_kept h
theorem execVsin_kept (h : Canonical s) : Kept (execVsin p q d x k s) := vUnary_kept h
theorem execVcos_kept (h : Canonical s) : Kept (execVcos p q d x k s) := vUnary_kept h
theorem execVtanh_kept (h : Canonical s) : Kept (execVtanh p q d x k s) := vUnary_kept h

end Sys2Proof.Machine
end

section
/-! SUPPORT. Memory stays canonical in this part of the model, one lemma per function. The dispatch of every instruction and event to its
meaning. -/
namespace Sys2Proof.Machine

theorem exec_kept {i : Instr} {s : State} (h : Canonical s) : Kept (exec i s) := by
  unfold exec
  split
  · exact execAdd_kept h
  · exact execSub_kept h
  · exact execAnd_kept h
  · exact execOr_kept h
  · exact execXor_kept h
  · exact execAndn_kept h
  · exact execShl_kept h
  · exact execShrN_kept h
  · exact execShrI_kept h
  · exact execCmpltI_kept h
  · exact execCmpltN_kept h
  · exact execMinI_kept h
  · exact execMaxI_kept h
  · exact execMinN_kept h
  · exact execMaxN_kept h
  · exact execMul_kept h
  · exact execMulhiI_kept h
  · exact execMulhiN_kept h
  · exact execQuoI_kept h
  · exact execQuoN_kept h
  · exact execRmdI_kept h
  · exact execRmdN_kept h
  · exact execSel_kept h
  · exact execClz_kept h
  · exact execCtz_kept h
  · exact execPopc_kept h
  · exact execBswap_kept h
  · exact execAddi_kept h
  · exact execAndi_kept h
  · exact execOri_kept h
  · exact execXori_kept h
  · exact execCmpltiI_kept h
  · exact execCmpltiN_kept h
  · exact execShli_kept h
  · exact execShriN_kept h
  · exact execShriI_kept h
  · exact execImmLo_kept h
  · exact execImmCat_kept h
  · exact execPcadd_kept h
  · exact execNop_kept h
  · exact execBeq_kept h
  · exact execBne_kept h
  · exact execBltI_kept h
  · exact execBgeI_kept h
  · exact execBltN_kept h
  · exact execBgeN_kept h
  · exact execJmp_kept h
  · exact execJmpr_kept h
  · exact execLdI8_kept h
  · exact execLdN8_kept h
  · exact execLdI16_kept h
  · exact execLdN16_kept h
  · exact execLdI32_kept h
  · exact execLdN32_kept h
  · exact execLdI64_kept h
  · exact execStI8_kept h
  · exact execStI16_kept h
  · exact execStI32_kept h
  · exact execStI64_kept h
  · exact execLdlI32_kept h
  · exact execLdlI64_kept h
  · exact execStlI32_kept h
  · exact execStlI64_kept h
  · exact execLdAcq_kept h
  · exact execStRel_kept h
  · exact execLdAcqp_kept h
  · exact execFence_kept h
  · exact execFenceRel_kept h
  · exact execFenceAcq_kept h
  · exact execAtom_kept h
  · exact execRed_kept h
  · exact execLdfe_kept h
  · exact execStfe_kept h
  · exact execClineWb_kept h
  · exact execClineInv_kept h
  · exact execClineWbi_kept h
  · exact execClineZero_kept h
  · exact execFtcWb_kept h
  · exact execFtcInv_kept h
  · exact execFtcWbi_kept h
  · exact execFtcProbe_kept h
  · exact execBmodeReset_kept h
  · exact execBmodeEmpty_kept h
  · exact execBmodeFull_kept h
  · exact execBmodeQuery_kept h
  · exact execTlbInv_kept h
  · exact execTlbInvall_kept h
  · exact execTlbSync_kept h
  · exact execPgProbe_kept h
  · exact execPgMig_kept h
  · exact execToksend_kept h
  · exact execTokwait_kept h
  · exact execFmtq_kept h
  · exact execEndS_kept h
  · exact execRend_kept h
  · exact execExit_kept h
  · exact execLaunch_kept h
  · exact execSigAdd_kept h
  · exact execSigSet_kept h
  · exact execSigWait_kept h
  · exact execSigInt_kept h
  · exact execHintSave_kept h
  · exact execTrap_kept h
  · exact execRett_kept h
  · exact execSysr_kept h
  · exact execSysw_kept h
  · exact execBarInit_kept h
  · exact execBarReg_kept h
  · exact execBarArr_kept h
  · exact execBarWait_kept h
  · exact execBarArd_kept h
  · exact execBarPub_kept h
  · exact execBarAtt_kept h
  · exact execBarRarr_kept h
  · exact execBarRdlo_kept h
  · exact execBarRdhi_kept h
  · exact execLoopBeg_kept h
  · exact execLoopFirst_kept h
  · exact execLoopLast_kept h
  · exact execLoopIdx_kept h
  · exact execLoopIterationEnd_kept h
  · exact execVadd_kept h
  · exact execVsub_kept h
  · exact execVmul_kept h
  · exact execVfma_kept h
  · exact execVfms_kept h
  · exact execVmin_kept h
  · exact execVmax_kept h
  · exact execVaddInteger_kept h
  · exact execVsubInteger_kept h
  · exact execVmulInteger_kept h
  · exact execVmulh_kept h
  · exact execVminInteger_kept h
  · exact execVmaxInteger_kept h
  · exact execVand_kept h
  · exact execVor_kept h
  · exact execVxor_kept h
  · exact execVshl_kept h
  · exact execVshr_kept h
  · exact execVsra_kept h
  · exact execVaddi_kept h
  · exact execVandi_kept h
  · exact execVshli_kept h
  · exact execVshri_kept h
  · exact execVcmp_kept h
  · exact execKand_kept h
  · exact execKor_kept h
  · exact execKxor_kept h
  · exact execKandn_kept h
  · exact execKmov_kept h
  · exact execKnot_kept h
  · exact execKpush_kept h
  · exact execKpop_kept h
  · exact execKelse_kept h
  · exact execVbrAny_kept h
  · exact execVbrAll_kept h
  · exact execVbrNone_kept h
  · exact execVj_kept h
  · exact execVcvt_kept h
  · exact execVquant_kept h
  · exact execVexp2_kept h
  · exact execVlog2_kept h
  · exact execVrcp_kept h
  · exact execVrsqrt_kept h
  · exact execVsin_kept h
  · exact execVcos_kept h
  · exact execVtanh_kept h
  · exact execVradd_kept h
  · exact execVrmax_kept h
  · exact execVrmin_kept h
  · exact execVrmaxi_kept h
  · exact execVperm_kept h
  · exact execVshuf_kept h
  · exact execVrot_kept h
  · exact execVzip_kept h
  · exact execVsel_kept h
  · exact execVli_kept h
  · exact execVlih_kept h
  · exact execVmov_kept h
  · exact execVlane_kept h
  · exact execVld_kept h
  · exact execVst_kept h
  · exact execVgather_kept h
  · exact execVscatter_kept h
  · exact execVlut_kept h
  · exact execVrescale_kept h
  · exact execVaccCol_kept h
  · exact execVaccColz_kept h
  · exact execVaccRow_kept h
  · exact execVaccRowz_kept h
  · exact execVaccWcol_kept h
  · exact execVaccAcol_kept h
  · exact execVldfe_kept h
  · exact execVstfe_kept h
  · exact execLoopBegXn_kept h
  · exact execLoopFirstXn_kept h
  · exact execLoopLastXn_kept h
  · exact execRendXn_kept h
  · exact execEndXn_kept h
  · exact execNopXn_kept h
  · exact execMtile_kept h
  · exact execMbcast_kept h
  · exact execMtileT_kept h
  · exact execMsync_kept h
  · exact execMdset_kept h
  · exact execMdadd_kept h
  · exact execMdmov_kept h
  · exact execMdld_kept h
  · exact execMjoin_kept h
  · exact execMleave_kept h
  · exact execMcal_kept h
  · exact execMocfg_kept h
  · exact execMstat_kept h
  · exact execMaccAlloc_kept h
  · exact execMaccFree_kept h
  · exact execMaccZero_kept h
  · exact execMaccShare_kept h
  · exact execMaccAttach_kept h
  · exact execCpy_kept h
  · exact execCpyS_kept h
  · exact execCtld_kept h
  · exact execCtst_kept h
  · exact execCgath_kept h
  · exact execCscat_kept h
  · exact execCwalk_kept h
  · exact execCzero_kept h
  · exact execCfill_kept h
  · exact execCbarIn_kept h
  · exact execCbarOut_kept h
  · exact execCbarArr_kept h
  · exact execCsigAdd_kept h
  · exact execCsigSet_kept h
  · exact execCcoll_kept h
  · exact execCpref_kept h
  · exact execCaLi_kept h
  · exact execCaLih_kept h
  · exact execCaAddi_kept h
  · exact execCaAdd_kept h
  · exact execCaMov_kept h
  · exact execChLd_kept h
  · exact execChSt_kept h
  · exact execVectorResultWrite_kept h
  · exact execVldChecksDecided_kept h
  · exact execVldReplay_kept h
  · exact execLatchWrite_kept h
  · exact execVectorElement_kept h
  · exact execVquantGroup_kept h
  · exact execCopyElement_kept h
  · exact execTileCommandStart_kept h
  · exact execFrameStart_kept h
  · exact execSessionTimeout_kept h
  · exact execTileElement_kept h
  · exact execJoinAdmitted_kept h
  · exact execCombFailoverDone_kept h
  · exact execCalibrationDone_kept h
  · exact execStreamEnded_kept h
  · exact execTrapDelivery_kept h
  · exact execAsyncFaultDelivery_kept h
  · exact execPreemptionDeadline_kept h
  · exact execGroupSave_kept h
  · exact execGroupRetire_kept h
  · exact execPacketTake_kept h
  · exact execParameterBlockRead_kept h
  · exact execGroupDispatch_kept h
  · exact execSpillExpiry_kept h
  · exact execPacketComplete_kept h
  · exact execCtxOpen_kept h
  · exact execCtxSuspend_kept h
  · exact execCtxResume_kept h
  · exact execCtxClose_kept h
  · exact execKernelLoad_kept h
  · exact execKernelLoadReadDone_kept h
  · exact execKernelUnload_kept h
  · exact execQueueEnable_kept h
  · exact execQueueDisable_kept h
  · exact execQueuePause_kept h
  · exact execQueueResume_kept h
  · exact execQueueReset_kept h
  · exact execQdb_kept h
  · exact execGintv_kept h
  · exact execProma_kept h
  · exact execPromoteRequest_kept h
  · exact execPromotion_kept h
  · exact execIlcmdInvalidatePage_kept h
  · exact execIlcmdInvalidateContext_kept h
  · exact execIlcmdInvalidateAll_kept h
  · exact execIlcmdSync_kept h
  · exact execInvalidationAppend_kept h
  · exact execPageWalk_kept h
  · exact execMigh_kept h
  · exact execMigrationStep_kept h
  · exact execFtccfg_kept h
  · exact execFtcChangeDone_kept h
  · exact execAttaddr_kept h
  · exact execAttestationReportDone_kept h
  · exact execFibmodeApply_kept h
  · exact execRouteWrite_kept h
  · exact execHostRegisterWrite_kept h
  · exact execHostMemoryRead_kept h
  · exact execHostMemoryWrite_kept h
  · exact execWriteQueueRequest_kept h
  · exact execCacheFill_kept h
  · exact execRefresh_kept h
  · exact execBankFillDone_kept h
  · exact execBankWritebackDone_kept h
  · exact execPackageReset_kept
  · exact execFunctionReady_kept h
  · exact execFunctionRestore_kept h
  · exact execManagementInstall_kept h
  · exact execPowerLimitThrottle_kept h
  · exact execCoreFault_kept h
  · exact execSpareTakeoverDone_kept h
  · exact execCorrectableError_kept h
  · exact execStorageLost_kept h
  · exact execLinkTrained_kept h
  · exact execLinkTrainingFailed_kept h
  · exact execWavelengthLost_kept h
  · exact execLightLost_kept h
  · exact execLinkManagementReset_kept h
  · exact execFlitReceive_kept h
  · exact execNakReceive_kept h
  · exact execAckTimeout_kept h
  · exact execRerouteResend_kept h
  · exact execRemoteRequest_kept h
  · exact execRemoteReply_kept h
  · exact execCollectiveMatch_kept h
  · exact execCollectiveMatchTimeout_kept h
  · exact execCollectiveBucketStart_kept h
  · exact execCollectiveBucketDone_kept h
  · exact execCollectiveFailure_kept h
  · exact execGangReadyReceived_kept h
  · exact execGangCommitReceived_kept h
  · exact execGangAbortReceived_kept h
  · exact execGangQueryReceived_kept h
  · exact execGangLeaderTimeout_kept h
  · exact execGangQueryTimeout_kept h
  · exact execGangAnswerTimeout_kept h
  · exact execLinkLightDetected_kept h
  · exact execGangDecisionExpiry_kept h
  · exact execL2ReductionApplied_kept h
  · exact execInterruptPacket_kept h
  · exact execSessionControlFlit_kept h
  · exact execFarWriteCompletion_kept h

end Sys2Proof.Machine
end

section
/-! SUPPORT. Memory stays canonical in this part of the model, one lemma per function. What moves next: the issue of one stream (R37, R47,
R84, R87, R92, R97, R136), the events, arbitration among the streams of a core (R100), and the clock, which finds what the device does on
its own. -/
namespace Sys2Proof.Machine

variable {s : State} {st : Stream}

theorem nextWord_kept {st : Nat} (h : Canonical s) : (nextWord s st).Kept := by
  unfold nextWord
  dsimp only
  split
  · split
    · exact h
    · exact Acc.bind_kept (fetchWord_kept h) (fun _ _ h1 => State.updStream_canonical h1)
  · exact fetchWord_kept h
theorem bodyWord_kept {st : Nat} {k : Nat} (h : Canonical s) : (bodyWord s st k).Kept := by
  unfold bodyWord
  split
  · exact h
  · split
    · next e1 => exact canonical_of_ok e1 (fetchWord_kept h)
    · next e2 => exact canonical_of_fault e2 (fetchWord_kept h)
    · next e1 => exact canonical_of_wait e1 (fetchWord_kept h)
theorem verdicts_kept {st : Nat} {stm : Stream} (h : Canonical s) : (verdicts s st stm).Kept := by
  unfold verdicts
  split
  · exact Acc.ok_kept h
  · exact foldl_kept (fun _ _ h1 => Acc.bind_kept h1 (fun _ _ h2 => Acc.Kept.ite (Acc.ok_kept h2) (Acc.bind_kept (bodyWord_kept h2)
      (fun _ _ h3 => Acc.ok_kept h3)))) (Acc.ok_kept h)
theorem issueWord_kept {w : Nat} {governed : Bool} (h : Canonical s) : Kept (issueWord s st w governed) := by
  unfold issueWord
  split
  · exact illegal_canonical h.keep
  · exact Kept.ite (illegal_canonical h.keep) (exec_kept h.keep)
theorem issueHere_kept (h : Canonical s) : Kept (issueHere s st) := by
  unfold issueHere
  dsimp only
  split
  · exact execVldReplay_kept h
  · split
    · exact execTileCommandStart_kept h
    · split
      · exact execLoopIterationEnd_kept h.keep
      · split
        · next e1 => exact State.block_canonical (canonical_of_fault e1 (verdicts_kept h))
        · next e => exact State.block_canonical (canonical_of_wait e (verdicts_kept h))
        · next e =>
          split
          · exact State.advance_canonical (canonical_of_ok e (verdicts_kept h))
          · split
            · next e1 => exact State.block_canonical (canonical_of_wait e1 (nextWord_kept (canonical_of_ok e (verdicts_kept h))))
            · next e2 => exact raise_canonical (Canonical.keep (canonical_of_fault e2 (nextWord_kept (canonical_of_ok e (verdicts_kept h)))))
            · next e1 => exact issueWord_kept (canonical_of_ok e1 (nextWord_kept (canonical_of_ok e (verdicts_kept h))))
theorem issuePast_kept (h : Canonical s) : Kept (issuePast s) := by
  unfold issuePast
  split
  · next e =>
    split
    · exact canonical_of_next e (issueHere_kept (State.updGrp_canonical (State.advance_canonical h)))
    · exact State.updGroup_canonical (canonical_of_next e (issueHere_kept (State.updGrp_canonical (State.advance_canonical h))))
  · exact issueHere_kept (State.updGrp_canonical (State.advance_canonical h))
theorem issueNext_kept (h : Canonical s) : Kept (issueNext s st) := Kept.ite (issuePast_kept h) (issueHere_kept h)
theorem thenSlot_kept {n : Nat} {o : Out} (h : Canonical s) (ho : Kept o) : Kept (thenSlot s n o) := by
  unfold thenSlot
  split
  · exact Canonical.ite ho (Canonical.ite h (State.updCore_canonical ho))
  · exact ho
theorem issue_kept {h : W64} {s0 : State} (hs0 : Canonical s0) : Kept (issue h st s0) := by
  unfold issue
  dsimp only
  split
  · exact State.focus_canonical hs0
  · exact thenSlot_kept (State.focus_canonical hs0) (issueNext_kept (State.focus_canonical hs0))
theorem runEvent_kept {e : Event} (h : Canonical s) : Kept (runEvent e s) := by
  unfold runEvent
  split
  · exact execVectorResultWrite_kept h
  · exact execVldChecksDecided_kept h
  · exact execVldReplay_kept h
  · exact execLatchWrite_kept h
  · exact execVectorElement_kept h
  · exact execVquantGroup_kept h
  · exact execCopyElement_kept h
  · exact execTileCommandStart_kept h
  · exact execFrameStart_kept h
  · exact execSessionTimeout_kept h
  · exact execTileElement_kept h
  · exact execJoinAdmitted_kept h
  · exact execCombFailoverDone_kept h
  · exact execCalibrationDone_kept h
  · exact execStreamEnded_kept h
  · exact execTrapDelivery_kept h
  · exact execAsyncFaultDelivery_kept h
  · exact execPreemptionDeadline_kept h
  · exact execGroupSave_kept h
  · exact execGroupRetire_kept h
  · exact execPacketTake_kept h
  · exact execParameterBlockRead_kept h
  · exact execGroupDispatch_kept h
  · exact execSpillExpiry_kept h
  · exact execPacketComplete_kept h
  · exact execCtxOpen_kept h
  · exact execCtxSuspend_kept h
  · exact execCtxResume_kept h
  · exact execCtxClose_kept h
  · exact execKernelLoad_kept h
  · exact execKernelLoadReadDone_kept h
  · exact execKernelUnload_kept h
  · exact execQueueEnable_kept h
  · exact execQueueDisable_kept h
  · exact execQueuePause_kept h
  · exact execQueueResume_kept h
  · exact execQueueReset_kept h
  · exact execQdb_kept h
  · exact execGintv_kept h
  · exact execProma_kept h
  · exact execPromoteRequest_kept h
  · exact execPromotion_kept h
  · exact execIlcmdInvalidatePage_kept h
  · exact execIlcmdInvalidateContext_kept h
  · exact execIlcmdInvalidateAll_kept h
  · exact execIlcmdSync_kept h
  · exact execInvalidationAppend_kept h
  · exact execPageWalk_kept h
  · exact execMigh_kept h
  · exact execMigrationStep_kept h
  · exact execFtccfg_kept h
  · exact execFtcChangeDone_kept h
  · exact execAttaddr_kept h
  · exact execAttestationReportDone_kept h
  · exact execFibmodeApply_kept h
  · exact execRouteWrite_kept h
  · exact execHostRegisterWrite_kept h
  · exact execHostMemoryRead_kept h
  · exact execHostMemoryWrite_kept h
  · exact execWriteQueueRequest_kept h
  · exact execCacheFill_kept h
  · exact execRefresh_kept h
  · exact execBankFillDone_kept h
  · exact execBankWritebackDone_kept h
  · exact execPackageReset_kept
  · exact execFunctionReady_kept h
  · exact execFunctionRestore_kept h
  · exact execManagementInstall_kept h
  · exact execPowerLimitThrottle_kept h
  · exact execCoreFault_kept h
  · exact execSpareTakeoverDone_kept h
  · exact execCorrectableError_kept h
  · exact execStorageLost_kept h
  · exact execLinkTrained_kept h
  · exact execLinkTrainingFailed_kept h
  · exact execWavelengthLost_kept h
  · exact execLightLost_kept h
  · exact execLinkManagementReset_kept h
  · exact execFlitReceive_kept h
  · exact execNakReceive_kept h
  · exact execAckTimeout_kept h
  · exact execRerouteResend_kept h
  · exact execRemoteRequest_kept h
  · exact execRemoteReply_kept h
  · exact execCollectiveMatch_kept h
  · exact execCollectiveMatchTimeout_kept h
  · exact execCollectiveBucketStart_kept h
  · exact execCollectiveBucketDone_kept h
  · exact execCollectiveFailure_kept h
  · exact execGangReadyReceived_kept h
  · exact execGangCommitReceived_kept h
  · exact execGangAbortReceived_kept h
  · exact execGangQueryReceived_kept h
  · exact execGangLeaderTimeout_kept h
  · exact execGangQueryTimeout_kept h
  · exact execGangAnswerTimeout_kept h
  · exact execLinkLightDetected_kept h
  · exact execGangDecisionExpiry_kept h
  · exact execL2ReductionApplied_kept h
  · exact execInterruptPacket_kept h
  · exact execSessionControlFlit_kept h
  · exact execFarWriteCompletion_kept h
theorem runAct_kept {x : Act} (h : Canonical s) : Kept (runAct x s) := by
  unfold runAct
  split
  · exact issue_kept h
  · exact Kept.ite h (runEvent_kept h)
  · exact hostAccess_kept h
  · exact msiEntry_kept h
theorem arbitrate_canonical {core : Nat} (h : Canonical s) : Canonical (arbitrate s core st) := State.post_canonical (State.updGroups_canonical h)
theorem engineActs_canonical (h : Canonical s) : Canonical (engineActs s st) :=
  State.post_canonical (foldl_canonical (fun _ _ h1 => arbitrate_canonical h1) h)
theorem flushAll_canonical (h : Canonical s) : Canonical (flushAll s) :=
  flushMsi_canonical (sendNotes_canonical (flushOutbox_canonical h.keep))
theorem tick_canonical (h : Canonical s) : Canonical (tick s) := by
  unfold tick
  dsimp only
  split
  · exact h.keep
  · exact foldl_canonical (fun _ _ h1 => engineActs_canonical h1) (State.post_canonical (flushAll_canonical h.keep))

end Sys2Proof.Machine
end

section
/-! SUPPORT. Memory stays canonical in this part of the model, one lemma per function. The step of the module: the first act of the agenda,
or, with the agenda empty, the clock (log entry 3). -/
namespace Sys2Proof.Machine

theorem step_kept {s : State} (h : Canonical s) : Kept (step s) := by
  unfold step
  split
  · exact tick_canonical h
  · exact runAct_kept h.keep

end Sys2Proof.Machine
end

section
/-! SUPPORT. The invariant: whatever the first act of the agenda or the clock does, memory keeps its canonical form. -/
namespace Sys2Proof.Machine

/-- Settles O49: each function from which `step` is made keeps memory canonical, and so `step` does. -/
theorem stepKeepsMemoryCanonical : Obligations.StepKeepsMemoryCanonical := by
  unfold Obligations.StepKeepsMemoryCanonical
  intro s t h e
  exact canonical_of_next e (step_kept h)

end Sys2Proof.Machine
end

section
/-! SUPPORT. Links (R340 to R345): what each event of a link does, by the link's state, its wavelengths and its counters. -/
namespace Sys2Proof.Machine

section
variable {n : BitVec 4} {w : BitVec 5} {m : BitVec 6} {s : State}

theorem linksOpen_iff : linksOpen s = true ↔ s.safe = false ∧ 2 ≤ s.phase := by simp [linksOpen]
theorem linksOpen_of (hs : s.safe = false) (hp : 2 ≤ s.phase) : linksOpen s = true := linksOpen_iff.mpr ⟨hs, hp⟩
theorem linksOpen_early (hp : s.phase < 2) : linksOpen s = false :=
  Bool.eq_false_iff.mpr fun h => absurd (linksOpen_iff.mp h).2 (by omega)

section
variable (ho : linksOpen s = true) (ht : (s.link n.toNat).st = .training)
include ho ht

/-- A training that light allows goes by the number of wavelengths, then by the neighbour that it shows. -/
theorem execLinkTrained_open : execLinkTrained n w m s =
    if min 18 w.toNat < 8 then .next (s.postE (.linkTrainingFailed n))
    else if m.toNat ≠ s.topo.2.2.2.2.getD n.toNat 64 then .next (enterSafe s 4)
    else if m.toNat = s.modid then .next (enterSafe s 5)
    else .next (flushOutbox (withReroutes s (linkReady (s.updLink n.toNat (fun l =>
      { l.quiet (if 16 ≤ min 18 w.toNat then .up else .degraded) with
        waves := min 18 w.toNat, failed := 0, neighbour := m.toNat })) n.toNat 1))) := by
  simp [execLinkTrained, ho, ht]

theorem execLinkTrained_usable (h8 : 8 ≤ w.toNat) (h18 : w.toNat ≤ 18) (hm : m.toNat = s.topo.2.2.2.2.getD n.toNat 64) (hd : m.toNat ≠ s.modid) :
    execLinkTrained n w m s = .next (flushOutbox (withReroutes s (linkReady (s.updLink n.toNat (fun l =>
      { l.quiet (if 16 ≤ w.toNat then .up else .degraded) with waves := w.toNat, failed := 0, neighbour := m.toNat })) n.toNat 1))) := by
  rw [execLinkTrained_open ho ht, Nat.min_eq_right h18, if_neg (by omega), if_neg (not_not.mpr hm), if_neg hd]

theorem execLinkTrained_dark (h8 : w.toNat < 8) : execLinkTrained n w m s = .next (s.postE (.linkTrainingFailed n)) := by
  rw [execLinkTrained_open ho ht, if_pos (by omega)]

theorem execLinkTrained_stranger (h8 : 8 ≤ w.toNat) (hm : m.toNat ≠ s.topo.2.2.2.2.getD n.toNat 64) :
    execLinkTrained n w m s = .next (enterSafe s 4) := by
  rw [execLinkTrained_open ho ht, if_neg (by omega), if_pos hm]

theorem execLinkTrained_duplicate (h8 : 8 ≤ w.toNat) (hm : m.toNat = s.topo.2.2.2.2.getD n.toNat 64) (hd : m.toNat = s.modid) :
    execLinkTrained n w m s = .next (enterSafe s 5) := by
  rw [execLinkTrained_open ho ht, if_neg (by omega), if_neg (not_not.mpr hm), if_pos hd]

end

theorem link_events_wait (ho : linksOpen s = false) :
    execLinkTrained n w m s = .next s ∧ execLinkManagementReset n s = .next s ∧ execLinkLightDetected n s = .next s := by
  simp [execLinkTrained, execLinkManagementReset, execLinkLightDetected, ho]

theorem execLinkTrainingFailed_again (ht : (s.link n.toNat).st = .training) (hf : (s.link n.toNat).failed < 2) :
    execLinkTrainingFailed n s = .next (s.updLink n.toNat (fun l => { l with failed := l.failed + 1 })) := by
  simp [execLinkTrainingFailed, ht, Nat.not_le.mpr hf]

theorem execLinkTrainingFailed_third (ht : (s.link n.toNat).st = .training) (hf : 2 ≤ (s.link n.toNat).failed) :
    execLinkTrainingFailed n s = .next (linkLost (s.updLink n.toNat (fun l => { l with failed := 0 })) n.toNat .fenced) := by
  simp [execLinkTrainingFailed, ht, hf]

theorem execLightLost_lit (h : (s.link n.toNat).st = .up ∨ (s.link n.toNat).st = .degraded ∨ (s.link n.toNat).st = .training) :
    execLightLost n s = .next (linkLost s n.toNat .down) := by
  rcases h with h | h | h <;> simp [execLightLost, h]

theorem execLinkLightDetected_down (ho : linksOpen s = true) (hd : (s.link n.toNat).st = .down) :
    execLinkLightDetected n s = .next (s.updLink n.toNat (fun l => l.quiet .training)) := by
  simp [execLinkLightDetected, ho, hd]

theorem execLinkManagementReset_open (ho : linksOpen s = true) : execLinkManagementReset n s =
    .next (withReroutes s (linkReady (s.updLink n.toNat (fun l => { l.quiet .training with failed := 0 })) n.toNat 0)) := by
  simp [execLinkManagementReset, ho]

-- A link that carries traffic ---------------------------------------------------------------------------------------------

section
variable {seq : BitVec 12} {flit : BitVec 512} (hu : linkUsable s n.toNat = true)
include hu

theorem execWavelengthLost_usable : execWavelengthLost n s =
    if 16 ≤ (s.link n.toNat).waves - 1 then .next (s.updLink n.toNat (fun l => { l with waves := (s.link n.toNat).waves - 1 }))
    else if 8 ≤ (s.link n.toNat).waves - 1 then
      .next (s.updLink n.toNat (fun l => { l with waves := (s.link n.toNat).waves - 1, st := .degraded }))
    else .next (linkLost s n.toNat .fenced) := by
  simp [execWavelengthLost, hu]

theorem execWavelengthLost_spare (h : 17 ≤ (s.link n.toNat).waves) :
    execWavelengthLost n s = .next (s.updLink n.toNat (fun l => { l with waves := (s.link n.toNat).waves - 1 })) := by
  rw [execWavelengthLost_usable hu, if_pos (by omega)]

theorem execWavelengthLost_degrades (h : 9 ≤ (s.link n.toNat).waves) (h' : (s.link n.toNat).waves ≤ 16) :
    execWavelengthLost n s = .next (s.updLink n.toNat (fun l => { l with waves := (s.link n.toNat).waves - 1, st := .degraded })) := by
  rw [execWavelengthLost_usable hu, if_neg (by omega), if_pos (by omega)]

theorem execWavelengthLost_fences (h : (s.link n.toNat).waves ≤ 8) : execWavelengthLost n s = .next (linkLost s n.toNat .fenced) := by
  rw [execWavelengthLost_usable hu, if_neg (by omega), if_neg (by omega)]

theorem execNakReceive_resends : execNakReceive n seq s = .next (resendAll (takeAck s n.toNat seq.toNat) n.toNat) := by
  simp [execNakReceive, hu]

section
variable (hn : (s.link n.toNat).unacked ≠ []) (hl : (s.link n.toNat).since + 2 ^ 16 ≤ s.cycle)
include hn hl

theorem execAckTimeout_late : execAckTimeout n s =
    if 8 ≤ (s.link n.toNat).timeouts + 1 then .next (linkLost s n.toNat .fenced)
    else .next (resendAll (s.updLink n.toNat (fun l => { l with timeouts := l.timeouts + 1 })) n.toNat) := by
  simp [-Nat.reducePow, execAckTimeout, hu, hn, Nat.not_lt.mpr hl]

theorem execAckTimeout_resends (ht : (s.link n.toNat).timeouts < 7) :
    execAckTimeout n s = .next (resendAll (s.updLink n.toNat (fun l => { l with timeouts := l.timeouts + 1 })) n.toNat) := by
  rw [execAckTimeout_late hu hn hl, if_neg (by omega)]

theorem execAckTimeout_fences (ht : 7 ≤ (s.link n.toNat).timeouts) : execAckTimeout n s = .next (linkLost s n.toNat .fenced) := by
  rw [execAckTimeout_late hu hn hl, if_pos (by omega)]

end

section
variable (hg : flitGood flit = true)
include hg

theorem execFlitReceive_ack (ht : fieldOf flit 7 5 = 0) : execFlitReceive n flit s = .next (takeAck s n.toNat (fieldOf flit 19 8)) := by
  simp [execFlitReceive, hu, hg, ht]

theorem execFlitReceive_nak (ht : fieldOf flit 7 5 = 3) :
    execFlitReceive n flit s = .next (resendAll (takeAck s n.toNat (fieldOf flit 19 8)) n.toNat) := by
  simp [execFlitReceive, hu, hg, ht]

/-- A flit in order that does not end its packet is kept with the flits before it. -/
theorem execFlitReceive_next {s1 : State} (h1 : takeAck s n.toNat (fieldOf flit 19 8) = s1) (ht : fieldOf flit 7 5 = 1)
    (hs : fieldOf flit 31 20 = (s1.link n.toNat).expSeq) (hl : fieldOf flit 1 1 = 0) :
    execFlitReceive n flit s = .next (s1.updLink n.toNat (fun l => { l with
      expSeq := (l.expSeq + 1) % 4096, nak := none, partialPkt := (s1.link n.toNat).partialPkt ++ [flit] })) := by
  simp [execFlitReceive, hu, hg, ht, h1, hs, hl]

end
end

theorem State.updDest_congr {k : Nat} {f g : Dest → Dest} (h : f (s.dest k) = g (s.dest k)) : s.updDest k f = s.updDest k g := by
  rw [State.updDest, updAt_congr _ _ _ _ _ h, State.updDest]

-- Reroutes ------------------------------------------------------------------------------------------------------------------

section
variable {t : Nat} (hr : (s.dest m.toNat).reroute = some t)
include hr

theorem execRerouteResend_holds (hn : (s.dest m.toNat).unans ≠ []) (hc : s.cycle < t + 2 ^ 20) : execRerouteResend m s = .next s := by
  simp [-Nat.reducePow, execRerouteResend, hr, hn, hc]

theorem execRerouteResend_ends (h : (s.dest m.toNat).unans = [] ∨ t + 2 ^ 20 ≤ s.cycle) : execRerouteResend m s =
    .next ((s.dest m.toNat).open.foldl enqueue
      (s.updDest m.toNat (fun x => { x with reroute := none, unans := (s.dest m.toNat).open, held := [] }))) := by
  have ended : ((!(s.dest m.toNat).unans.isEmpty) && decide (s.cycle < t + 2 ^ 20)) = false := by
    rcases h with h | h
    · simp [h]
    · simp [-Nat.reducePow, Nat.not_lt.mpr h]
  simp only [execRerouteResend, hr, ended, Bool.false_eq_true, if_false]
  rw [State.updDest_congr]
  rfl

end
end
end Sys2Proof.Machine
end

section
/-! SUPPORT. Requests of other modules at this home and the answers to this module's own (R346 to R348, R367). -/
namespace Sys2Proof.Machine

variable {p : Packet} {s : State}

/-- What is kept of an earlier answer to a request: none for a read (R346). -/
def cachedReply (s : State) (p : Packet) : Option Packet :=
  if popWrites p.pop.toNat then ((s.dest p.srcm.toNat).cache.lookup (p.rid.toNat % 256)).filter (fun r => r.rid == p.rid) else none

theorem cachedReply_read (h : p.pop = 0) : cachedReply s p = none := by simp [cachedReply, h, popWrites]
theorem cachedReply_new (h : (s.dest p.srcm.toNat).cache.lookup (p.rid.toNat % 256) = none) : cachedReply s p = none := by simp [cachedReply, h]

theorem pop_lt_four (h : p.pop = 0 ∨ p.pop = 1 ∨ p.pop = 2 ∨ p.pop = 3) : p.pop.toNat < 4 := by
  rcases h with h | h | h | h <;> simp [h]

theorem popWrites_of (h : p.pop = 1 ∨ p.pop = 2 ∨ p.pop = 3) : popWrites p.pop.toNat = true := by
  rcases h with h | h | h <;> simp [h, popWrites]

/-- A read, a write, an atomic or a reduction is answered from what is kept, waits for its storage, or is performed. -/
theorem execRemoteRequest_access (h : p.pop.toNat < 4) : execRemoteRequest p s =
    match cachedReply s p with
    | some old => .next (sendReply s { old with tag := p.tag })
    | none =>
      if remoteHeld s p then .next { s with remWait := s.remWait ++ [p] }
      else .next (sendReply (if popWrites p.pop.toNat then (performRemote s p).2.updDest p.srcm.toNat (fun d => { d with
        cache := setA d.cache (p.rid.toNat % 256) (performRemote s p).1 }) else (performRemote s p).2) (performRemote s p).1) := by
  unfold execRemoteRequest
  simp only [beq_iff_eq]
  rw [if_neg (by omega), if_neg (by omega), if_neg (by omega), if_neg (by omega)]
  rfl

theorem execRemoteRequest_held (h : p.pop.toNat < 4) (hc : cachedReply s p = none) (hh : remoteHeld s p = true) :
    execRemoteRequest p s = .next { s with remWait := s.remWait ++ [p] } := by
  rw [execRemoteRequest_access h, hc]; exact if_pos hh

theorem execRemoteRequest_read (h : p.pop = 0) (hh : remoteHeld s p = false) :
    execRemoteRequest p s = .next (sendReply (performRemote s p).2 (performRemote s p).1) := by
  rw [execRemoteRequest_access (pop_lt_four (.inl h)), cachedReply_read h]
  simp [hh, h, popWrites]

section
variable (h : p.pop = 1 ∨ p.pop = 2 ∨ p.pop = 3)
include h

theorem execRemoteRequest_again {old : Packet} (hc : (s.dest p.srcm.toNat).cache.lookup (p.rid.toNat % 256) = some old) (hr : old.rid = p.rid) :
    execRemoteRequest p s = .next (sendReply s { old with tag := p.tag }) := by
  rw [execRemoteRequest_access (pop_lt_four (.inr h))]
  simp [cachedReply, popWrites_of h, hc, Option.filter, hr]

theorem execRemoteRequest_first (hc : (s.dest p.srcm.toNat).cache.lookup (p.rid.toNat % 256) = none) (hh : remoteHeld s p = false) :
    execRemoteRequest p s = .next (sendReply ((performRemote s p).2.updDest p.srcm.toNat (fun d => { d with
      cache := setA d.cache (p.rid.toNat % 256) (performRemote s p).1 })) (performRemote s p).1) := by
  rw [execRemoteRequest_access (pop_lt_four (.inr h)), cachedReply_new hc]
  simp [hh, popWrites_of h]

end

theorem execRemoteReply_unknown (h : s.tagOwner.find? (fun t => t.1 == p.tag && t.2.1 == p.srcm.toNat) = none) :
    execRemoteReply p s = .next s := by
  simp only [execRemoteReply, h]

@[simp] theorem remoteRedFault_mem {r : RedReq} {k : Nat} : (remoteRedFault s r k).mem = s.mem := rfl
@[simp] theorem remoteRedFault_tagOwner {r : RedReq} {k : Nat} : (remoteRedFault s r k).tagOwner = s.tagOwner := rfl
@[simp] theorem remoteRedFault_agenda {r : RedReq} {k : Nat} : (remoteRedFault s r k).agenda = s.agenda := rfl

theorem execRemoteReply_ends {t : BitVec 16 × Nat × Nat × W64} (h : s.tagOwner.find? (fun t => t.1 == p.tag && t.2.1 == p.srcm.toNat) = some t) :
    ∃ v, execRemoteReply p s = .next v ∧ v.tagOwner = s.tagOwner.filter (fun x => x != t) ∧ v.mem = s.mem ∧ v.agenda = s.agenda := by
  simp only [execRemoteReply, h]
  refine ⟨_, rfl, ?_⟩
  split
  · split
    · exact ⟨rfl, rfl, rfl⟩
    · exact ⟨rfl, rfl, rfl⟩
  · exact ⟨rfl, rfl, rfl⟩

end Sys2Proof.Machine
end

section
/-! SUPPORT. The messages and the timeouts of a gang (R359 to R362, Table 19-9), by its state at this member. -/
namespace Sys2Proof.Machine

variable {g : BitVec 32} {m : BitVec 6} {s : State}

theorem execGangCommitReceived_unknown (hx : gangOf s g = none) : execGangCommitReceived g s = .next s := by
  simp only [execGangCommitReceived, hx]

section
variable {x : Gang} (hx : gangOf s g = some x)
include hx

theorem hearGang_known : hearGang s g = s := by simp [hearGang, hx]

theorem execGangReadyReceived_leader (ht : x.st = .tentative) (hl : leads s x = true) : execGangReadyReceived g m s =
    .next (gangTry (updGang s g (fun x => { x with readyFrom := x.readyFrom ||| BitVec.ofNat 64 (2 ^ m.toNat) })) g) := by
  simp [execGangReadyReceived, hearGang_known hx, hx, ht, hl]

theorem execGangLeaderTimeout_aborts (ht : x.st = .tentative) (hl : leads s x = true) (h : gangLate s x 1 x.since = true) :
    execGangLeaderTimeout g s = .next (gangDecide s x false (gangLacks s x) true) := by
  simp [execGangLeaderTimeout, hx, ht, hl, h]

section
variable (ht : x.st = .tentative) (hl : leads s x = false)
include ht hl

theorem execGangCommitReceived_member : execGangCommitReceived g s = .next (updGang s g (fun x => { x with st := .confirmed })) := by
  simp [execGangCommitReceived, hx, ht, hl]

theorem execGangAbortReceived_member : execGangAbortReceived g m s = .next (abortGang s x m.toNat) := by
  simp [execGangAbortReceived, hearGang_known hx, hx, ht, hl]

theorem execGangQueryTimeout_asks (ha : x.asked = none) (h : gangLate s x 2 x.since = true) : execGangQueryTimeout g s =
    .next (gangSend (updGang s g (fun x => { x with asked := some s.cycle })) (gangLeader x.mask) 3 g 0) := by
  simp [execGangQueryTimeout, hx, ht, hl, ha, h]

theorem execGangAnswerTimeout_aborts {t : Nat} (ha : x.asked = some t) (h : gangLate s x 1 t = true) : execGangAnswerTimeout g s =
    .next (abortGang (gangSend s (gangLeader x.mask) 2 g s.modid) x (gangLeader x.mask)) := by
  simp [execGangAnswerTimeout, hx, ht, hl, ha, h]

end

section
variable (hw : x.st = .waiting)
include hw

theorem execGangAbortReceived_early : execGangAbortReceived g m s = .next (updGang s g (fun x => { x with decided := some false })) := by
  simp [execGangAbortReceived, hearGang_known hx, hx, hw]

theorem execGangQueryReceived_early :
    execGangQueryReceived g m s = .next (updGang s g (fun x => { x with queries := x.queries ++ [m.toNat] })) := by
  simp [execGangQueryReceived, hearGang_known hx, hx, hw]

end

section
variable {d : Bool} (hd : x.decided = some d) (hs : x.st = .confirmed ∨ x.st = .aborted)
include hd hs

theorem execGangQueryReceived_decided :
    execGangQueryReceived g m s = .next (gangSend s m.toNat (if d then 1 else 2) g x.lacked) := by
  rcases hs with hs | hs <;> simp [execGangQueryReceived, hearGang_known hx, hx, hs, hd]

theorem execGangDecisionExpiry_forgets (hc : x.decidedAt + 2 ^ 26 ≤ s.cycle) (hq : s.queues = []) :
    execGangDecisionExpiry g s = .next { s with gangs := s.gangs.filter (fun y => y.id != g) } := by
  have none : (s.queue x.queue).pkts = [] := by simp [State.queue, hq, getA, Queue.off]
  have kept : (x.st == .confirmed || x.st == .aborted) = true := by rcases hs with h | h <;> simp [h]
  simp only [execGangDecisionExpiry, hx, hd, kept, none, hc, Option.isSome_some, decide_true, List.any_nil, Bool.not_false, Bool.and_self, if_true]

end
end
end Sys2Proof.Machine
end

section
/-! SUPPORT. Collectives (R352, R353, R357): the match of the posts, the start and the end of a bucket, and failures. -/
namespace Sys2Proof.Machine

section
variable {cg : BitVec 8} {seq b : BitVec 32} {m : BitVec 6} {s : State} {c : Coll} (hc : collOf s cg.toNat seq.toNat = some c)
include hc

section
variable {posts : List (BitVec 64 × BitVec 64)} (hm : c.matched = false) (hp : c.mods.length ≤ posts.length + 1)
include hm hp

theorem execCollectiveMatch_differs (h : ∃ q ∈ posts, postKey q.1 q.2 ≠ postKey (c.words.getD 0 0) (c.words.getD 3 0)) :
    execCollectiveMatch cg seq posts s = .next (collFailHere s c 1 (collInvalid c)) := by
  have differs : posts.any (fun p => postKey p.1 p.2 != postKey (c.words.getD 0 0) (c.words.getD 3 0)) = true := by
    simpa only [List.any_eq_true, bne_iff_ne] using h
  simp only [execCollectiveMatch, hc, hm, differs, Bool.false_or, decide_eq_true_eq, Nat.not_lt.mpr hp, if_false, if_true]

theorem execCollectiveMatch_agrees (h : ∀ q ∈ posts, postKey q.1 q.2 = postKey (c.words.getD 0 0) (c.words.getD 3 0)) :
    let s1 := updColl { s with slots := dropPosts c.blk.cg c.blk.seq s.slots [] } c (fun d => { d with matched := true })
    execCollectiveMatch cg seq posts s = .next (if c.blk.count == 0 then collEnd s1 { c with matched := true } 0 else s1) := by
  have agrees : posts.any (fun p => postKey p.1 p.2 != postKey (c.words.getD 0 0) (c.words.getD 3 0)) = false := by
    simpa only [List.any_eq_false, bne_iff_ne, not_not] using h
  simp only [execCollectiveMatch, hc, hm, agrees, Bool.false_or, decide_eq_true_eq, Nat.not_lt.mpr hp, Bool.false_eq_true, if_false]

end

theorem execCollectiveMatchTimeout_fails (hm : c.matched = false) (h : c.since + 2 ^ 26 ≤ s.cycle) :
    execCollectiveMatchTimeout cg seq s = .next (collFailHere s c 2 (collInvalid c)) := by
  simp [-Nat.reducePow, execCollectiveMatchTimeout, hc, hm, Nat.not_lt.mpr h]

theorem execCollectiveBucketStart_pushes {s1 s2 s3 : State} {l : List W32} (hm : c.matched = true) (hb : b.toNat < c.buckets)
    (hn : b.toNat ∉ c.started) (hf : bucketFired s c b.toNat = .ok true s1) (hd : bucketDrain s1 c b.toNat = some s2)
    (ho : ownPart s2 c b.toNat = .ok l s3) : execCollectiveBucketStart cg seq b s =
      .next (updColl (pushPart s3 c b.toNat l) c (fun d => { d with started := insSorted b.toNat d.started })) := by
  simp [execCollectiveBucketStart, hc, hm, Nat.not_le.mpr hb, hn, hf, hd, ho]

theorem execCollectiveBucketDone_counts {xs : List (List (BitVec 32))} {s1 : State} (hs : b.toNat ∈ c.started) (he : b.toNat ∉ c.ended)
    (hw : bucketWrite s c b.toNat xs = .ok () s1) :
    let c1 : Coll := { c with ended := insSorted b.toNat c.ended }
    execCollectiveBucketDone cg seq b xs s = .next
      (if c1.ended.length = c.buckets then collEnd s1 c1 0 else updColl s1 c (fun d => { d with ended := insSorted b.toNat d.ended })) := by
  simp only [execCollectiveBucketDone, hc, List.contains_iff_mem.mpr hs, List.contains_iff_mem, he, hw, Bool.not_true, Bool.false_or, if_false,
    beq_iff_eq, apply_ite Host.Outcome.next]

theorem execCollectiveFailure_link : execCollectiveFailure cg seq 4 m s =
    .next ((if (routeTo s m.toNat).isNone then collFailHere else collFailTold) s c 4 (linkDown c.blk.src m.toNat)) := by
  simp only [execCollectiveFailure, hc]; rfl

theorem execCollectiveFailure_timeout : execCollectiveFailure cg seq 2 m s = .next (collFailTold s c 2 (collInvalid c)) := by
  simp only [execCollectiveFailure, hc]; rfl

end

/-- Settles O60: each event by its own lemma. -/
theorem fabricEvents : Obligations.FabricEvents := by
  intro n w m seq12 cg seq b g p flit s k l
  refine ⟨fun hs hp ht => ?links, fun hp => link_events_wait (linksOpen_early hp), execLinkTrainingFailed_again, execLinkTrainingFailed_third,
    fun hu => ?usable, execLightLost_lit, fun hs hp => execLinkLightDetected_down (linksOpen_of hs hp),
    fun hs hp => execLinkManagementReset_open (linksOpen_of hs hp), fun t hr => ⟨execRerouteResend_holds hr, execRerouteResend_ends hr⟩,
    fun hc => ?held, execRemoteRequest_read, fun h => ⟨fun old => execRemoteRequest_again h, execRemoteRequest_first h⟩,
    execRemoteReply_unknown, fun t => execRemoteReply_ends, fun x hx => ?gang, execGangCommitReceived_unknown, fun c hc => ?collective⟩
  case links =>
    have ho := linksOpen_of hs hp
    exact ⟨execLinkTrained_usable ho ht, execLinkTrained_dark ho ht, execLinkTrained_stranger ho ht, execLinkTrained_duplicate ho ht⟩
  case usable =>
    exact ⟨execWavelengthLost_spare hu, execWavelengthLost_degrades hu, execWavelengthLost_fences hu, execNakReceive_resends hu,
      execAckTimeout_resends hu, execAckTimeout_fences hu, execFlitReceive_ack hu, execFlitReceive_nak hu,
      fun hg => execFlitReceive_next hu hg rfl⟩
  case held =>
    rcases hc with h | ⟨h, hc⟩
    · exact execRemoteRequest_held (pop_lt_four (.inl h)) (cachedReply_read h)
    · exact execRemoteRequest_held (pop_lt_four (.inr h)) (cachedReply_new hc)
  case gang =>
    refine ⟨execGangReadyReceived_leader hx, fun ht hl => ⟨execGangCommitReceived_member hx ht hl, execGangAbortReceived_member hx ht hl,
      execGangQueryTimeout_asks hx ht hl, fun t => execGangAnswerTimeout_aborts hx ht hl⟩,
      fun hw => ⟨execGangAbortReceived_early hx hw, execGangQueryReceived_early hx hw⟩,
      fun d hd hs => ⟨execGangQueryReceived_decided hx hd hs, execGangDecisionExpiry_forgets hx hd hs⟩, execGangLeaderTimeout_aborts hx⟩
  case collective =>
    refine ⟨fun hm => ⟨fun posts hp => ⟨execCollectiveMatch_differs hc hm hp, fun h => ?_⟩, execCollectiveMatchTimeout_fails hc hm⟩,
      fun hm hb hn s1 s2 s3 l => execCollectiveBucketStart_pushes hc hm hb hn, fun hs he xs s1 => execCollectiveBucketDone_counts hc hs he,
      execCollectiveFailure_link hc, execCollectiveFailure_timeout (m := m) hc⟩
    refine ⟨fun h0 => (execCollectiveMatch_agrees hc hm hp h).trans ?_, fun h0 => (execCollectiveMatch_agrees hc hm hp h).trans ?_⟩
    · rw [if_pos (beq_iff_eq.mpr h0)]
    · rw [if_neg (beq_iff_eq.not.mpr h0)]

end Sys2Proof.Machine
end

section
/-! SUPPORT. The homes of chapter 14 hold lines, write queues and event records: no read or write there changes a core or a die, and neither does
a page walk (R317) or what the device asks of another module (R346). -/
namespace Sys2Proof.Machine

/-- The cores and the dies of a module. -/
def State.units (s : State) : List Core × List Die := (s.cores, s.dies)

section
variable {s t : State}

theorem State.cores_of_units (h : t.units = s.units) : t.cores = s.cores := congrArg Prod.fst h
theorem State.dies_of_units (h : t.units = s.units) : t.dies = s.dies := congrArg Prod.snd h

theorem foldl_units {α : Type} {f : State → α → State} (h : ∀ s a, (f s a).units = s.units) (l : List α) (s : State) :
    (l.foldl f s).units = s.units := by
  induction l generalizing s with
  | nil => rfl
  | cons a l ih => rw [List.foldl_cons, ih, h]

theorem ite_units {c : Prop} {_ : Decidable c} {x y : State} (hx : x.units = s.units) (hy : y.units = s.units) :
    (if c then x else y).units = s.units := by
  split
  · exact hx
  · exact hy

-- The arrays and the far-tier caches -----------------------------------------------------------------------------------------

section
variable {l line sl i hn ni tag v d sst epoch : Nat} {n : NDie} {mask dirty present : BitVec 128} {data : BitVec 1024}

@[simp] theorem State.updNDie_units {f : NDie → NDie} : (s.updNDie ni f).units = s.units := rfl
@[simp] theorem State.updGroups_units {p : Group → Bool} {f : Group → Group} : (s.updGroups p f).units = s.units := rfl
@[simp] theorem State.updGroup_units {h : W64} {f : Group → Group} : (s.updGroup h f).units = s.units := rfl
@[simp] theorem poison_units : (poison s line).units = s.units := rfl
@[simp] theorem ftcClear_units : (ftcClear s l).units = s.units := rfl
@[simp] theorem touchRow_units : (touchRow s l).units = s.units := ite_units rfl rfl
@[simp] theorem defLine_units : (defLine s l).units = s.units := ite_units rfl rfl
@[simp] theorem ftcSetMeta_units : (ftcSetMeta s l tag v d sst epoch).units = s.units := touchRow_units
@[simp] theorem touchSlotLine_units : (touchSlotLine s hn line).units = s.units := touchRow_units
@[simp] theorem touchSlot_units : (touchSlot s ni sl).units = s.units := foldl_units (fun _ _ => touchRow_units) _ _
@[simp] theorem rawWrite_units : (rawWrite s line mask data).units = s.units :=
  ite_units (ite_units rfl touchRow_units) (defLine_units.trans touchRow_units)
@[simp] theorem lineWrite_units : (lineWrite s hn line mask data).units = s.units := ite_units rawWrite_units rawWrite_units
@[simp] theorem ftcWriteGood_units : (ftcWriteGood s ni sl i).units = s.units := ite_units (ftcSetMeta_units.trans lineWrite_units) rfl
@[simp] theorem ftcInvalidate_units : (ftcInvalidate s ni sl i).units = s.units := ftcSetMeta_units
@[simp] theorem ftcInstall_units {b : Bool} : (ftcInstall s ni sl tag i b data).units = s.units := rawWrite_units.trans ftcSetMeta_units
@[simp] theorem ftcRewrite_units : (ftcRewrite s n sl i).units = s.units := by
  unfold ftcRewrite
  split
  · exact ftcClear_units.trans ftcSetMeta_units
  · exact ftcClear_units.trans ftcSetMeta_units
@[simp] theorem homeRead0_units : (homeRead0 s hn line).st.units = s.units := by
  unfold homeRead0
  split
  · dsimp only
    split
    · simp only [touchRow_units]
    · split
      · simp only [ftcInvalidate_units, ftcWriteGood_units, touchRow_units]
      · simp only [touchRow_units]
  · simp only [touchRow_units]
@[simp] theorem noticeWrite_units : (noticeWrite s line).units = s.units := by
  unfold noticeWrite
  extract_lets s0 s1
  have h0 : s0.units = s.units := ite_units rfl rfl
  have h1 : s1.units = s.units := ite_units h0 h0
  exact ite_units h1 h1
@[simp] theorem homeWrite0_units : (homeWrite0 s hn line mask data).units = s.units := by
  unfold homeWrite0
  rw [noticeWrite_units, lineWrite_units]
  refine ite_units (ite_units ?_ touchSlotLine_units) rfl
  simp

end

-- Event records and the write queues ----------------------------------------------------------------------------------------

section
variable {put : State → Nat → Nat → BitVec 128 → BitVec 1024 → State} {note : Note} {hn line n k unit idx action count addr sl i pa w : Nat} {h : W64}
  {dirty present mask : BitVec 128} {data : BitVec 1024} {f : Nat → Nat} {r : RedReq} {e : Exc}

@[simp] theorem raiseMsi_units {v : Nat} : (raiseMsi s v).units = s.units := by
  unfold raiseMsi
  split
  · rfl
  · rfl
@[simp] theorem redFault_units : (redFault s r e).units = s.units := rfl
@[simp] theorem atomicMissed0_units : (atomicMissed0 s hn pa).units = s.units := homeRead0_units

theorem recordBy_units (hput : ∀ s hn line mask data, (put s hn line mask data).units = s.units) :
    (recordBy put s unit idx action count addr h).units = s.units := by
  unfold recordBy
  extract_lets l tail at' v mask data r s1 s2 lost
  refine ite_units rfl (ite_units ?_ rfl)
  have h2 : s2.units = s.units := ite_units (hput s1 _ _ _ _) (ite_units rfl rfl)
  exact ite_units (raiseMsi_units.trans h2) h2

section
variable (hnote : ∀ s unit idx action count addr h, (note s unit idx action count addr h).units = s.units)
include hnote

theorem ftcWriteOutBy_units : (ftcWriteOutBy note s hn sl i).units = s.units := by
  unfold ftcWriteOutBy
  refine ite_units (ite_units ?_ touchRow_units) (ftcWriteGood_units.trans touchRow_units)
  rw [ftcRewrite_units, hnote]
  split
  · exact touchRow_units
  · exact touchRow_units
theorem homeWbBy_units : (homeWbBy note s hn line dirty present data).units = s.units := by
  unfold homeWbBy
  extract_lets anyD n w l t u x y s1
  have ht : t.units = s.units := touchSlot_units
  have hu : u.units = s.units := rawWrite_units.trans ht
  have hx : x.units = s.units := (foldl_units (fun _ _ => ftcWriteOutBy_units hnote) _ _).trans ht
  have hy : y.units = s.units := (foldl_units (fun _ _ => ftcSetMeta_units) _ _).trans hx
  have h1 : s1.units = s.units :=
    ite_units (ite_units
      (ite_units (ite_units (ftcSetMeta_units.trans hu) hu) (ite_units (ftcInstall_units.trans ht) (lineWrite_units.trans ht)))
      (ite_units (ftcInstall_units.trans hy) (lineWrite_units.trans ht))) lineWrite_units
  exact ite_units (noticeWrite_units.trans h1) h1
theorem homeAtomicBy_units {x : Nat × State} (e : homeAtomicBy note s hn pa w f = some x) : x.2.units = s.units := by
  unfold homeAtomicBy at e
  dsimp only at e
  split at e
  · cases e
  · split at e
    · cases e
      exact (homeWbBy_units hnote).trans homeRead0_units
    · cases e
      simp
theorem performRedBy_units : (performRedBy note s hn r).units = s.units := by
  unfold performRedBy
  split
  · next e => exact homeAtomicBy_units hnote e
  · simp
theorem serveEntryBy_units : (serveEntryBy note s hn line).units = s.units :=
  ite_units rfl (foldl_units (fun _ _ => performRedBy_units hnote) _ _)
theorem makeRoomBy_units : (makeRoomBy note n s hn k).units = s.units := by
  induction n generalizing s with
  | zero => rfl
  | succ n ih =>
    unfold makeRoomBy
    refine ite_units rfl ?_
    split
    · exact ih
    · exact ih.trans (serveEntryBy_units hnote)
    · rfl
theorem atEntryBy_units : (atEntryBy note s hn line).units = s.units := (serveEntryBy_units hnote).trans (makeRoomBy_units hnote)

end

theorem eventRecordN_units : (eventRecordN n s unit idx action count addr h).units = s.units := by
  induction n generalizing s unit idx action count addr h with
  | zero => exact recordBy_units fun _ _ _ _ _ => homeWrite0_units
  | succ n ih =>
    exact recordBy_units fun _ _ _ _ _ => homeWrite0_units.trans (atEntryBy_units fun _ _ _ _ _ _ _ => ih)
theorem eventRecord_units : (eventRecord s unit idx action count addr h).units = s.units := eventRecordN_units
@[simp] theorem atEntry_units : (atEntry s hn line).units = s.units := atEntryBy_units fun _ _ _ _ _ _ _ => eventRecord_units
@[simp] theorem homeRead_units : (homeRead s hn line).st.units = s.units := homeRead0_units.trans atEntry_units
@[simp] theorem homeWb_units : (homeWb s hn line dirty present data).units = s.units :=
  (homeWbBy_units fun _ _ _ _ _ _ _ => eventRecord_units).trans atEntry_units
theorem physReadN_units : (physReadN n s pa k).2.2.units = s.units := by
  induction n generalizing s pa k with
  | zero => rfl
  | succ n ih =>
    unfold physReadN
    split
    · rfl
    · refine ih.trans ?_
      split
      · exact homeRead_units
      · rfl
@[simp] theorem physRead_units : (physRead s pa n).2.2.units = s.units := physReadN_units

end

-- Requests to other modules and page walks -------------------------------------------------------------------------------------

section
variable {p : Packet} {core n k key base va pa ctx d len : Nat} {h : W64}

theorem nextSend_units {x : Packet × Nat × State} (e : nextSend s = some x) : x.2.2.units = s.units := by
  unfold nextSend at e
  obtain ⟨n, -, hn⟩ := List.exists_of_findSome?_eq_some e
  split at hn
  · split at hn
    · cases hn; rfl
    · cases hn
  · cases hn
theorem flushN_units : (flushN n s).units = s.units := by
  induction n generalizing s with
  | zero => rfl
  | succ n ih =>
    unfold flushN
    split
    · rfl
    · next e => exact ih.trans (nextSend_units e)
@[simp] theorem enqueue_units : (enqueue s p).units = s.units := flushN_units
@[simp] theorem sendRequest_units : (sendRequest s p core h).units = s.units := by
  unfold sendRequest
  exact ite_units rfl enqueue_units

/-- The state in which an access leaves the module, whichever way it ends. -/
def Acc.left {α : Type} : Acc α → State
  | .ok _ s => s
  | .fault _ s => s
  | .wait s => s

section
variable {α : Type} {x : Acc α}
theorem units_of_ok {a : α} (e : x = .ok a t) (h : x.left.units = s.units) : t.units = s.units := by subst e; exact h
theorem units_of_fault {f : Exc} (e : x = .fault f t) (h : x.left.units = s.units) : t.units = s.units := by subst e; exact h
theorem units_of_wait (e : x = .wait t) (h : x.left.units = s.units) : t.units = s.units := by subst e; exact h
end


theorem Acc.bind_units {α β : Type} {x : Acc α} {f : α → State → Acc β} (hx : x.left.units = s.units)
    (hf : ∀ a t, (f a t).left.units = t.units) : (x.bind f).left.units = s.units := by
  cases x with
  | ok a t => exact (hf a t).trans hx
  | fault e t => exact hx
  | wait t => exact hx

theorem devAsk_units : (devAsk s key p pa va len).left.units = s.units := by
  unfold devAsk
  dsimp only
  split
  · split
    · split
      · rfl
      · split
        · rfl
        · rfl
    · split
      · rfl
      · rfl
  · split
    · rfl
    · split
      · rfl
      · exact sendRequest_units
theorem physAskN_units : (physAskN n s key pa k).left.units = s.units := by
  induction n generalizing s pa k with
  | zero => rfl
  | succ n ih =>
    unfold physAskN
    dsimp only
    split
    · rfl
    · split
      · split
        · next e => exact Acc.bind_units (ih.trans (units_of_ok e devAsk_units)) fun _ _ => rfl
        · next e => exact Acc.bind_units (ih.trans (units_of_fault e devAsk_units)) fun _ _ => rfl
        · next e => exact units_of_wait e devAsk_units
      · split
        · rfl
        · exact Acc.bind_units (ih.trans physRead_units) fun _ _ => rfl
theorem walkFrom_units {levels : List Nat} : (walkFrom levels s key base va).2.units = s.units := by
  induction levels generalizing s base with
  | nil => rfl
  | cons lvl rest ih =>
    unfold walkFrom
    dsimp only
    split
    · next e => exact units_of_wait e physAskN_units
    · next e => exact units_of_fault e physAskN_units
    · next e => exact units_of_ok e physAskN_units
    · next s1 e =>
      have h1 : s1.units = s.units := units_of_ok e physAskN_units
      split
      · exact h1
      · split
        · split
          · exact h1
          · exact h1
        · split
          · exact h1
          · exact ih.trans h1
theorem walk_units : (walk s d ctx va).2.units = s.units := by
  unfold walk
  dsimp only
  split
  · exact walkFrom_units
  · exact walkFrom_units

end
end
end Sys2Proof.Machine
end

section
/-! SUPPORT. Package reset and readiness (R363 to R367): the module that a reset leaves, the reason of safe mode, and what a function that
becomes READY or is restored changes. -/
namespace Sys2Proof.Machine

-- Package reset -------------------------------------------------------------------------------------------------------------

section
variable {m : BitVec 6} {cxl : BitVec 8} {fib : BitVec 4} {sigs : BitVec 2} {s t : State}

/-- The module that a package reset leaves before its phase is set. -/
def freshModule (m : BitVec 6) (cxl : BitVec 8) (fib : BitVec 4) (s : State) : State :=
  { State.reset with
    modid := m.toNat, cxlMask := cxl, fibStrap := fib, topo := s.topo, keys := s.keys, fresh := s.fresh,
    ready := (List.range 161).map (fun f => if 120 ≤ f && f < 128 && !bitAt cxl (f - 120) then 3 else if f == 160 then 1 else 0),
    host := { HostRegs.reset with fibmode := BitVec.ofNat 64 (portMode fib.toNat 0 + 4 * portMode fib.toNat 1) },
    strs := (List.range 8).map (fun n =>
      let m' := if n < 6 then 0 else portMode fib.toNat (n - 6)
      { Str.reset with mode := m', notes := if m' == 2 then [askComb m.toNat] else [] }) }

/-- The ways in which a package reset can end. -/
def ResetEnds (m : BitVec 6) (cxl : BitVec 8) (fib : BitVec 4) (s t : State) : Prop :=
  t = { freshModule m cxl fib s with phase := 2 } ∨ ∃ k, t = enterSafe { freshModule m cxl fib s with phase := 1 } k

theorem execPackageReset_starts (h : resetReason s m.toNat cxl fib sigs = 0) :
    execPackageReset m cxl fib sigs s = .next { freshModule m cxl fib s with phase := 2 } :=
  congrArg Host.Outcome.next (if_pos (beq_iff_eq.mpr h))

theorem execPackageReset_safe {k : Nat} (h : resetReason s m.toNat cxl fib sigs = k) (hk : k ≠ 0) :
    execPackageReset m cxl fib sigs s = .next (enterSafe { freshModule m cxl fib s with phase := 1 } k) := by
  subst h
  exact congrArg Host.Outcome.next (if_neg (beq_iff_eq.not.mpr hk))

theorem execPackageReset_ends : ∃ t, execPackageReset m cxl fib sigs s = .next t ∧ ResetEnds m cxl fib s t := by
  by_cases h : resetReason s m.toNat cxl fib sigs = 0
  · exact ⟨_, execPackageReset_starts h, .inl rfl⟩
  · exact ⟨_, execPackageReset_safe rfl h, .inr ⟨_, rfl⟩⟩

theorem ResetEnds.nothing_placed (h : ResetEnds m cxl fib s t) : t.topo = s.topo ∧ t.modid = m.toNat ∧ t.cxlMask = cxl ∧ t.fibStrap = fib ∧
    t.grp.st = .none ∧ t.others = [] ∧ t.ctxs = [] ∧ t.kerns = [] ∧ t.queues = [] ∧ t.mem = [] ∧ fieldOf t.host.attaddr 1 0 = 0 := by
  have attaddr : fieldOf (0 : W64) 1 0 = 0 := by decide
  rcases h with rfl | ⟨k, rfl⟩
  · exact ⟨rfl, rfl, rfl, rfl, rfl, rfl, rfl, rfl, rfl, rfl, attaddr⟩
  · exact ⟨rfl, rfl, rfl, rfl, rfl, rfl, rfl, rfl, rfl, rfl, attaddr⟩

theorem freshModule_ready {f : Nat} (hf : f < 161) (d : Nat) : (freshModule m cxl fib s).ready.getD f d =
    if 120 ≤ f && f < 128 && !bitAt cxl (f - 120) then 3 else if f == 160 then 1 else 0 := by
  simp [freshModule, List.getD_eq_getElem?_getD, hf]

theorem enterSafe_ready {k f : Nat} (hf : f < 161) (d : Nat) :
    (enterSafe s k).ready.getD f d = if f == 160 then 1 else if s.ready.getD f 0 == 3 then 3 else 0 := by
  simp only [enterSafe, List.getD_eq_getElem?_getD, List.getElem?_map, List.getElem?_range hf, Option.map_some, Option.getD_some]

theorem ResetEnds.ready (h : ResetEnds m cxl fib s t) : t.ready.getD 160 0 = 1 ∧ ∀ k, k < 120 → t.ready.getD k 3 = 0 := by
  have fresh := @freshModule_ready m cxl fib s
  rcases h with rfl | ⟨r, rfl⟩
  · refine ⟨(fresh (by omega) 0).trans rfl, fun k hk => (fresh (by omega) 3).trans ?_⟩
    rw [if_neg (by simp; omega), if_neg (by simp; omega)]
  · refine ⟨(enterSafe_ready (by omega) 0).trans rfl, fun k hk => (enterSafe_ready (by omega) 3).trans ?_⟩
    have unready : (freshModule m cxl fib s).ready.getD k 0 = 0 := by
      rw [fresh (by omega), if_neg (by simp; omega), if_neg (by simp; omega)]
    rw [if_neg (by simp; omega), if_neg (by rw [unready]; decide)]

theorem freshModule_str {n : Nat} (hn : n < 8) :
    ((freshModule m cxl fib s).str n).comb = .primary ∧ ((freshModule m cxl fib s).str n).sess = .free := by
  simp [freshModule, State.str, List.getD_eq_getElem?_getD, hn, Str.reset]

theorem ResetEnds.str (h : ResetEnds m cxl fib s t) (n : Nat) (hn : n < 8) : (t.str n).comb = .primary ∧ (t.str n).sess = .free := by
  have fresh := @freshModule_str m cxl fib s n hn
  rcases h with rfl | ⟨k, rfl⟩
  · exact fresh
  · exact fresh

theorem resetReason_verified (hs : sigs = 0) (hm : m.toNat = s.topo.1) (hc : cxl = s.topo.2.1) (hf : fib = s.topo.2.2.1) :
    resetReason s m.toNat cxl fib sigs = 0 := by
  simp [resetReason, hs, hm, hc, hf, bitAt]

theorem resetReason_rsa (h : sigs.getLsbD 0 = true) : resetReason s m.toNat cxl fib sigs = 1 := if_pos h

theorem resetReason_slh (h0 : sigs.getLsbD 0 = false) (h1 : sigs.getLsbD 1 = true) : resetReason s m.toNat cxl fib sigs = 2 :=
  (if_neg (by rw [bitAt, ← BitVec.getLsbD, h0]; decide)).trans (if_pos h1)

theorem resetReason_straps (hs : sigs = 0) (h : m.toNat ≠ s.topo.1 ∨ cxl ≠ s.topo.2.1 ∨ fib ≠ s.topo.2.2.1) :
    resetReason s m.toNat cxl fib sigs = 3 := by
  have differ : (m.toNat != s.topo.1 || cxl != s.topo.2.1 || fib != s.topo.2.2.1) = true := by simpa [or_assoc] using h
  simp [resetReason, hs, bitAt, differ]

end

-- Readiness ------------------------------------------------------------------------------------------------------------------

section
variable {s : State}

theorem raiseMsi_keeps (v : Nat) : ∃ a b, raiseMsi s v = { s with msiSent := a, msiPend := b } := by
  unfold raiseMsi
  split
  · exact ⟨_, _, rfl⟩
  · exact ⟨_, _, rfl⟩

theorem foldl_raiseMsi_keeps (l : List Nat) : ∃ a b, l.foldl raiseMsi s = { s with msiSent := a, msiPend := b } := by
  induction l generalizing s with
  | nil => exact ⟨_, _, rfl⟩
  | cons v l ih =>
    obtain ⟨a, b, h⟩ := raiseMsi_keeps (s := s) v
    obtain ⟨a', b', h'⟩ := ih (s := raiseMsi s v)
    exact ⟨a', b', by rw [List.foldl_cons, h', h]⟩

theorem flushMsi_keeps : ∃ a b, flushMsi s = { s with msiSent := a, msiPend := b } := foldl_raiseMsi_keeps _

theorem foldl_postE_keeps {α : Type} (f : α → Event) (l : List α) : ∃ a, l.foldl (fun s p => s.postE (f p)) s = { s with agenda := a } := by
  induction l generalizing s with
  | nil => exact ⟨_, rfl⟩
  | cons p l ih =>
    obtain ⟨a, h⟩ := ih (s := s.postE (f p))
    exact ⟨a, h⟩

theorem postAdmit_keeps (n : Nat) : ∃ a, postAdmit s n = { s with agenda := a } := by
  unfold postAdmit
  split
  · exact ⟨_, rfl⟩
  · exact ⟨_, rfl⟩

theorem readyNow_keeps (k : Nat) : ∃ a, readyNow s k = { s with remWait := [], agenda := a } := by
  obtain ⟨a, h⟩ := foldl_postE_keeps (s := { s with remWait := [] }) Event.remoteRequest s.remWait
  unfold readyNow
  rw [h]
  split
  · exact postAdmit_keeps _
  · split
    · exact postAdmit_keeps _
    · exact ⟨_, rfl⟩

theorem phaseOf_last {s : State} (hp : s.phase = 2) (h : ∀ k, k < 161 → s.ready.getD k 1 ≠ 0) : phaseOf s = 3 := by
  have none : (List.range 161).any (starting s) = false := by
    simp only [List.any_eq_false, List.mem_range]
    intro k hk
    simp only [starting, beq_false_of_ne (h k hk), Bool.false_and, Bool.false_eq_true, not_false_eq_true]
  simp only [phaseOf, hp, none, Bool.not_false, Bool.and_self, beq_self_eq_true, if_true]

theorem execFunctionReady_starts {f : BitVec 8} (h : canStart s f.toNat = true) :
    let s1 : State := { s with ready := updAt s.ready f.toNat (fun _ => 1) }
    ∃ a b c, execFunctionReady f s = .next { s1 with phase := phaseOf s1, msiSent := a, msiPend := b, remWait := [], agenda := c } := by
  intro s1
  obtain ⟨a, b, hm⟩ := flushMsi_keeps (s := { s1 with phase := phaseOf s1 })
  obtain ⟨c, hr⟩ := readyNow_keeps (s := flushMsi { s1 with phase := phaseOf s1 }) f.toNat
  refine ⟨a, b, c, ?_⟩
  simp only [execFunctionReady, h, Bool.not_true, Bool.false_eq_true, if_false]
  rw [hr, hm]

theorem canStart_of {f : Nat} (hs : s.safe = false) (hp : s.phase = 2) (hf : f ≤ 160) (hr : s.ready.getD f 3 = 0)
    (hu : 128 ≤ f → f < 144 → linkUsable s (f - 128) = true) : canStart s f = true := by
  have link : (128 ≤ f && f < 144 && !linkUsable s (f - 128)) = false := by
    by_cases h : 128 ≤ f ∧ f < 144
    · simp [hu h.1 h.2]
    · simp only [← Bool.decide_and, h, decide_false, Bool.false_and]
  simp only [canStart, hs, hp, hf, hr, link]
  decide

/-- A function becomes READY; with the last of them the module runs. -/
theorem execFunctionReady_ready {f : BitVec 8} (hp : s.phase = 2) (hf : f.toNat ≤ 160) (hl : s.ready.length = 161) (h : canStart s f.toNat = true) :
    ∃ t, execFunctionReady f s = .next t ∧ t.ready = updAt s.ready f.toNat (fun _ => 1) ∧ t.remWait = [] ∧ t.grp = s.grp ∧ t.mem = s.mem ∧
      ((∀ k, k < 161 → k ≠ f.toNat → s.ready.getD k 0 ≠ 0) → t.phase = 3) := by
  obtain ⟨a, b, c, e⟩ := execFunctionReady_starts h
  refine ⟨_, e, rfl, rfl, rfl, rfl, fun others => phaseOf_last hp fun k hk => ?_⟩
  by_cases hkf : k = f.toNat
  · subst hkf
    rw [getD_updAt_self _ _ _ _ (by omega)]
    decide
  · rw [getD_updAt_other _ _ _ _ _ (Ne.symm hkf)]
    have := others k hk hkf
    rwa [List.getD_eq_getElem _ _ (by omega)] at this ⊢

theorem execFunctionReady_early {f : BitVec 8} (hp : s.phase < 2) : execFunctionReady f s = .next s := by
  simp [execFunctionReady, canStart, Nat.not_le.mpr hp]

theorem execFunctionRestore_core {core : BitVec 7} (hs : s.safe = false) (hc : core.toNat < 96) (hr : s.ready.getD core.toNat 0 = 2)
    (hl : s.cores.length = 96) : ∃ t, execFunctionRestore (core.setWidth 8) s = .next t ∧ t.ready = updAt s.ready core.toNat (fun _ => 0) ∧
      (t.core core.toNat).l1 = [] ∧ (t.core core.toNat).tlb = [] ∧ t.mem = s.mem := by
  have number : (core.setWidth 8).toNat = core.toNat := by rw [BitVec.toNat_setWidth]; omega
  have started : startFunction s core.toNat = s.updCore core.toNat (fun _ => .reset) := if_pos hc
  have emptied : (s.updCore core.toNat (fun _ => .reset)).core core.toNat = .reset := State.core_updCore_self _ (by omega)
  refine ⟨withReroutes s { s.updCore core.toNat (fun _ => .reset) with ready := updAt s.ready core.toNat (fun _ => 0) }, ?_, rfl, ?_, ?_, rfl⟩
  · simp only [execFunctionRestore, number, hs, started]
    rw [if_neg (by simp; omega), if_neg (by simp; omega), if_neg (by rw [hr]; decide)]
    rfl
  · exact congrArg Core.l1 emptied
  · exact congrArg Core.tlb emptied

end
end Sys2Proof.Machine
end

section
/-! SUPPORT. The takeover by a spare ends (R10, R335): the acquire of the core's number and the groups that resume on it leave alone what the
dies hold of their spares. -/
namespace Sys2Proof.Machine

section
variable {s t : State} {c d k : Nat}

/-- The core of a die that its spare is taking over from, and whether the spare is used. -/
def State.spare (s : State) (d : Nat) : Option Nat × Bool := ((s.die d).moving, (s.die d).spareUsed)

theorem State.spare_of_dies (h : t.dies = s.dies) : t.spare d = s.spare d := by simp only [State.spare, State.die, h]
theorem State.spare_of_units (h : t.units = s.units) : t.spare d = s.spare d := State.spare_of_dies (State.dies_of_units h)

/-- What an update of one element keeps of each element, it keeps of the list. -/
theorem getD_updAt_keeps {α β : Type} {g : α → β} {f : α → α} (hf : ∀ x, g (f x) = g x) :
    ∀ (l : List α) (i j : Nat) (d : α), g ((updAt l i f).getD j d) = g (l.getD j d)
  | [], _, _, _ => rfl
  | x :: _, 0, 0, _ => hf x
  | _ :: _, 0, _ + 1, _ => rfl
  | _ :: _, _ + 1, 0, _ => rfl
  | _ :: l, i + 1, j + 1, d => getD_updAt_keeps hf l i j d

theorem State.updDie_spare {f : Die → Die} (hf : ∀ x, ((f x).moving, (f x).spareUsed) = (x.moving, x.spareUsed)) :
    (s.updDie d f).spare k = s.spare k :=
  getD_updAt_keeps (g := fun x : Die => (x.moving, x.spareUsed)) hf _ _ _ _

theorem foldl_spare {α : Type} {f : State → α → State} (h : ∀ s a, (f s a).spare k = s.spare k) (l : List α) (s : State) :
    (l.foldl f s).spare k = s.spare k := by
  induction l generalizing s with
  | nil => rfl
  | cons a l ih => rw [List.foldl_cons, ih, h]

theorem l2CleanRaw_spare {line : Nat} : (l2CleanRaw s d line).spare k = s.spare k := by
  unfold l2CleanRaw
  split
  · split
    · rfl
    · exact (State.spare_of_units homeWb_units).trans (State.updDie_spare fun _ => rfl)
  · rfl
theorem advanceGen_spare : (advanceGen s d).spare k = s.spare k := by
  refine (State.updDie_spare ?_).trans (foldl_spare (fun _ _ => l2CleanRaw_spare) _ _)
  exact fun _ => rfl
theorem ilApply_spare : (ilApply s d).spare k = s.spare k := by
  unfold ilApply
  dsimp only
  split
  · rfl
  · refine (foldl_spare ?_ _ _).trans ((State.updDie_spare ?_).trans ?_)
    · exact fun _ _ => rfl
    · exact fun _ => rfl
    · rfl
theorem acquire_spare {h : W64} {sc : Nat} : (acquire s h c sc).left.spare k = s.spare k := by
  unfold acquire
  dsimp only
  split
  · rfl
  · simp only [Acc.left]
    split
    · refine ilApply_spare.trans (advanceGen_spare.trans ?_)
      split
      · rfl
      · rfl
    · split
      · rfl
      · rfl

theorem State.focus_dies {h : W64} : (s.focus h).dies = s.dies := by
  unfold State.focus
  split
  · rfl
  · split
    · rfl
    · rfl
theorem retireIfEnded_dies : (retireIfEnded s).dies = s.dies := by
  unfold retireIfEnded
  split
  · split
    · rfl
    · split
      · split
        · rfl
        · rfl
      · rfl
  · rfl
theorem onGroup_dies {h : W64} {f : State → State} (hf : ∀ s, (f s).dies = s.dies) : (onGroup s h f).dies = s.dies := by
  unfold onGroup
  split
  · rfl
  · rw [State.focus_dies, hf, State.focus_dies]
theorem resumeMoved_spare {h : W64} : (resumeMoved s h).spare k = s.spare k :=
  State.spare_of_dies (onGroup_dies fun _ => retireIfEnded_dies)

theorem execSpareTakeoverDone_ends {die : BitVec 4} (hd : die.toNat < s.dies.length) (hm : (s.die die.toNat).moving = some c) :
    ∃ t, execSpareTakeoverDone die s = .next t ∧ (t.die die.toNat).moving = none ∧ (t.die die.toNat).spareUsed = true := by
  have ends : ∃ t, execSpareTakeoverDone die s = .next t ∧ t.spare die.toNat = (none, true) := by
    unfold execSpareTakeoverDone
    simp only [hm]
    refine ⟨_, rfl, (foldl_spare (fun _ _ => resumeMoved_spare) _ _).trans ?_⟩
    generalize hs : State.updCore (s.updDie die.toNat _) c _ = s1
    have begun : s1.spare die.toNat = (none, true) := by
      subst hs
      exact congrArg (fun x : Die => (x.moving, x.spareUsed)) (getD_updAt_self _ _ _ _ hd)
    have kept := acquire_spare (s := s1) (k := die.toNat) (h := 0) (c := c) (sc := 3)
    rw [← begun, ← kept]
    cases acquire s1 0 c 3 <;> rfl
  obtain ⟨t, e, h⟩ := ends
  exact ⟨t, e, congrArg Prod.fst h, congrArg Prod.snd h⟩

end
end Sys2Proof.Machine
end

section
/-! SUPPORT. Power (R370), faults of cores with the takeover by a spare (R10, R335, R336), and storage that is lost or corrected (R334). -/
namespace Sys2Proof.Machine

section
variable {s s0 : State} {core : BitVec 7} {die : BitVec 4}

theorem execPowerLimitThrottle_slows (h : 1200 < s.clockMHz) : execPowerLimitThrottle s = .next { s with clockMHz := s.clockMHz - 100 } :=
  if_pos h

/-- A core that runs no group faults, and the spare of its die begins to take over. -/
theorem execCoreFault_spare (hc : core.toNat < 96) (hr : s.ready.getD core.toNat 0 = 1) (hm : (s.die (core.toNat / 8)).moving = none)
    (hs : (s.die (core.toNat / 8)).spareUsed = false) (hg : coreGroups s core.toNat = []) (hw : l1WbAll s core.toNat = some s0) :
    execCoreFault core [] s = .next ((eventRecord ((s0.updCore core.toNat (fun x => { x with failing := none })).updDie (core.toNat / 8)
      (fun d => { d with moving := some core.toNat })) 0 core.toNat 3 1 0 0).postE (.spareTakeoverDone (BitVec.ofNat 4 (core.toNat / 8)))) := by
  simp [-List.getD_eq_getElem?_getD, execCoreFault, dieOf, Nat.not_le.mpr hc, hr, hm, hs, hg, hw]

theorem execCoreFault_down (hr : s.ready.getD core.toNat 0 ≠ 1) : execCoreFault core [] s = .next s := by
  simp [-List.getD_eq_getElem?_getD, execCoreFault, hr]

theorem execStorageLost_fences (hd : die.toNat < 12) (hl : s.lost.contains die.toNat = false) : execStorageLost 0 die s =
    .next (eventRecord { s with lost := insSorted die.toNat s.lost, ready := updAt s.ready (108 + die.toNat) (fun _ => 2) } 3 die.toNat 4 1 0 0) := by
  simp [-List.contains_eq_mem, execStorageLost, hl, Nat.not_le.mpr hd]

theorem noteCorrected_first {u idx k n : Nat} (h : s.corrected.lookup (u, idx) = none) : noteCorrected s u idx k n =
    eventRecord { s with corrected := s.corrected.filter (fun c => c.1 != (u, idx)) ++ [((u, idx), (s.cycle, 0))] } u idx k n 0 0 := by
  simp only [noteCorrected, h]

end

/-- Settles O59: each event by its own lemma. -/
theorem bringupEvents : Obligations.BringupEvents := by
  intro m cxl fib sigs f core die idx cnt serial neigh s
  refine ⟨?reset, fun hs hp hf hl hr hu => execFunctionReady_ready hp hf hl (canStart_of hs hp hf hr hu), execFunctionReady_early,
    execFunctionRestore_core, rfl, execPowerLimitThrottle_slows, fun hc hr hm hs hg s0 => execCoreFault_spare hc hr hm hs hg,
    execCoreFault_down, fun c hd hl => execSpareTakeoverDone_ends (hl ▸ hd), execStorageLost_fences, fun h => congrArg Host.Outcome.next (noteCorrected_first h)⟩
  case reset =>
    obtain ⟨t, e, ends⟩ := execPackageReset_ends (m := m) (cxl := cxl) (fib := fib) (sigs := sigs) (s := s)
    have safe {k : Nat} (hk : k ≠ 0) (h : resetReason s m.toNat cxl fib sigs = k) :
        t = enterSafe { freshModule m cxl fib s with phase := 1 } k :=
      Host.Outcome.next.inj (e.symm.trans (execPackageReset_safe h hk))
    obtain ⟨topo, modid, mask, fibre, grp, others, ctxs, kerns, queues, mem, attaddr⟩ := ends.nothing_placed
    refine ⟨t, e, topo, modid, mask, fibre, grp, others, ctxs, kerns, queues, mem, attaddr, ends.ready.1, ends.ready.2, ends.str,
      fun hs hm hc hf => ?_, fun h => ?_, fun h0 h1 => ?_, fun hs h => ?_⟩
    · have started : t = { freshModule m cxl fib s with phase := 2 } :=
        Host.Outcome.next.inj (e.symm.trans (execPackageReset_starts (resetReason_verified hs hm hc hf)))
      subst started
      exact ⟨rfl, rfl, rfl⟩
    · obtain rfl := safe (by decide) (resetReason_rsa h)
      exact ⟨rfl, rfl⟩
    · obtain rfl := safe (by decide) (resetReason_slh h0 h1)
      exact ⟨rfl, rfl⟩
    · obtain rfl := safe (by decide) (resetReason_straps hs h)
      exact ⟨rfl, rfl⟩

end Sys2Proof.Machine
end

section
/-! SUPPORT. Invalidation requests of the host (R321 to R323), page walks (R317, R319) and the steps of a migration (R326, R327, Table 17-3). -/
namespace Sys2Proof.Machine

section
variable {s s1 : State} {c ctx va : Nat}

-- Invalidation and translation -----------------------------------------------------------------------------------------------

theorem ilRequest_appends {kind : Nat} {sync : BitVec 1} : ilRequest s kind ctx va sync =
    .next (answerIl (if sync = 1 then ilApplyAll (ilAppend s kind ctx va) else ilAppend s kind ctx va) 0) := by
  simp [ilRequest]

theorem execInvalidationAppend_appends {k : BitVec 2} {x : BitVec 8} {a : BitVec 41} (h : k ≠ 3) :
    execInvalidationAppend k x a s = .next (ilAppend s k.toNat x.toNat (a.toNat * 65536)) :=
  if_neg (beq_iff_eq.not.mpr h)

section
variable {core : BitVec 7} {x : BitVec 8} {a : BitVec 64}

theorem execPageWalk_waits (h : walkWaits s core.toNat x.toNat a.toNat = true) : execPageWalk core x a s = .next s := by
  simp [execPageWalk, h]

theorem execPageWalk_walks (hc : core.toNat < 96) (ha : a.toNat < 2 ^ 57) (h : walkWaits s core.toNat x.toNat a.toNat = false) :
    execPageWalk core x a s = .next (findLeaf s core.toNat x.toNat a.toNat).2 := by
  have low : highVa a.toNat = false := decide_eq_false (Nat.not_le.mpr ha)
  simp only [execPageWalk, h, low, ge_iff_le, Nat.not_le.mpr hc, decide_false, Bool.or_self, Bool.false_eq_true, if_false]

end

/-- Whether a translation is the one of an address. -/
def TlbEnt.maps (ctx va : Nat) (t : TlbEnt) : Bool := t.ctx == ctx && va / 2 ^ lvlShift t.lvl == t.vpn

theorem maps_of_tlbFind {l : List TlbEnt} {t : TlbEnt} (h : tlbFind l ctx va = some t) : t.maps ctx va = true :=
  List.find?_some (p := TlbEnt.maps ctx va) h

/-- A translation put first in the TLB of a core is found there. -/
theorem tlbFill_found {t : TlbEnt} (hc : c < s.cores.length) (ht : t.maps ctx va = true) :
    (tlbFind ((tlbFill s c t).core c).tlb ctx va).isSome = true := by
  have filled : ((tlbFill s c t).core c).tlb = t :: (s.core c).tlb.take 255 := congrArg Core.tlb (State.core_updCore_self _ hc)
  rw [filled]
  exact congrArg Option.isSome (List.find?_cons_of_pos (p := TlbEnt.maps ctx va) ht)

theorem findLeaf_fills {l pa : Nat} {e : W64} (hc : c < s.cores.length) (h : (findLeaf s c ctx va).1 = .leaf l e pa) :
    (tlbFind ((findLeaf s c ctx va).2.core c).tlb ctx va).isSome = true := by
  unfold findLeaf at h ⊢
  cases hcore : tlbFind (s.core c).tlb ctx va with
  | some t => simp [hcore]
  | none =>
    cases hdie : tlbFind (s.die (dieOf c)).tlb ctx va with
    | some t => exact tlbFill_found hc (maps_of_tlbFind hdie)
    | none =>
      simp only [hcore, hdie] at h ⊢
      split
      · refine tlbFill_found ?_ (by simp [TlbEnt.maps])
        rw [State.cores_of_units walk_units]
        exact hc
      · next other =>
        split at h
        · next e => exact absurd e (other _ _ _)
        · exact absurd h (other _ _ _)

-- Migration ------------------------------------------------------------------------------------------------------------------

section
variable {v : BitVec 64} {x : Nat}

/-- MIGH as the answer to a submission leaves it (R326). -/
def migAnswer (v : BitVec 64) (s : State) (res : Nat) : Out :=
  .next { s with host := { s.host with migh := BitVec.ofNat 64 (fieldOf v 63 56 * 2 ^ 56 + res * 2 ^ 52 + fieldOf v 51 5 * 32) } }

theorem execMigh_submits (ho : regOpen s = true) (h : physAsk { s with mighWait := none } (fieldOf v 51 5 * 32) 32 = .ok (x, none) s1)
    (hm : ownMem s (fieldOf v 51 5 * 32) = true ∨ inRemote (fieldOf v 51 5 * 32) = true) (hf : (s.ctx (fieldOf v 63 56)).st ≠ .free) :
    execMigh v s = if (migSubmit s1 0 (fieldOf v 63 56) x).1 = 5 then .next { (migSubmit s1 0 (fieldOf v 63 56) x).2 with mighWait := some v }
      else migAnswer v (migSubmit s1 0 (fieldOf v 63 56) x).2 (migSubmit s1 0 (fieldOf v 63 56) x).1 := by
  have readable : (ownMem s (fieldOf v 51 5 * 32) || inRemote (fieldOf v 51 5 * 32)) = true := by simpa using hm
  simp only [execMigh, ho, h, readable, beq_false_of_ne hf, beq_iff_eq, Option.isSome_none, Bool.not_true, Bool.or_self, Bool.false_eq_true,
    if_false]
  rfl

end

/-- A step of migration `n` of an engine that writes its leaf by one compare and swap: what follows where the swap takes place. -/
def leafSwap (s : State) (m : Migr) (e n new : Nat) (follow : State → State) (f : Migr → Migr) : Out :=
  match leafCas s m new with
  | .ok true s1 => .next (updMigr (follow (migInvalidate s1 m)) e n (fun m => f { m with leaf := BitVec.ofNat 64 new }))
  | .ok false s1 => .next (updMigr s1 e n (fun m => { m with step := 5, status := 2 }))
  | .fault _ s1 => .next s1
  | .wait s1 => .next s1

theorem leafSwap_id {m : Migr} {e n new : Nat} {f : Migr → Migr} :
    leafSwap s m e n new id f = leafSwap s m e n new (fun s => s) f :=
  congrArg (fun g => leafSwap s m e n new g f) rfl

section
variable {e : BitVec 1} {k : BitVec 4} {m : Migr} (hm : (s.migActive.getD e.toNat [])[k.toNat]? = some m)
include hm

theorem execMigrationStep_marks (h : m.step = 1) : execMigrationStep e k s =
    leafSwap s m e.toNat k.toNat (m.leaf.toNat - fieldOf m.leaf 12 11 * 2 ^ 11 + 2 ^ 11) (fun s => s) (fun x => { x with step := 2 }) := by
  rw [← leafSwap_id]
  simp only [execMigrationStep, hm, h]
  rfl

theorem execMigrationStep_unmarks (h : m.step = 3) (hs : m.status = 1) : execMigrationStep e k s =
    leafSwap s m e.toNat k.toNat (m.leaf.toNat - fieldOf m.leaf 12 11 * 2 ^ 11) (fun s => s) (fun x => { x with step := 5 }) := by
  rw [← leafSwap_id]
  simp only [execMigrationStep, hm, h, hs]
  rfl

theorem execMigrationStep_moves (h : m.step = 4) : execMigrationStep e k s =
    leafSwap s m e.toNat k.toNat (migLeaf m) (fun s => followPage s m (BitVec.ofNat 64 (migLeaf m))) (fun x => { x with step := 5 }) := by
  simp only [execMigrationStep, hm, h]
  rfl

theorem execMigrationStep_flush_waits (h : m.step = 2) (hf : rangeFlush s m.src (pageSize m.level) = none) :
    execMigrationStep e k s = .next s := by
  simp only [execMigrationStep, hm, h, hf]

theorem execMigrationStep_flushes (h : m.step = 2) (hf : rangeFlush s m.src (pageSize m.level) = some s1) : execMigrationStep e k s =
    .next (updMigr (settleRange s1 (homeOf m.src (some (fieldOf m.leaf 9 8))) m.src (pageSize m.level)) e.toNat k.toNat
      (fun x => { x with step := 3 })) := by
  simp only [execMigrationStep, hm, h, hf]

theorem execMigrationStep_copies (h : m.step = 3) (hs : m.status ≠ 1) (hr : inRemote m.src = false) : execMigrationStep e k s =
    if (migCopy s m).1 = true then .next (updMigr (migCopy s m).2 e.toNat k.toNat (fun x => { x with step := 4 }))
    else .next (updMigr (migCopy s m).2 e.toNat k.toNat (fun x => { x with status := 1 })) := by
  simp only [execMigrationStep, hm, h, hr, beq_false_of_ne hs, Bool.false_eq_true, if_false]

theorem execMigrationStep_drops (h : m.step = 5) (hs : m.status = 0) :
    execMigrationStep e k s = .next (updMigr (rangeDrop s m.src (pageSize m.level)) e.toNat k.toNat (fun x => { x with step := 6 })) := by
  simp only [execMigrationStep, hm, h, hs]
  rfl

theorem execMigrationStep_finishes (h : m.step = 6) : execMigrationStep e k s = migFinish s e.toNat k.toNat m := by
  simp only [execMigrationStep, hm, h]

end

section
variable {m : Migr} {e n new : Nat} {follow : State → State} {f : Migr → Migr}

section
variable {o : Out} (ho : o = leafSwap s m e n new follow f)
include ho

theorem leafSwap_taken (h : leafCas s m new = .ok true s1) :
    o = .next (updMigr (follow (migInvalidate s1 m)) e n (fun m => f { m with leaf := BitVec.ofNat 64 new })) := by
  simp only [ho, leafSwap, h]

theorem leafSwap_lost (h : leafCas s m new = .ok false s1) : o = .next (updMigr s1 e n (fun x => { x with step := 5, status := 2 })) := by
  simp only [ho, leafSwap, h]

end

theorem leafCas_home {old : Nat} (hr : inRemote m.leafPa = false)
    (h : homeAtomic s (homeOf m.leafPa none) m.leafPa 8 (fun x => if x == m.leaf.toNat then new else x) = some (old, s1)) :
    leafCas s m new = .ok (old == m.leaf.toNat) s1 := by
  simp only [leafCas, hr, h, Bool.false_eq_true, if_false]

/-- The state once a migration has ended: the next request of its engine takes its place. -/
def migRetired (s : State) (e n : Nat) : State :=
  { s with
    migActive := updAt s.migActive e (fun l => l.eraseIdx n ++ (s.migQueued.getD e []).take 1),
    migQueued := updAt s.migQueued e (fun l => l.drop 1) }

theorem migFinish_stores (hs : m.stat ≠ 0) (h : devWrite s m.ctx m.stat.toNat 8 m.status 0 = .ok () s1) :
    migFinish s e n m = .next (updMigr s1 e n (fun x => { x with stat := 0 })) := by
  simp only [migFinish, bne_iff_ne, ne_eq, hs, not_false_eq_true, if_true, h]

theorem migFinish_retires (hs : m.stat = 0) (hc : m.ctr = 0) : migFinish s e n m = .next (migRetired s e n) := by
  simp only [migFinish, hs, hc]
  rfl

theorem migFinish_counts {x : Nat} (hs : m.stat = 0) (hc : m.ctr ≠ 0) (hu : devUnacked s = false)
    (h : devCount s m.ctx m.ctr.toNat m.key 0 = .ok x s1) : migFinish s e n m = .next (migRetired s1 e n) := by
  simp only [migFinish, hs, beq_false_of_ne hc, hu, h, Bool.and_false, Bool.false_eq_true, bne_self_eq_false, if_false]
  rfl

end
end

end Sys2Proof.Machine
end

section
/-! SUPPORT. What the memory system does on its own: far-tier caches (R282), write queues (R276), posted reductions (R148), fills (R271),
refresh (R278) and conversions of local banks (R192). -/
namespace Sys2Proof.Machine

section
variable {s s1 : State} {n : BitVec 2} {v : BitVec 64} {core : BitVec 7} {b : BitVec 5}

/-- What refuses a configuration of a far-tier cache (R282). -/
def FtcBad (n : BitVec 2) (v : BitVec 64) : Prop :=
  fieldOf v 61 60 ≠ 0 ∨ fieldOf v 55 52 ≠ 0 ∨ fieldOf v 27 13 ≠ 0 ∨ 8 ≤ fieldOf v 59 56 ∨
    ftcRefused n.toNat (fieldOf v 59 56) (fieldOf v 51 28 * 2 ^ 28) = true

section
variable (ho : regOpen s = true) (hb : (s.ndie n.toNat).ftcBusy = false)
include ho hb

theorem execFtccfg_refused (h : FtcBad n v) : execFtccfg n v s = .next (s.updNDie n.toNat (fun x => { x with ftcResult := true })) := by
  simp only [execFtccfg, ho, hb, Bool.not_true, Bool.or_self, Bool.false_eq_true, if_false]
  exact if_pos (by simpa only [FtcBad, Bool.or_eq_true, bne_iff_ne, decide_eq_true_eq, or_assoc] using h)

theorem execFtccfg_begins (h : ¬ FtcBad n v) (hz : (s.ndie n.toNat).ftcSize = 0) : execFtccfg n v s =
    .next ((s.updNDie n.toNat (fun x => { x with
      ftcBusy := true, ftcResult := false, newSize := fieldOf v 59 56, newBase := fieldOf v 51 28 * 2 ^ 28 })).postE (.ftcChangeDone n)) := by
  simp only [execFtccfg, ho, hb, hz, Bool.not_true, Bool.or_self, Bool.false_eq_true, if_false, beq_self_eq_true, if_true]
  exact if_neg (by simpa only [FtcBad, Bool.or_eq_true, bne_iff_ne, decide_eq_true_eq, or_assoc] using h)

end

theorem execFtcChangeDone_ends (hb : (s.ndie n.toNat).ftcBusy = true) (hz : (s.ndie n.toNat).ftcSize = 0)
    (he : (s.ndie n.toNat).epoch + 1 < 2 ^ 13) : execFtcChangeDone n s = .next (s.updNDie n.toNat (fun x => { x with
      ftcSize := x.newSize, ftcBase := x.newBase, epoch := (s.ndie n.toNat).epoch + 1, ftcBusy := false })) := by
  simp only [execFtcChangeDone, hb, hz, Nat.mod_eq_of_lt he, Bool.not_true, Bool.false_eq_true, if_false, beq_self_eq_true, if_true]
  exact congrArg Host.Outcome.next (if_pos (by simp))

theorem execWriteQueueRequest_oldest {q r : RedReq} {qs rs : List RedReq} (hq : (s.ndie n.toNat).queue = q :: qs)
    (h : makeRoom s n.toNat (entriesFor (q.pa / 128)) = s1) (hr : (s1.ndie n.toNat).queue = r :: rs) :
    execWriteQueueRequest n s = .next (performRed (s1.updNDie n.toNat (fun x => { x with queue := rs })) n.toNat r) := by
  simp only [execWriteQueueRequest, hq, h, hr]

theorem execL2ReductionApplied_oldest {d : BitVec 4} {r : RedReq} {rs : List RedReq} (hr : (s.die d.toNat).reds = r :: rs)
    (h : applyRed (s.updDie d.toNat (fun x => { x with reds := rs })) r = some s1) : execL2ReductionApplied d s = .next s1 := by
  simp only [execL2ReductionApplied, hr, h, Option.getD_some]

theorem execCacheFill_fills {line : BitVec 45} {t : Tr} (hc : core.toNat < 96) (ht : lineTr s (core.toNat / 8) line.toNat = some t)
    (hm : ownMem s t.pa = true) (hd : l2Down s (core.toNat / 8) = false) (hu : notReady s (unitOf t.pa) = false)
    (hl : hasL1 s core.toNat = true) (hw : l1Draining s core.toNat line.toNat = false) (h : l1Fill s core.toNat t = some s1) :
    execCacheFill 0 core line line s = .next s1 := by
  have die : ¬ core.toNat / 8 ≥ 12 := by omega
  simp [execCacheFill, dieOf, die, ht, hm, hd, hu, hl, hw, h]

theorem execRefresh_due {stack : BitVec 4} {row : BitVec 40} (h : s.rowTimes.lookup (stack.toNat * 2 ^ 40 + row.toNat) = none) :
    execRefresh stack row s = .next { s with rowTimes := setA s.rowTimes (stack.toNat * 2 ^ 40 + row.toNat) s.cycle } := by
  simp only [execRefresh, h, Option.any_none, Bool.false_eq_true, if_false]

section
variable {k : Bank} (hk : (s.core core.toNat).banks[b.toNat]? = some k)
include hk

theorem execBankFillDone_drains (h : k.mode = .drainF) : execBankFillDone core b s = .next ((s.updCore core.toNat (fun x => { x with
    banks := updAt x.banks b.toNat (fun k => { k with mode := .drainW, misses := 0 }) })).postE (.bankWritebackDone core b)) := by
  simp [execBankFillDone, hk, h]

theorem execBankWritebackDone_converts (h : k.mode = .drainW) (hl : ∀ x ∈ (s.core core.toNat).l1, x.bank ≠ b.toNat) :
    execBankWritebackDone core b s =
      .next (s.updCore core.toNat (fun x => { x with banks := updAt x.banks b.toNat (fun k => { k with mode := k.target }) })) := by
  have empty : (s.core core.toNat).l1.filter (fun x => x.bank == b.toNat) = [] :=
    List.filter_eq_nil_iff.mpr fun x hx => beq_iff_eq.not.mpr (hl x hx)
  simp [execBankWritebackDone, hk, h, empty, allOf]

end
end

end Sys2Proof.Machine
end

section
/-! SUPPORT. The host's registers and its accesses to memory (R306, R332, R367, R368), attestation (R366), fibre ports and routes (R339). -/
namespace Sys2Proof.Machine

section
variable {s s1 : State} {v : BitVec 64}

theorem regOpen_safe (h : regOpen s = true) : s.safe = false := by
  simp only [regOpen, Bool.and_eq_true, Bool.not_eq_true'] at h
  exact h.1

-- Registers --------------------------------------------------------------------------------------------------------------------

section
variable {o : BitVec 12}

theorem execHostRegisterWrite_absent (h : hostRegValue s o.toNat = none) : execHostRegisterWrite o v s = .next (hostError s o.toNat) := by
  simp [execHostRegisterWrite, h]

theorem execHostRegisterWrite_safe (hs : s.safe = true) (h : hostRegValue s o.toNat ≠ none) : execHostRegisterWrite o v s = .next s := by
  have there : (hostRegValue s o.toNat).isNone = false := Option.isNone_eq_false_iff.mpr (Option.isSome_iff_ne_none.mpr h)
  simp only [execHostRegisterWrite, there, hs, Bool.false_eq_true, if_false, if_true]

end

section
variable (ho : regOpen s = true)
include ho

theorem host_registers_store :
    let at' (o : BitVec 12) (t : State) : Prop := execHostRegisterWrite o v s = .next t
    at' 0x010 { s with host := { s.host with ctxbase := v &&& baseMask } } ∧ at' 0x088 { s with host := { s.host with evbase := v &&& baseMask } } ∧
    at' 0x058 { s with host := { s.host with promh := v &&& handleMask } } ∧ at' 0x0B0 { s with host := { s.host with lwgt := v &&& 0xFFFF } } ∧
    at' 0x000 s ∧ at' 0x008 s ∧ at' 0x098 s ∧ at' 0x400 s := by
  refine ⟨?_, ?_, ?_, ?_, ?_, ?_, ?_, ?_⟩ <;> simp [execHostRegisterWrite, ho, regOpen_safe ho, hostRegValue, State.updHost]

/-- A register that starts something has it run next (log entry 15). -/
theorem host_registers_start :
    let at' (o : BitVec 12) (t : State) : Prop := execHostRegisterWrite o v s = .next t
    at' 0x060 { s with agenda := .event (.proma v) :: s.agenda } ∧
    at' 0x080 { s with
      host := { s.host with migh := (s.host.migh &&& 0x0070000000000000) ||| (v &&& 0xFF0FFFFFFFFFFFE0) ||| 0x0080000000000000 },
      agenda := .event (.migh v) :: s.agenda } := by
  refine ⟨?_, ?_⟩ <;> simp [execHostRegisterWrite, ho, regOpen_safe ho, hostRegValue, State.updHost, State.postFront]

theorem execHostRegisterWrite_ctxcmd : execHostRegisterWrite 0x018 v s = .next (writeCtxcmd s v) := by
  simp [execHostRegisterWrite, ho, regOpen_safe ho, hostRegValue]

end

theorem writeCtxcmd_opens (hb : fieldOf s.host.ctxcmd 63 63 = 0) (hv : fieldOf v 3 0 = 1) : writeCtxcmd s v = { s with
    host := { s.host with ctxcmd := (v &&& 0xFF0F) ||| 0x8000000000000000 },
    agenda := .event (.ctxOpen (BitVec.ofNat 8 (fieldOf v 15 8))) :: s.agenda } := by
  simp [writeCtxcmd, hb, hv, State.updHost, State.postFront]

theorem writeCtxcmd_busy (hb : fieldOf s.host.ctxcmd 63 63 = 1) : writeCtxcmd s v = s := by simp [writeCtxcmd, hb]

-- Memory -----------------------------------------------------------------------------------------------------------------------

section
variable {pa : BitVec 52} {k x : BitVec 8}

theorem host_access_refused (h : s.safe = true ∨ ownMem s pa.toNat = false ∨ notReady s (unitOf pa.toNat) = true) :
    execHostMemoryRead pa k s = .next (hostError s pa.toNat) ∧ execHostMemoryWrite pa [x] s = .next (hostError s pa.toNat) := by
  have refused (n : Nat) : hostRefused s pa.toNat n = true := by
    rcases h with h | h | h <;> simp [hostRefused, h]
  simp [execHostMemoryRead, execHostMemoryWrite, refused]

section
variable (hs : s.safe = false) (hm : ownMem s pa.toNat = true) (hr : notReady s (unitOf pa.toNat) = false)
include hs hm hr

theorem host_write_admitted : hostRefused s pa.toNat 1 = false := by simp [hostRefused, hs, hm, hr]

theorem execHostMemoryWrite_waits (hp : anyPort s = false) : execHostMemoryWrite pa [x] s = .next s := by
  simp [execHostMemoryWrite, host_write_admitted hs hm hr, hp]

theorem execHostMemoryWrite_writes (hp : anyPort s = true) : execHostMemoryWrite pa [x] s = .next (physWrite s pa.toNat 1 x.toNat) := by
  have one : min 1 (128 - pa.toNat % 128) = 1 := by omega
  simp [execHostMemoryWrite, host_write_admitted hs hm hr, hp, hostBytes, one, leNat]

section
variable (hm' : ownMem s (pa.toNat + k.toNat - 1) = true) (hr' : notReady s (unitOf (pa.toNat + k.toNat - 1)) = false)
include hm' hr'

theorem host_read_admitted : hostRefused s pa.toNat k.toNat = false := by simp [hostRefused, hs, hm, hr, hm', hr']

theorem execHostMemoryRead_waits (hp : anyPort s = false) : execHostMemoryRead pa k s = .next s := by
  simp [execHostMemoryRead, host_read_admitted hs hm hr hm' hr', hp]

theorem execHostMemoryRead_answers (hp : anyPort s = true) {a : Nat} {bad : Bool} (h : physRead s pa.toNat k.toNat = (a, bad, s1)) :
    execHostMemoryRead pa k s = .next (if bad = true then hostError s1 pa.toNat
      else { s1 with replies := s1.replies ++ [.data pa.toNat (bytesOf k.toNat a)] }) := by
  simp only [execHostMemoryRead, host_read_admitted hs hm hr hm' hr', hp, h, Bool.not_true, Bool.false_eq_true, if_false,
    apply_ite Host.Outcome.next]

end
end
end

-- Attestation, fibre ports and routes --------------------------------------------------------------------------------------------

theorem execAttaddr_begins (hs : s.safe = false) (h1 : fieldOf v 63 52 = 0) (h2 : fieldOf v 7 2 = 0) (hb : fieldOf s.host.attaddr 1 1 = 0) :
    execAttaddr v s = .next { s with host := { s.host with attaddr := BitVec.ofNat 64 (fieldOf v 51 8 * 256 + 2) } } := by
  simp [execAttaddr, hs, h1, h2, hb, State.updHost]

section
variable {rep : List (BitVec 8)} (hb : fieldOf s.host.attaddr 1 1 = 1)

/-- Where the report goes (R366). -/
def reportAt (s : State) : Nat := fieldOf s.host.attaddr 51 8 * 256

/-- The state with the report written, the nonce and what follows it (R366). -/
def reportWritten (s s1 : State) (rep : List (BitVec 8)) (nonce : Nat) : State :=
  let bytes := (bytesOf 32 nonce ++ reportBody s rep).take 3840
  physWrite s1 (reportAt s + 256) bytes.length (leNat bytes)

/-- A report that has been written ends, in another module's buffer once every write of the device has been performed (R346). -/
def reportEnds (s u : State) : Out :=
  .next (if inRemote (reportAt s) && devUnacked u then { u with attSent := true }
    else { u with attSent := false, host := { u.host with attaddr := BitVec.ofNat 64 (reportAt s + 1) } })

theorem reportEnds_now {u : State} (h : inRemote (reportAt s) = false ∨ devUnacked u = false) : reportEnds s u =
    .next { u with attSent := false, host := { u.host with attaddr := BitVec.ofNat 64 (reportAt s + 1) } } := by
  rcases h with h | h <;> simp [reportEnds, h]

theorem reportEnds_later {u : State} (hr : inRemote (reportAt s) = true) (hu : devUnacked u = true) :
    reportEnds s u = .next { u with attSent := true } := by
  simp [reportEnds, hr, hu]

include hb

theorem execAttestationReportDone_written (hs : s.attSent = true) : execAttestationReportDone rep s = reportEnds s s := by
  simp [execAttestationReportDone, hb, hs, reportEnds, reportAt, State.updHost]

theorem execAttestationReportDone_writes {x : Nat × Option Exc} (hs : s.attSent = false) (h : physAsk s (reportAt s) 32 = .ok x s1) :
    execAttestationReportDone rep s = reportEnds s (reportWritten s s1 rep x.1) := by
  unfold reportAt at h
  simp [execAttestationReportDone, hb, hs, h, reportEnds, reportAt, reportWritten, State.updHost]

end

section
variable {port : BitVec 1}

theorem execFibmodeApply_waits (h : (s.str (6 + port.toNat)).sess ≠ .free ∨ (s.str (6 + port.toNat)).cal ≠ none) :
    execFibmodeApply port s = .next s := by
  refine if_pos ?_
  rcases h with h | h
  · simp [h]
  · simp [Option.isSome_iff_ne_none.mpr h]

theorem execFibmodeApply_applies (hf : (s.str (6 + port.toNat)).sess = .free) (hc : (s.str (6 + port.toNat)).cal = none) :
    execFibmodeApply port s = .next (postAdmit (tellComb (s.updStr (6 + port.toNat) (fun t => t.withMode (fibMode s port.toNat)))
      (6 + port.toNat)) (6 + port.toNat)) := by
  simp [execFibmodeApply, hf, hc]

end

theorem withMode_mode {t : Str} {m : Nat} : (t.withMode m).mode = m := by
  unfold Str.withMode
  split
  · rfl
  · split
    · rfl
    · rfl

theorem execRouteWrite_open {m : BitVec 6} (ho : regOpen s = true) : execRouteWrite m v s = .next (flushOutbox (withReroutes s
    (s.updHost (fun h => { h with routes := updAt h.routes m.toNat (fun _ => v &&& 0x3FF) })))) := by
  simp [execRouteWrite, ho]

end

/-- Settles O58: each event by its own lemma. -/
theorem memoryAndHostEvents : Obligations.MemoryAndHostEvents := by
  intro c va sync core v w n d stack b s il nd
  refine ⟨ilRequest_appends, ilRequest_appends, ilRequest_appends, rfl, execInvalidationAppend_appends, fun _ _ => execPageWalk_waits,
    fun hc hw h => ⟨execPageWalk_walks hc hw h, fun l e pa h hl => findLeaf_fills (hl ▸ hc) h⟩, fun ho => ?submit, fun e k m s1 hm => ?migration,
    fun ho hb => ⟨execFtccfg_refused ho hb, execFtccfg_begins ho hb⟩, execFtcChangeDone_ends, fun q qs r rs s1 => execWriteQueueRequest_oldest,
    fun r rs hr s1 => execL2ReductionApplied_oldest hr, fun line t hc ht hm hd hu hl hw s1 => execCacheFill_fills hc ht hm hd hu hl hw,
    fun row => execRefresh_due, fun k hk => ⟨execBankFillDone_drains hk, execBankWritebackDone_converts hk⟩, fun line => rfl, fun ho => ?registers,
    fun o => ⟨execHostRegisterWrite_absent, execHostRegisterWrite_safe⟩,
    fun pa k hs _ hm hm' hr hr' => ⟨execHostMemoryRead_waits hs hm hr hm' hr', fun hp x bad s1 => execHostMemoryRead_answers hs hm hr hm' hr' hp⟩,
    fun pa x k => host_access_refused, fun pa x hs hm hr => ⟨execHostMemoryWrite_waits hs hm hr, execHostMemoryWrite_writes hs hm hr⟩,
    fun ho => execAttaddr_begins (regOpen_safe ho), fun rep x s1 hb => ?report, fun port => ?fibre, fun m => execRouteWrite_open⟩
  case submit =>
    intro pa cx fin x s1 h hm hf
    refine ⟨fun h5 => (execMigh_submits ho h hm hf).trans (if_neg h5), fun h5 => (execMigh_submits ho h hm hf).trans (if_pos h5)⟩
  case migration =>
    refine ⟨fun h => ⟨fun s1 => leafSwap_lost (execMigrationStep_marks hm h), fun hl => (leafSwap_taken (execMigrationStep_marks hm h) hl :)⟩,
      fun h => ⟨execMigrationStep_flush_waits hm h, execMigrationStep_flushes hm h⟩, fun h hs hr => ?_,
      fun h hs => ⟨fun s1 => leafSwap_lost (execMigrationStep_unmarks hm h hs), fun hl => (leafSwap_taken (execMigrationStep_unmarks hm h hs) hl :)⟩,
      fun h => ⟨fun s1 => leafSwap_lost (execMigrationStep_moves hm h), fun hl => (leafSwap_taken (execMigrationStep_moves hm h) hl :)⟩,
      execMigrationStep_drops hm, fun h => ?_, fun new old => leafCas_home⟩
    · refine ⟨fun hg => (execMigrationStep_copies hm h hs hr).trans (if_pos (beq_iff_eq.mpr hg)),
        fun hg => (execMigrationStep_copies hm h hs hr).trans (if_neg (beq_iff_eq.not.mpr hg))⟩
    · have finishes := execMigrationStep_finishes hm h
      exact ⟨fun hs hw => finishes.trans (migFinish_stores hs hw), fun hs hc => finishes.trans (migFinish_retires hs hc),
        fun hs hc hu x hx => finishes.trans (migFinish_counts hs hc hu hx)⟩
  case registers =>
    obtain ⟨ctxbase, evbase, promh, lwgt, modid, bootstat, evtail, link⟩ := host_registers_store (v := v) ho
    obtain ⟨proma, migh⟩ := host_registers_start (v := v) ho
    have ctxcmd := execHostRegisterWrite_ctxcmd (v := v) ho
    exact ⟨ctxbase, evbase, promh, lwgt, modid, bootstat, evtail, link, proma, migh,
      fun hb hv => ctxcmd.trans (congrArg Host.Outcome.next (writeCtxcmd_opens hb hv)),
      fun hb => ctxcmd.trans (congrArg Host.Outcome.next (writeCtxcmd_busy hb))⟩
  case report =>
    intro a bytes report ends
    refine ⟨fun hs h => ?_, fun hs hu hr => (execAttestationReportDone_written hb hs).trans (reportEnds_later hr hu),
      fun hs hu => (execAttestationReportDone_written hb hs).trans (reportEnds_now (.inr hu))⟩
    have written : execAttestationReportDone rep s = reportEnds s report := execAttestationReportDone_writes hb hs h
    clear_value report
    exact ⟨fun hd => (written.trans (reportEnds_now hd) :), fun hr hu => (written.trans (reportEnds_later hr hu) :)⟩
  case fibre =>
    intro i
    refine ⟨execFibmodeApply_waits, execFibmodeApply_applies, fun hi => ?_⟩
    rw [State.str_updStr_self _ hi, withMode_mode]


end Sys2Proof.Machine
end
